-- ==== Sys2Proof/Word.lean ====
section
/-!
DEFINITION. Words: the bit vectors the manual computes with, and the plainest readings of them (spec/00_scope.md, R6, R7).
-/

namespace Sys2Proof

/-- A 64-bit register value. -/
abbrev Word := BitVec 64
/-- A byte of memory. -/
abbrev Byte := BitVec 8
/-- A 32-bit word: an instruction word or an FP32 code. -/
abbrev W32 := BitVec 32
/-- The number of a general register, g0 to g31 (R36). -/
abbrev Reg := BitVec 5
/-- An ordering class, 0 to 15 (R25). -/
abbrev Cls := BitVec 4
/-- A program counter: a byte offset into 256 KiB of instruction memory (R26). -/
abbrev PC := BitVec 18

/-- A cluster of the part: 4 x core + cluster number (R21, R41). -/
abbrev CluIx := Fin 208
/-- A core of the part: 0 to 3 the stack cores of S0 to S3, 4 to 27 those of H0, 28 to 51 those of H1 (R21). -/
abbrev CoreIx := Fin 52
/-- A die, by its logical device number: S0 to S3 are 0 to 3, H0 is 4, H1 is 5 (R9). -/
abbrev DieIx := Fin 6
/-- A Dowel link, DL0 to DL8 (R11). -/
abbrev LinkIx := Fin 9

end Sys2Proof
end

