-- ==== Sys2Proof/Syntax.lean ====
section
/-!
DEFINITION. Syntax: the abstract syntax of the Shoelle instruction set (spec/02_encoding.md, R24 to R52) and of the
part's own steps.  One constructor of `Instr` per row of spec/opcode_table.json, in the table's order: 197 instruction
words and 106 events.  Bit 31 of a word, the sync bit S, is not part of an instruction's meaning; `IWord` carries it
beside the instruction.
-/

namespace Sys2Proof

/-- The SEM field of an atomic (R48). -/
inductive Sem where
  | plain | acq | rel | acqRel
  deriving DecidableEq, Repr

/-- The VT field of vector atomics and reduction stores (R48). -/
inductive AtomType where
  | s32 | n32 | f32 | bf16
  deriving DecidableEq, Repr

/-- The AOP field of a scalar atomic (R48). -/
inductive AtomOp where
  | add | and | or | xor | min | max | swp | cas
  deriving DecidableEq, Repr

/-- The scope of a fence (R49, R201). -/
inductive Scope where
  | core | die | pkg | dom | sys
  deriving DecidableEq, Repr

/-- Element types and their Q codes 0x0 to 0xC (R50, R101). -/
inductive ElemType where
  | f32 | bf16 | f16 | e4m3 | e5m2 | s8 | s16 | s32 | n8 | n16 | n32 | mxi8 | bpn
  deriving DecidableEq, Repr

/-- The condition of FCMP (R50, R81). -/
inductive CmpCond where
  | eq | lt | le | un
  deriving DecidableEq, Repr

/-- The eight conversions of FCVT, codes 0 to 7 (R50, R82). -/
inductive CvtKind where
  | s64F | n64F | f32S | f32N | f32B | f32H | bF32 | hF32
  deriving DecidableEq, Repr

/-- An FCVT qualifier: a conversion, and whether it rounds toward zero (.Z, codes 8 to 15). -/
structure CvtOp where
  kind : CvtKind
  toZero : Bool
  deriving DecidableEq, Repr

/-- Which memory patrol scrub reads (R324). -/
inductive ScrubKind where
  | dram | hubSram | scratchpad (core : Nat) | imem (core : Nat)
  deriving DecidableEq, Repr

/-- An instruction word of the part, or one step of the part's own agents. -/
inductive Instr where
  /-- ADD (R66). Sets gD to gA plus gB modulo 2^64. -/
  | add (d : Reg) (a : Reg) (b : Reg)
  /-- SUB (R66). Sets gD to gA minus gB modulo 2^64. -/
  | sub (d : Reg) (a : Reg) (b : Reg)
  /-- AND (R66). Sets gD to the bitwise AND of gA and gB. -/
  | and (d : Reg) (a : Reg) (b : Reg)
  /-- OR (R66). Sets gD to the bitwise OR of gA and gB. -/
  | or (d : Reg) (a : Reg) (b : Reg)
  /-- XOR (R66). Sets gD to the bitwise XOR of gA and gB. -/
  | xor (d : Reg) (a : Reg) (b : Reg)
  /-- ANDN (R66). Sets gD to gA AND NOT gB. -/
  | andn (d : Reg) (a : Reg) (b : Reg)
  /-- MIN (R66). Sets gD to the signed lesser of gA and gB. -/
  | min (d : Reg) (a : Reg) (b : Reg)
  /-- MAX (R66). Sets gD to the signed greater of gA and gB. -/
  | max (d : Reg) (a : Reg) (b : Reg)
  /-- MINN (R66). Sets gD to the unsigned lesser of gA and gB. -/
  | minn (d : Reg) (a : Reg) (b : Reg)
  /-- MAXN (R66). Sets gD to the unsigned greater of gA and gB. -/
  | maxn (d : Reg) (a : Reg) (b : Reg)
  /-- ADDW (R66). Sets gD to the sign-extended low 32 bits of gA plus gB. -/
  | addw (d : Reg) (a : Reg) (b : Reg)
  /-- SUBW (R66). Sets gD to the sign-extended low 32 bits of gA minus gB. -/
  | subw (d : Reg) (a : Reg) (b : Reg)
  /-- SHL (R66). Shifts gA left by gB[5:0] into gD. -/
  | shl (d : Reg) (a : Reg) (b : Reg)
  /-- SHR (R66). Shifts gA right logically by gB[5:0] into gD. -/
  | shr (d : Reg) (a : Reg) (b : Reg)
  /-- SHA (R66). Shifts gA right arithmetically by gB[5:0] into gD. -/
  | sha (d : Reg) (a : Reg) (b : Reg)
  /-- ROL (R66). Rotates gA left by gB[5:0] into gD. -/
  | rol (d : Reg) (a : Reg) (b : Reg)
  /-- CLZ (R66). Counts leading zero bits of gA into gD. -/
  | clz (d : Reg) (a : Reg)
  /-- CTZ (R66). Counts trailing zero bits of gA into gD. -/
  | ctz (d : Reg) (a : Reg)
  /-- POPC (R66). Counts one bits of gA into gD. -/
  | popc (d : Reg) (a : Reg)
  /-- MUL (R66). Sets gD to the low 64 bits of gA times gB. -/
  | mul (d : Reg) (a : Reg) (b : Reg)
  /-- MULH (R66). Sets gD to the high 64 bits of the signed product. -/
  | mulh (d : Reg) (a : Reg) (b : Reg)
  /-- MULHN (R66). Sets gD to the high 64 bits of the unsigned product. -/
  | mulhn (d : Reg) (a : Reg) (b : Reg)
  /-- DIV (R67). Signed division truncating toward zero, never trapping. -/
  | div (d : Reg) (a : Reg) (b : Reg)
  /-- DIVN (R67). Unsigned division, all ones on a zero divisor. -/
  | divn (d : Reg) (a : Reg) (b : Reg)
  /-- REM (R67). Signed remainder with the sign of the dividend. -/
  | rem (d : Reg) (a : Reg) (b : Reg)
  /-- REMN (R67). Unsigned remainder, gA on a zero divisor. -/
  | remn (d : Reg) (a : Reg) (b : Reg)
  /-- SEQ (R66). Sets gD to 1 if gA equals gB, else 0. -/
  | seq (d : Reg) (a : Reg) (b : Reg)
  /-- SNE (R66). Sets gD to 1 if gA differs from gB, else 0. -/
  | sne (d : Reg) (a : Reg) (b : Reg)
  /-- SLT (R66). Sets gD to 1 if gA is signed less than gB. -/
  | slt (d : Reg) (a : Reg) (b : Reg)
  /-- SLTN (R66). Sets gD to 1 if gA is unsigned less than gB. -/
  | sltn (d : Reg) (a : Reg) (b : Reg)
  /-- SLE (R66). Sets gD to 1 if gA is signed less than or equal to gB. -/
  | sle (d : Reg) (a : Reg) (b : Reg)
  /-- SLEN (R66). Sets gD to 1 if gA is unsigned less than or equal to gB. -/
  | slen (d : Reg) (a : Reg) (b : Reg)
  /-- ADDI (R68). Adds a sign-extended 15-bit immediate to gA. -/
  | addi (d : Reg) (a : Reg) (imm : BitVec 15)
  /-- ORI (R68). ORs a zero-extended 15-bit immediate into gA. -/
  | ori (d : Reg) (a : Reg) (imm : BitVec 15)
  /-- XORI (R68). XORs a zero-extended 15-bit immediate into gA. -/
  | xori (d : Reg) (a : Reg) (imm : BitVec 15)
  /-- SLTI (R68). Sets gD to 1 if gA is signed less than the immediate. -/
  | slti (d : Reg) (a : Reg) (imm : BitVec 15)
  /-- MOVZ (R69). Sets gD to a 16-bit immediate shifted into a quarter, other bits zero. -/
  | movz (d : Reg) (imm : BitVec 16) (q : BitVec 2)
  /-- MOVK (R69). Replaces one 16-bit quarter of gD, keeping the other bits. -/
  | movk (d : Reg) (imm : BitVec 16) (q : BitVec 2)
  /-- MOVN (R69). Sets gD to the inverse of the shifted immediate. -/
  | movn (d : Reg) (imm : BitVec 16) (q : BitVec 2)
  /-- ADDPC (R70). Sets gD to an instruction-memory offset relative to the PC. -/
  | addpc (d : Reg) (imm : BitVec 15)
  /-- SHADD1 (R71). Sets gD to (gA << 1) + gB. -/
  | shadd1 (d : Reg) (a : Reg) (b : Reg)
  /-- SHADD2 (R71). Sets gD to (gA << 2) + gB. -/
  | shadd2 (d : Reg) (a : Reg) (b : Reg)
  /-- SHADD3 (R71). Sets gD to (gA << 3) + gB. -/
  | shadd3 (d : Reg) (a : Reg) (b : Reg)
  /-- SHADD4 (R71). Sets gD to (gA << 4) + gB. -/
  | shadd4 (d : Reg) (a : Reg) (b : Reg)
  /-- J (R72). Jumps by a signed 25-bit word offset. -/
  | j (off : BitVec 25)
  /-- CALL (R72). Jumps by a word offset and links the return address in g31. -/
  | call (off : BitVec 25)
  /-- BEQZ (R73). Branches when gD is zero. -/
  | beqz (d : Reg) (off : BitVec 16)
  /-- BNEZ (R73). Branches when gD is not zero. -/
  | bnez (d : Reg) (off : BitVec 16)
  /-- BLTZ (R73). Branches when gD is negative. -/
  | bltz (d : Reg) (off : BitVec 16)
  /-- BGEZ (R73). Branches when gD is zero or positive. -/
  | bgez (d : Reg) (off : BitVec 16)
  /-- BGTZ (R73). Branches when gD is positive. -/
  | bgtz (d : Reg) (off : BitVec 16)
  /-- BLEZ (R73). Branches when gD is zero or negative. -/
  | blez (d : Reg) (off : BitVec 16)
  /-- JR (R74). Jumps to the instruction-memory offset in gA. -/
  | jr (a : Reg)
  /-- CALLR (R74). Jumps to the offset in gA and links the return address in gD. -/
  | callr (d : Reg) (a : Reg)
  /-- LOOPS (R76). Opens a hardware loop with trip count gA and last body word gB. -/
  | loops (a : Reg) (b : Reg)
  /-- LOOPX (R78). Leaves and pops the innermost hardware loop. -/
  | loopx
  /-- LD (R83). Loads 64 bits at gA plus a scaled offset into gD. -/
  | ld (d : Reg) (a : Reg) (imm : BitVec 11) (o : Cls)
  /-- LD_S32 (R83). Loads 32 bits sign-extended at gA plus a scaled offset. -/
  | ldS32 (d : Reg) (a : Reg) (imm : BitVec 11) (o : Cls)
  /-- ST (R83). Stores 64 bits of gD at gA plus a scaled offset. -/
  | st (d : Reg) (a : Reg) (imm : BitVec 11) (o : Cls)
  /-- ST_N32 (R83). Stores the low 32 bits of gD at gA plus a scaled offset. -/
  | stN32 (d : Reg) (a : Reg) (imm : BitVec 11) (o : Cls)
  /-- LD_S8 (R83). Loads a sign-extended byte at gA + gB. -/
  | ldS8 (d : Reg) (a : Reg) (b : Reg) (o : Cls)
  /-- LD_N8 (R83). Loads a zero-extended byte at gA + gB. -/
  | ldN8 (d : Reg) (a : Reg) (b : Reg) (o : Cls)
  /-- LD_S16 (R83). Loads a sign-extended halfword at gA + 2gB. -/
  | ldS16 (d : Reg) (a : Reg) (b : Reg) (o : Cls)
  /-- LD_N16 (R83). Loads a zero-extended halfword at gA + 2gB. -/
  | ldN16 (d : Reg) (a : Reg) (b : Reg) (o : Cls)
  /-- LD_N32 (R83). Loads a zero-extended word at gA + 4gB. -/
  | ldN32 (d : Reg) (a : Reg) (b : Reg) (o : Cls)
  /-- LDX (R83). Loads 64 bits at gA + 8gB. -/
  | ldx (d : Reg) (a : Reg) (b : Reg) (o : Cls)
  /-- ST_N8 (R83). Stores the low byte of gD at gA + gB. -/
  | stN8 (d : Reg) (a : Reg) (b : Reg) (o : Cls)
  /-- ST_N16 (R83). Stores the low halfword of gD at gA + 2gB. -/
  | stN16 (d : Reg) (a : Reg) (b : Reg) (o : Cls)
  /-- STX (R83). Stores 64 bits of gD at gA + 8gB. -/
  | stx (d : Reg) (a : Reg) (b : Reg) (o : Cls)
  /-- LD_ACQ (R86). Loads 64 bits at gA with acquire ordering. -/
  | ldAcq (d : Reg) (a : Reg) (o : Cls)
  /-- ST_REL (R86). Stores 64 bits of gD at gA with release ordering. -/
  | stRel (d : Reg) (a : Reg) (o : Cls)
  /-- AADD (R204). Atomically adds gB to the location at gA, returning the old value. -/
  | aadd (d : Reg) (a : Reg) (b : Reg) (sem : Sem) (w : Bool) (o : Cls)
  /-- AAND (R204). Atomically ANDs gB into the location at gA. -/
  | aand (d : Reg) (a : Reg) (b : Reg) (sem : Sem) (w : Bool) (o : Cls)
  /-- AOR (R204). Atomically ORs gB into the location at gA. -/
  | aor (d : Reg) (a : Reg) (b : Reg) (sem : Sem) (w : Bool) (o : Cls)
  /-- AXOR (R204). Atomically XORs gB into the location at gA. -/
  | axor (d : Reg) (a : Reg) (b : Reg) (sem : Sem) (w : Bool) (o : Cls)
  /-- AMIN (R204). Atomically stores the signed minimum of the location and gB. -/
  | amin (d : Reg) (a : Reg) (b : Reg) (sem : Sem) (w : Bool) (o : Cls)
  /-- AMAX (R204). Atomically stores the signed maximum of the location and gB. -/
  | amax (d : Reg) (a : Reg) (b : Reg) (sem : Sem) (w : Bool) (o : Cls)
  /-- ASWP (R204). Atomically swaps gB into the location at gA. -/
  | aswp (d : Reg) (a : Reg) (b : Reg) (sem : Sem) (w : Bool) (o : Cls)
  /-- ACAS (R204). Atomically writes gB if the location equals gD, returning the old value. -/
  | acas (d : Reg) (a : Reg) (b : Reg) (sem : Sem) (w : Bool) (o : Cls)
  /-- VAADD (R207). Adds each element of 32 B at gB into 32 B at gA, each element atomically. -/
  | vaadd (d : Reg) (a : Reg) (b : Reg) (sem : Sem) (t : AtomType) (o : Cls)
  /-- VAMIN (R207). Applies an elementwise atomic minimum to 32 B at gA. -/
  | vamin (d : Reg) (a : Reg) (b : Reg) (sem : Sem) (t : AtomType) (o : Cls)
  /-- VAMAX (R207). Applies an elementwise atomic maximum to 32 B at gA. -/
  | vamax (d : Reg) (a : Reg) (b : Reg) (sem : Sem) (t : AtomType) (o : Cls)
  /-- REDADD (R209). Posts an elementwise add of 32 B to gA, mergeable in Span. -/
  | redadd (a : Reg) (b : Reg) (t : AtomType) (o : Cls)
  /-- REDMIN (R209). Posts an elementwise minimum of 32 B to gA. -/
  | redmin (a : Reg) (b : Reg) (t : AtomType) (o : Cls)
  /-- REDMAX (R209). Posts an elementwise maximum of 32 B to gA. -/
  | redmax (a : Reg) (b : Reg) (t : AtomType) (o : Cls)
  /-- FENCE (R216). Orders named paths and classes at a scope and delivers floating-point flags. -/
  | fence (paths : BitVec 6) (scope : Scope) (mask : BitVec 16)
  /-- FENCE_COMPLETE (R217). A waiting fence completes once all awaited earlier work is done, and flags are delivered. -/
  | fenceComplete (cl : CluIx) (n : Nat)
  /-- BJOIN (R96). Adds the issuing cluster to the membership of a barrier. -/
  | bjoin (k : BitVec 7) (a : Reg)
  /-- BLEAVE (R96). Arrives if not yet arrived and marks the cluster to leave at phase end. -/
  | bleave (k : BitVec 7) (a : Reg)
  /-- BARV (R96). Arrives at a barrier and waits for the phase to complete. -/
  | barv (d : Reg) (k : BitVec 7) (a : Reg)
  /-- BARA (R96). Arrives at a barrier without waiting, returning the phase. -/
  | bara (d : Reg) (k : BitVec 7) (a : Reg)
  /-- BWAIT (R96). Waits until the named barrier phase has completed. -/
  | bwait (k : BitVec 7) (a : Reg) (b : Reg)
  /-- RCLAIM (R91). Waits for a free slot of a ring and claims it. -/
  | rclaim (d : Reg) (k : BitVec 6)
  /-- RCLAIMT (R91). Claims a ring slot if one is free, else returns all ones. -/
  | rclaimt (d : Reg) (k : BitVec 6)
  /-- RFILL (R91). Marks a claimed slot filled and advances HEAD over filled runs. -/
  | rfill (k : BitVec 6) (a : Reg)
  /-- RAWAIT (R91). Waits until a ring sequence is filled and returns its slot address. -/
  | rawait (d : Reg) (k : BitVec 6) (a : Reg)
  /-- RAWAITT (R91). Returns a filled sequence's slot address or all ones without waiting. -/
  | rawaitt (d : Reg) (k : BitVec 6) (a : Reg)
  /-- RREL (R91). Releases a filled slot and advances TAIL over released runs. -/
  | rrel (k : BitVec 6) (a : Reg)
  /-- RCFG (R91). Configures or disables an idle ring and resets its counters. -/
  | rcfg (k : BitVec 6) (a : Reg)
  /-- RSTAT (R91). Returns a ring's CLM, HEAD, TAIL and EN. -/
  | rstat (d : Reg) (k : BitVec 6)
  /-- SPAWN (R259). Pushes a continuation record to a device queue slot or the ready store. -/
  | spawn (d : Reg) (a : Reg) (b : Reg) (o : Cls)
  /-- JDEC (R261). Decrements a join block, pushing its record when the count reaches zero. -/
  | jdec (d : Reg) (a : Reg) (o : Cls)
  /-- EXIT (R262). Retires the current record after any join decrement. -/
  | exit (o : Cls)
  /-- YIELD (R263). Pushes a record to the ready store and retires if a waiting record may run. -/
  | yield (a : Reg) (o : Cls)
  /-- CREC (R264). Returns word k of the current record. -/
  | crec (d : Reg) (k : BitVec 5)
  /-- JSET (R260). Arms a join block with a count and a record, reserving a ready-store entry. -/
  | jset (d : Reg) (a : Reg) (b : Reg) (o : Cls)
  /-- VADD (R147). Adds two vector regions elementwise. -/
  | vadd (i : Bool) (o : Cls) (a : Reg) (b : Reg) (t : ElemType)
  /-- VSUB (R147). Subtracts two vector regions elementwise. -/
  | vsub (i : Bool) (o : Cls) (a : Reg) (b : Reg) (t : ElemType)
  /-- VMUL (R147). Multiplies two vector regions elementwise. -/
  | vmul (i : Bool) (o : Cls) (a : Reg) (b : Reg) (t : ElemType)
  /-- VMAC (R147). Forms a times b plus d with one rounding per element. -/
  | vmac (i : Bool) (o : Cls) (a : Reg) (b : Reg) (t : ElemType)
  /-- VMIN (R147). Takes the elementwise lesser of two regions. -/
  | vmin (i : Bool) (o : Cls) (a : Reg) (b : Reg) (t : ElemType)
  /-- VMAX (R147). Takes the elementwise greater of two regions. -/
  | vmax (i : Bool) (o : Cls) (a : Reg) (b : Reg) (t : ElemType)
  /-- VABS (R147). Takes the elementwise absolute value. -/
  | vabs (o : Cls) (a : Reg) (b : Reg) (t : ElemType)
  /-- VNEG (R147). Negates each element. -/
  | vneg (o : Cls) (a : Reg) (b : Reg) (t : ElemType)
  /-- VSCALE (R147). Multiplies each float element by a power of two from the immediate. -/
  | vscale (o : Cls) (a : Reg) (b : Reg) (t : ElemType)
  /-- VEXP (R148). Computes e^x of each float element with one rounding. -/
  | vexp (o : Cls) (a : Reg) (b : Reg) (t : ElemType)
  /-- VLOG (R148). Computes the natural logarithm of each float element. -/
  | vlog (o : Cls) (a : Reg) (b : Reg) (t : ElemType)
  /-- VRCP (R148). Computes the reciprocal of each float element. -/
  | vrcp (o : Cls) (a : Reg) (b : Reg) (t : ElemType)
  /-- VRSQRT (R148). Computes the reciprocal square root of each float element. -/
  | vrsqrt (o : Cls) (a : Reg) (b : Reg) (t : ElemType)
  /-- VTANH (R148). Computes tanh of each float element. -/
  | vtanh (o : Cls) (a : Reg) (b : Reg) (t : ElemType)
  /-- VSIGM (R148). Computes the logistic sigmoid of each float element. -/
  | vsigm (o : Cls) (a : Reg) (b : Reg) (t : ElemType)
  /-- VCVT (R149). Converts elements to another type by round-to-nearest-even. -/
  | vcvt (o : Cls) (a : Reg) (b : Reg) (t : ElemType)
  /-- VCVTZ (R149). Converts elements to another type by rounding toward zero. -/
  | vcvtz (o : Cls) (a : Reg) (b : Reg) (t : ElemType)
  /-- VSUM (R150). Sums the active elements by the fixed tree into one element. -/
  | vsum (o : Cls) (a : Reg) (b : Reg) (t : ElemType)
  /-- VRMAX (R150). Reduces the active elements to their F32 maximum. -/
  | vrmax (o : Cls) (a : Reg) (b : Reg) (t : ElemType)
  /-- VDOT (R150). Forms the F32 dot product of two regions by the fixed tree. -/
  | vdot (o : Cls) (a : Reg) (b : Reg) (t : ElemType)
  /-- VCMPEQ (R151). Writes an all-ones mask where elements are equal. -/
  | vcmpeq (i : Bool) (o : Cls) (a : Reg) (b : Reg) (t : ElemType)
  /-- VCMPLT (R151). Writes a mask where a is less than b. -/
  | vcmplt (i : Bool) (o : Cls) (a : Reg) (b : Reg) (t : ElemType)
  /-- VCMPLE (R151). Writes a mask where a is less than or equal to b. -/
  | vcmple (i : Bool) (o : Cls) (a : Reg) (b : Reg) (t : ElemType)
  /-- VSEL (R151). Selects a where the destination has any bit set, else b. -/
  | vsel (i : Bool) (o : Cls) (a : Reg) (b : Reg) (t : ElemType)
  /-- VAND (R151). Bitwise AND of two regions. -/
  | vand (i : Bool) (o : Cls) (a : Reg) (b : Reg) (t : ElemType)
  /-- VOR (R151). Bitwise OR of two regions. -/
  | vor (i : Bool) (o : Cls) (a : Reg) (b : Reg) (t : ElemType)
  /-- VXOR (R151). Bitwise XOR of two regions. -/
  | vxor (i : Bool) (o : Cls) (a : Reg) (b : Reg) (t : ElemType)
  /-- VSHL (R151). Shifts integer elements left. -/
  | vshl (i : Bool) (o : Cls) (a : Reg) (b : Reg) (t : ElemType)
  /-- VSHR (R151). Shifts integer elements right with sign or zero fill. -/
  | vshr (i : Bool) (o : Cls) (a : Reg) (b : Reg) (t : ElemType)
  /-- VCOPY (R152). Copies element bits exactly from a source region. -/
  | vcopy (o : Cls) (a : Reg) (b : Reg) (t : ElemType)
  /-- VFILL (R152). Fills a region with an immediate or with source element 0. -/
  | vfill (i : Bool) (o : Cls) (a : Reg) (b : Reg) (t : ElemType)
  /-- VPRED (R152). Writes a predicate mask from the non-zero elements of a source. -/
  | vpred (o : Cls) (a : Reg) (b : Reg) (t : ElemType)
  /-- VFENCE (R153). Waits for earlier vector and Horizon commands, optionally by class mask. -/
  | vfence (a : Reg)
  /-- VBUSY (R154). Returns the count and classes of the cluster's incomplete vector commands. -/
  | vbusy (d : Reg)
  /-- VECTOR_COMMAND_START (R142). A queued vector command starts once its ring sources are filled and the range checker releases it. -/
  | vectorCommandStart (core : CoreIx) (n : Nat)
  /-- VECTOR_COMMAND_COMPLETE (R143). A vector command completes, fills its ring slot, releases sources and merges flags. -/
  | vectorCommandComplete (core : CoreIx) (n : Nat)
  /-- HZCFG (R157). Configures a Horizon slot and opens a new series. -/
  | hzcfg (k : BitVec 4) (d : Reg) (a : Reg) (b : Reg)
  /-- HZPSH (R158). Offers a checkpoint read from the scratchpad to a Horizon slot. -/
  | hzpsh (k : BitVec 4) (a : Reg) (o : Cls)
  /-- HZPSH_R (R158). Offers the checkpoint in gB[31:0] to a Horizon slot. -/
  | hzpshR (k : BitVec 4) (b : Reg)
  /-- HZEST (R159). Returns the current estimate, count and flags of a Horizon slot. -/
  | hzest (d : Reg) (k : BitVec 4)
  /-- HZRD (R160). Writes the series result of a Horizon slot to the scratchpad. -/
  | hzrd (k : BitVec 4) (a : Reg) (o : Cls)
  /-- HZCLR (R161). Clears a Horizon slot's series, keeping its parameters. -/
  | hzclr (k : BitVec 4)
  /-- HORIZON_CHECKPOINT (R132). A Horizon series applies one checkpoint: estimate, convergence test and possible close. -/
  | horizonCheckpoint (core : CoreIx) (n : Nat)
  /-- MXCFG (R167). Writes one shadow-plane register of the matrix engine. -/
  | mxcfg (a : Reg) (b : Reg)
  /-- MXGO (R168). Checks and arms the shadow plane to start a matrix nest. -/
  | mxgo (o : Cls)
  /-- MXWAIT (R171). Waits until the matrix engine is idle or frozen and takes any recorded fault. -/
  | mxwait
  /-- MXSTAT (R172). Returns MXSTATUS. -/
  | mxstat (d : Reg)
  /-- MXIDX (R167). Copies 256 B from the scratchpad into the shadow index table. -/
  | mxidx (a : Reg) (o : Cls)
  /-- SQP (R169). Pushes one BF16 scale into the scale queue. -/
  | sqp (a : Reg)
  /-- SQLD (R169). Loads n scales from the scratchpad into the scale queue. -/
  | sqld (a : Reg) (b : Reg) (o : Cls)
  /-- MXDRAIN (R175). Copies accumulator rows to the scratchpad as a tile transfer. -/
  | mxdrain (a : Reg) (b : Reg) (o : Cls)
  /-- MXFRZ (R174). Freezes the matrix engine at the next chunk boundary. -/
  | mxfrz
  /-- MXTHAW (R174). Clears FROZEN and SQEF and resumes the nest at MXPG. -/
  | mxthaw
  /-- MXPROG (R173). Returns MXPG. -/
  | mxprog (d : Reg)
  /-- MXCLR (R176). Clears the accumulator, abandons nests and empties the scale queue. -/
  | mxclr
  /-- NEST_START (R168). The planes swap and an armed nest starts when the engine is idle or the running nest drains. -/
  | nestStart (core : CoreIx)
  /-- MATRIX_CHUNK (R165). The engine runs one 32-K chunk of a tile step, freezing first on an empty scale queue, fault or MXFRZ. -/
  | matrixChunk (core : CoreIx)
  /-- SQLD_ENTRY_PUSH (R169). An outstanding SQLD pushes scale entries as queue space frees. -/
  | sqldEntryPush (core : CoreIx)
  /-- NEST_COMPLETE (R177). A nest completes when its last C write has performed at CORE, merging flags. -/
  | nestComplete (core : CoreIx)
  /-- TILE_TRANSFER_LOCK (R230). A waiting tile transfer takes all its scratchpad banks in one cycle. -/
  | tileTransferLock (core : CoreIx) (n : Nat)
  /-- TILE_TRANSFER_RELEASE (R230). The tile's last write is made; banks release and every byte performs at CORE together. -/
  | tileTransferRelease (core : CoreIx) (n : Nat)
  /-- CPY (R185). Queues an inline copy of LEN bytes between virtual addresses. -/
  | cpy (d : Reg) (a : Reg) (b : Reg) (o : Cls)
  /-- CPYP (R186). Queues a copy described by a 128-byte parameter block. -/
  | cpyp (a : Reg) (b : Reg) (o : Cls)
  /-- CPINV (R198). Queues removal of one or all parameter-block cache entries. -/
  | cpinv (a : Reg) (b : Reg)
  /-- CPQUIE (R200). Returns the mask of named engines that are quiet. -/
  | cpquie (d : Reg) (a : Reg)
  /-- CPWAIT (R199). Waits for the cluster's earlier copies on named engines, or takes a held engine's cause. -/
  | cpwait (a : Reg)
  /-- CPSTAT (R200). Returns CPST of an engine. -/
  | cpstat (d : Reg) (a : Reg)
  /-- CPPROG (R200). Returns CPPG of an engine. -/
  | cpprog (d : Reg) (a : Reg)
  /-- CPNEST (R198). Queues a copy of 128 B into an engine command-store slot. -/
  | cpnest (a : Reg) (b : Reg) (o : Cls)
  /-- CPSAT (R200). Returns an engine's cumulative narrowing counters, optionally clearing them. -/
  | cpsat (d : Reg) (a : Reg) (b : Reg)
  /-- CPSEL (R200). Returns the named engine with the fewest queued commands. -/
  | cpsel (d : Reg) (a : Reg)
  /-- BLOCK_FETCH (R186). A CPYP at the head of its engine's queue fetches and checks its parameter block. -/
  | blockFetch (core : CoreIx) (e : Nat)
  /-- CPINV_EFFECT (R198). A CPINV at the head of the queue removes cache entries. -/
  | cpinvEffect (core : CoreIx) (e : Nat)
  /-- CPNEST_EFFECT (R198). A CPNEST at the head of the queue writes a command-store slot. -/
  | cpnestEffect (core : CoreIx) (e : Nat)
  /-- RING_UNIT_CLAIM (R190). In claim mode an engine claims the next ring slot before a unit's first write, waiting if none is free. -/
  | ringUnitClaim (core : CoreIx) (e : Nat)
  /-- INNERMOST_COPY (R181). An engine performs one innermost copy, narrowed or widened where asked. -/
  | innermostCopy (core : CoreIx) (e : Nat)
  /-- RING_UNIT_FILL (R190). Once all writes of a ring unit have performed at their scope, the engine fills its slot. -/
  | ringUnitFill (core : CoreIx) (e : Nat)
  /-- COPY_COMMAND_COMPLETE (R191). A copy command completes when every write has performed and every fill is done. -/
  | copyCommandComplete (core : CoreIx) (e : Nat)
  /-- NARROW_WINDOW_BOUNDARY (R195). At each 2^WINL-cycle boundary the narrowing window counts return to zero. -/
  | narrowWindowBoundary (core : CoreIx) (e : Nat)
  /-- LFMT (R285). Writes an entry of the shadow format-table plane in broadcast order. -/
  | lfmt (d : Reg) (a : Reg) (b : Reg)
  /-- LMCST (R286). Multicasts an MXINT8 activation vector into a buffer slot of a run of lanes. -/
  | lmcst (a : Reg) (b : Reg) (o : Cls)
  /-- LDOT (R287). Scores rows of a compute-region tensor against named activation vectors. -/
  | ldot (d : Reg) (a : Reg) (b : Reg) (o : Cls)
  /-- LHZC (R288). Sets Horizon defaults for following lane macros. -/
  | lhzc (a : Reg)
  /-- LRSYNC (R290). Queues a lane resynchronisation point, optionally swapping format planes. -/
  | lrsync (a : Reg)
  /-- LSAFE (R290). Queues a lane safe point that closes an interval. -/
  | lsafe
  /-- LPOLL (R291). Waits for earlier LDOTs and returns a lane report register. -/
  | lpoll (d : Reg) (a : Reg)
  /-- LCLR (R291). Waits for earlier LDOTs and clears the lane report registers. -/
  | lclr
  /-- LRTGT (R289). Sets the delivery mode for following LDOTs. -/
  | lrtgt (a : Reg)
  /-- LSTAT (R291). Returns a word of a format-table entry as the lanes hold it. -/
  | lstat (d : Reg) (a : Reg)
  /-- MACRO_BROADCAST (R273). The issue buffer broadcasts the next macro to every working lane unless stalled. -/
  | macroBroadcast (die : DieIx)
  /-- LANE_MACRO_RUN (R269). A lane dequeues a macro and runs it over its slices. -/
  | laneMacroRun (die : DieIx) (lane : Nat)
  /-- LANE_PLANE_READ (R135). A lane reads one plane of a slice and feeds the partial sum to its Horizon series. -/
  | lanePlaneRead (die : DieIx) (lane : Nat)
  /-- ROW_RESULT_DELIVERY (R241). The reduction tree delivers a row result to the scratchpad or a ring. -/
  | rowResultDelivery (die : DieIx) (m : Nat) (j : Nat)
  /-- MULTICAST_LAND (R286). An LMCST's activation bytes are held in every target lane. -/
  | multicastLand (die : DieIx) (m : Nat)
  /-- LRSYNC_DRAIN (R274). Every lane has dequeued an LRSYNC; the format planes swap if asked and broadcasting resumes. -/
  | lrsyncDrain (die : DieIx)
  /-- LSAFE_COMPLETE (R275). An LSAFE completes when all earlier deliveries performed; a pending pre-emption stops lanes. -/
  | lsafeComplete (die : DieIx)
  /-- LANE_WATCHDOG_RESET (R275). After 2 ms without an LSAFE following a pre-emption request, lagging columns are reset. -/
  | laneWatchdogReset (die : DieIx)
  /-- LANE_PARITY_REPLAY (R322). A lane parity error abandons partials and reruns the undelivered slices. -/
  | laneParityReplay (die : DieIx) (lane : Nat)
  /-- TURN (R295). Queues a direction change of a Dowel link's groups. -/
  | turn (d : Reg) (a : Reg) (b : Reg)
  /-- LNKQ (R295). Returns a link's turn state, optionally clearing FCNT. -/
  | lnkq (d : Reg) (a : Reg) (b : Reg)
  /-- TURN_START (R293). The head turn, after the 3,200-cycle spacing, stops the changing groups taking new flits. -/
  | turnStart (link : LinkIx)
  /-- TURN_EFFECT (R293). The turn takes effect when the last changing group finishes its flit. -/
  | turnEffect (link : LinkIx)
  /-- DEAD_TIME_END (R293). After 77 cycles the turned groups carry their new direction. -/
  | deadTimeEnd (link : LinkIx)
  /-- FORCED_TURN (R294). A direction held at its floor with traffic waiting 32,000 cycles forces a turn to a = 8. -/
  | forcedTurn (link : LinkIx)
  /-- GETC (R87). Reads a configuration register into gD. -/
  | getc (d : Reg) (c : BitVec 12)
  /-- SETC (R87). Writes gA to a configuration register under the access checks. -/
  | setc (c : BitVec 12) (a : Reg)
  /-- BRK (R328). Takes DBG synchronously with TVAL := k. -/
  | brk (k : BitVec 5)
  /-- RETT (R328). Returns from handler mode to TEPC. -/
  | rett
  /-- CSAVE (R334). The PRE handler writes the core's context image and goes idle. -/
  | csave (d : Reg) (a : Reg)
  /-- CREST (R335). Restores a core's context from an image in handler mode. -/
  | crest (d : Reg) (a : Reg)
  /-- CKPT (R341). Takes a die checkpoint at once and returns its number. -/
  | ckpt (d : Reg)
  /-- WSCALL (R317). Sends a service request to the die's management firmware and waits for the reply. -/
  | wscall (d : Reg) (a : Reg) (b : Reg)
  /-- IDLE (R328). Waits a number of cycles or until an async cause or a higher-level record. -/
  | idle (a : Reg)
  /-- TLBINV (R316). Drops cached translations, handle, import or world-map entries. -/
  | tlbinv (a : Reg) (b : Reg)
  /-- FADD (R80). Adds two FP32 values with one rounding. -/
  | fadd (d : Reg) (a : Reg) (b : Reg)
  /-- FSUB (R80). Subtracts two FP32 values with one rounding. -/
  | fsub (d : Reg) (a : Reg) (b : Reg)
  /-- FMUL (R80). Multiplies two FP32 values with one rounding. -/
  | fmul (d : Reg) (a : Reg) (b : Reg)
  /-- FMAC (R80). Forms a times b plus d in FP32 with one rounding. -/
  | fmac (d : Reg) (a : Reg) (b : Reg)
  /-- FDIV (R80). Divides two FP32 values with one rounding. -/
  | fdiv (d : Reg) (a : Reg) (b : Reg)
  /-- FSQRT (R80). Computes the FP32 square root with one rounding. -/
  | fsqrt (d : Reg) (a : Reg)
  /-- FCMP (R81). Sets gD to 1 when the FP32 condition in Q holds. -/
  | fcmp (cc : CmpCond) (d : Reg) (a : Reg) (b : Reg)
  /-- FCVT (R82). Converts between integer, FP32, BF16 and FP16 as Q selects. -/
  | fcvt (cv : CvtOp) (d : Reg) (a : Reg)
  /-- BUNDLE_ISSUE (R30). When all four clusters are in sync wait, their words issue together as one bundle. -/
  | bundleIssue (core : CoreIx)
  /-- SYNC_WAIT_WATCHDOG (R34). A cluster in sync wait for more than SYNCWD cycles raises WDG. -/
  | syncWaitWatchdog (cl : CluIx)
  /-- LOAD_DATA_RETURN (R323). Data of a scalar load or atomic returns, writing gD or taking a late ECU or PRM. -/
  | loadDataReturn (cl : CluIx)
  /-- ASYNC_TRAP_ENTRY (R326). A pending asynchronous cause is taken at an instruction boundary and the handler entered. -/
  | asyncTrapEntry (cl : CluIx)
  /-- PIPELINE_REPLAY (R321). A detected pipeline error replays the uncommitted word, raising MCK after two replays. -/
  | pipelineReplay (cl : CluIx)
  /-- ATOMIC_EXECUTE (R210). An atomic request is applied once at its execution point, or answered from the tag record. -/
  | atomicExecute (cl : CluIx)
  /-- ATOMIC_RESPONSE (R213). An atomic response arrives and the atomic commits in its cluster. -/
  | atomicResponse (cl : CluIx)
  /-- REDUCTION_APPLY_HOME (R212). A reduction store, merged or not, is applied at the home port. -/
  | reductionApplyHome (n : Nat)
  /-- MERGE_ENTRY_FORWARD (R212). A switch merge entry is forwarded after at most 400 cycles, or on a DOM fence flush. -/
  | mergeEntryForward (n : Nat)
  /-- PEER_ACCESS_ARRIVAL (R310). A peer-window or imported-handle access arrives at its home, is checked and applied or refused. -/
  | peerAccessArrival (n : Nat)
  /-- FLIT_CRC_RETRY (R318). A Dowel flit failing its CRC is resent by link-level retry. -/
  | flitCrcRetry (link : LinkIx)
  /-- GROUP_RETRAIN_DONE (R318). After 16 failed retries a lane group retrains and resends the flit once trained. -/
  | groupRetrainDone (link : LinkIx)
  /-- FLIT_SEND_TIMEOUT (R347). Flits waiting for a die below READY are refused after 3,200,000 cycles. -/
  | flitSendTimeout (n : Nat)
  /-- HOST_MEMORY_WRITE (R314). A host write through the memory aperture reaches the die physical map. -/
  | hostMemoryWrite (die : DieIx) (off : Nat) (bytes : List Byte)
  /-- HOST_MEMORY_READ (R314). A host read through the memory aperture returns data after earlier host writes. -/
  | hostMemoryRead (die : DieIx) (off : Nat) (len : Nat)
  /-- HOST_CONTROL_WRITE (R314). A host write to a control-aperture register acts as a non-secure handler SETC. -/
  | hostControlWrite (die : DieIx) (off : Nat) (v : Word)
  /-- NOTIFY (R254). A notify (QNUM, TAIL) from SETC or the notify aperture advances a queue's TAIL or is refused. -/
  | notify (die : DieIx) (v : Word)
  /-- QSLOT_MAP (R253). SETC of QSLOTk with MAP = 1 starts mapping a queue into a free slot. -/
  | qslotMap (die : DieIx) (k : Nat) (v : Word) (secure : Bool)
  /-- QSLOT_UNMAP (R253). SETC of QSLOTk with MAP = 0 starts unmapping the slot. -/
  | qslotUnmap (die : DieIx) (k : Nat)
  /-- QSLOT_MAPPING_DONE (R253). The slot has read its table entry and header and becomes ACTIVE or FREE. -/
  | qslotMappingDone (die : DieIx) (k : Nat)
  /-- QSLOT_UNMAP_DONE (R253). After takes in progress end, the slot writes back HEAD and TAIL and becomes FREE. -/
  | qslotUnmapDone (die : DieIx) (k : Nat)
  /-- RECORD_SELECT (R249). An idle cluster selects the next record it may run by level and round robin. -/
  | recordSelect (cl : CluIx)
  /-- RECORD_START (R247). A taken record is checked and started with its initial registers, or skipped if invalid. -/
  | recordStart (cl : CluIx)
  /-- PREEMPT (R330). PREQ OP 1 stops the core's units and saves the context image. -/
  | preempt (core : CoreIx)
  /-- CONTEXT_RESTORE (R335). PREQ OP 2 restores a context image into a quiescent core. -/
  | contextRestore (core : CoreIx)
  /-- CONTEXT_CLEAR (R330). PREQ OP 3 zeroes the scratchpad and user instruction memory and clears dirty bits. -/
  | contextClear (core : CoreIx)
  /-- PREEMPT_UNITS_STOPPED (R267). All units have reached their stop points after a pre-emption request. -/
  | preemptUnitsStopped (core : CoreIx)
  /-- DEBUG_HALT (R337). A DBGREQ HALT write makes a cluster take DBG at its next boundary. -/
  | debugHalt (cl : CluIx)
  /-- WALK_START (R304). A TLB miss begins its walk once a walker slot is free, in arrival order. -/
  | walkStart (die : DieIx)
  /-- WALK_COMPLETE (R304). A table walk ends with a translation, a trap or a replayable fault record. -/
  | walkComplete (die : DieIx) (n : Nat)
  /-- FAULT_MESSAGE (R305). While unanswered fault records remain, the fault message is raised at most once per 4,096 cycles. -/
  | faultMessage (core : CoreIx)
  /-- XFRESP_RETRY (R305). XFRESP with FAIL = 0 answers the head record and makes the engine walk again. -/
  | xfrespRetry (core : CoreIx)
  /-- XFRESP_FAIL (R305). XFRESP with FAIL = 1 stops the faulting engine with XLT. -/
  | xfrespFail (core : CoreIx)
  /-- ENGINE_FAULT_RESUME (R192). A paused engine resumes after its fault is resolved, redoing the copy whole. -/
  | engineFaultResume (core : CoreIx) (e : Nat)
  /-- REFRESH (R279). Every tREFI cycles a bank group takes its refresh slot for 160 cycles. -/
  | refresh (die : DieIx) (col : Nat) (bg : Nat)
  /-- NORMAL_BURST_GRANT (R276). A normal request waiting 1,984 cycles is granted one burst before further compute. -/
  | normalBurstGrant (die : DieIx) (col : Nat) (bg : Nat)
  /-- LEVEL_RISE (R279). A column's temperature crossing a threshold raises its level at once. -/
  | levelRise (die : DieIx) (col : Nat)
  /-- LEVEL_FALL (R279). A column 3 °C below its threshold for 1 ms falls one level. -/
  | levelFall (die : DieIx) (col : Nat)
  /-- COLUMN_MIGRATE (R282). A column reaching level 3 stops compute; firmware migrates it to a spare or sets half duty. -/
  | columnMigrate (die : DieIx) (col : Nat)
  /-- MIGRATION_SWITCH (R282). After the copy the column remap switches in one cycle and lanes resume at the spare. -/
  | migrationSwitch (die : DieIx)
  /-- SEND_DOORBELL (R301). An 8-byte write at offset 0xFFF8 of a send window asks the port to send a frame. -/
  | sendDoorbell (die : DieIx) (port : Nat) (v : Word)
  /-- FRAME_TRANSMIT (R301). The port takes a frame once earlier buffer writes performed and its previous frame is gone. -/
  | frameTransmit (die : DieIx) (port : Nat)
  /-- ETHERNET_FRAME_RECEIVE (R302). A received frame is checked, filtered and written to the receive ring or dropped. -/
  | ethernetFrameReceive (die : DieIx) (port : Nat) (frame : List Byte) (fcsOk : Bool)
  /-- RX_FRAME_COMMIT (R302). Once the frame and status writes have performed at DIE, HEAD advances and HEADM is released. -/
  | rxFrameCommit (die : DieIx) (port : Nat)
  /-- ERXCFG_WRITE (R302). SETC of ERXCFGq enables, disables or configures a receive ring. -/
  | erxcfgWrite (die : DieIx) (port : Nat) (v : Word) (secure : Bool)
  /-- ERXTAIL_RELEASE (R302). A write of ERXTAILq releases receive slots by an ahead write of TAIL. -/
  | erxtailRelease (die : DieIx) (port : Nat) (v : Word)
  /-- PATROL_SCRUB (R324). Patrol scrub reads a word of memory, correcting, poisoning or logging. -/
  | patrolScrub (die : DieIx) (kind : ScrubKind) (a : Nat)
  /-- CHECKPOINT_TIMER (R339). When periodic checkpoints are on, the interval expiry starts a checkpoint. -/
  | checkpointTimer (die : DieIx)
  /-- CHECKPOINT_COMMIT (R339). The checkpoint's slot header is written last, NUM increases and the cores resume. -/
  | checkpointCommit (die : DieIx)
  /-- CHECKPOINT_REPORT (R340). A far end reports its applied flit numbers and the sender frees its send log. -/
  | checkpointReport (link : LinkIx) (e : Nat)
  /-- POWER_ON (R347). Power-on starts the boot stages of every die. -/
  | powerOn
  /-- COLD_RESET (R347). An RSTCTL cold-reset bit resets a device and starts its boot stages. -/
  | coldReset (die : DieIx)
  /-- WARM_RESET (R342). An RSTCTL warm-reset bit resets die logic and restores the newest checkpoint. -/
  | warmReset (die : DieIx)
  /-- BOOT_RAILS_SETTLED (R347). Stage 1 ends: rails and clocks settle and ORIENT is set from straps. -/
  | bootRailsSettled (die : DieIx)
  /-- BOOT_IMAGE_VERIFIED (R349). Stage 2 ends when the firmware image is loaded and verified, or fails. -/
  | bootImageVerified (die : DieIx)
  /-- BOOT_MEMORY_READY (R347). Stage 3 ends after DRAM or hub SRAM initialisation and bus tests. -/
  | bootMemoryReady (die : DieIx)
  /-- BOOT_LINKS_TRAINED (R347). Stage 4 ends when links train at a = 8, and READY is set. -/
  | bootLinksTrained (die : DieIx)
  /-- ATTESTATION_REQUEST (R350). A host request with a nonce asks firmware for an attestation report. -/
  | attestationRequest (die : DieIx) (nonce : List Byte)
  /-- ATTESTATION_REPORT (R350). Firmware replies with a report signed by the identity key. -/
  | attestationReport (die : DieIx)
  /-- POWER_ESTIMATE (R352). Every 16,000 cycles the power manager estimates power and sets the matrix duty. -/
  | powerEstimate
  /-- TEST_ENGINE_OFFER (R346). After MINIDL × 64 idle cycles a column is offered to the vertical-bus test engine. -/
  | testEngineOffer (die : DieIx) (site : Nat)
  /-- VBTDRV_WRITE (R354). A write to VBTDRV requests one raw test beat on the selected bus. -/
  | vbtdrvWrite (die : DieIx) (v : Word)
  /-- TEST_BEAT_RESULT (R354). The test beat runs and VBTRCV receives its result, completing the SETC. -/
  | testBeatResult (die : DieIx)
  /-- VBREP_WRITE (R343). A write to VBREPk sets new repair fields for the selected site. -/
  | vbrepWrite (die : DieIx) (k : Nat) (v : Word)
  /-- VBREP_APPLY (R343). New repair fields take effect when the site's bus carries no beat. -/
  | vbrepApply (die : DieIx)
  /-- FUSE_REPAIRS (R355). Firmware service 0x20 fuses a site's current repair fields. -/
  | fuseRepairs (die : DieIx) (site : Nat)
  /-- RETIRE_BUS (R355). Firmware service 0x21 retires a site's bus, moving its column or marking a spare lost. -/
  | retireBus (die : DieIx) (site : Nat)
  /-- WSCALL_REPLY (R317). Firmware's reply arrives and completes the waiting WSCALL. -/
  | wscallReply (cl : CluIx)
  /-- DUAL_COMPARE (R338). Both copies of a DUAL record reach EXIT and their signatures are compared. -/
  | dualCompare (die : DieIx) (n : Nat)
  /-- UNALLOCATED_WORD (R27). A fetched word that is no instruction, or that has S = 1 on a stack core, raises UDI precisely and has no other effect. -/
  | unallocatedWord (cl : CluIx)
  /-- IDLE_TIMEOUT (R328). The cycle count of a waiting IDLE runs out and the next word issues. -/
  | idleTimeout (cl : CluIx)
  /-- RECORD_AGE_STEP (R249). A candidate record's level rises by one each time AGESTEP cycles pass, up to 3. -/
  | recordAgeStep (die : DieIx) (n : Nat)
  /-- HOST_ATOMIC_REQUEST (R210). A host atomic arriving over Morile is applied at the hub SRAM bank's atomics unit of a system-atomic page. -/
  | hostAtomicRequest (die : DieIx) (pa : Nat) (op : AtomOp) (w : Bool) (b : Word) (c : Word)
  /-- SEND_LOG_CHECKPOINT_REQUEST (R340). A sender whose send log is three-quarters full asks the far-end die for a checkpoint. -/
  | sendLogCheckpointRequest (link : LinkIx) (e : Nat)
  /-- MINSVN_RAISE_REQUEST (R349). A host firmware-service request raises MINSVN to the running image's SVN. -/
  | minsvnRaiseRequest (die : DieIx)
  deriving DecidableEq, Repr

/-- A decoded word: the instruction and its sync bit S (R24). -/
structure IWord where
  sync : Bool
  instr : Instr
  deriving DecidableEq, Repr

end Sys2Proof
end

