-- ==== Sys2Proof/WellFormed.lean ====
section
/-!
DEFINITION. WellFormed: which terms of `Instr` an encoding stands for (R27: a qualifier not listed, a field out of
range), which the decoder refuses.
-/

namespace Sys2Proof

namespace ElemType

/-- F32, BF16 and F16: the float types of the vector tables (spec/07, opening of "Arithmetic and functions"). -/
def isFloat : ElemType → Bool
  | .f32 | .bf16 | .f16 => true
  | _ => false

/-- The two 8-bit floats (R101). -/
def isFp8 : ElemType → Bool
  | .e4m3 | .e5m2 => true
  | _ => false

/-- S8, S16 and S32 (R107). -/
def isSigned : ElemType → Bool
  | .s8 | .s16 | .s32 => true
  | _ => false

/-- N8, N16 and N32 (R107). -/
def isUnsigned : ElemType → Bool
  | .n8 | .n16 | .n32 => true
  | _ => false

/-- S8 to N32: the integer types of the vector tables. -/
def isInt (t : ElemType) : Bool := t.isSigned || t.isUnsigned

/-- Types of VADD to VMAX (R147). -/
def isFloatOrInt (t : ElemType) : Bool := t.isFloat || t.isInt

/-- Types of VABS and VNEG (R147). -/
def isFloatOrSigned (t : ElemType) : Bool := t.isFloat || t.isSigned

/-- Types of VCVT and VCVTZ: all but BPN (R149). -/
def isConvertible (t : ElemType) : Bool := t != .bpn

/-- Types of VSUM (R150). -/
def isSummable (t : ElemType) : Bool := t.isFloat || t.isFp8 || t.isInt

/-- Types of VRMAX and VDOT (R150). -/
def isReducible (t : ElemType) : Bool := t.isFloat || t.isFp8 || t == .s32 || t == .n32

/-- Types of the compares (R151). -/
def isComparable (t : ElemType) : Bool := t.isFloat || t.isFp8 || t.isInt

/-- Every type but MXI8 and BPN (R151, R152). -/
def isBitwise (t : ElemType) : Bool := t != .mxi8 && t != .bpn

end ElemType

namespace Instr

/-- A vector command with A or B equal to zero raises UDI (R146). -/
def vecRegs (a b : Reg) : Bool := a != 0 && b != 0

/-- k from 96 to 127 raises UDI (R95). -/
def barrierOk (k : BitVec 7) : Bool := decide (k.toNat < 96)

open ElemType in
/-- The instruction words that some encoding stands for; an event names only agents that exist, by its types. -/
def wf : Instr → Bool
  | .add _ _ _ => true
  | .sub _ _ _ => true
  | .and _ _ _ => true
  | .or _ _ _ => true
  | .xor _ _ _ => true
  | .andn _ _ _ => true
  | .min _ _ _ => true
  | .max _ _ _ => true
  | .minn _ _ _ => true
  | .maxn _ _ _ => true
  | .addw _ _ _ => true
  | .subw _ _ _ => true
  | .shl _ _ _ => true
  | .shr _ _ _ => true
  | .sha _ _ _ => true
  | .rol _ _ _ => true
  | .clz _ _ => true
  | .ctz _ _ => true
  | .popc _ _ => true
  | .mul _ _ _ => true
  | .mulh _ _ _ => true
  | .mulhn _ _ _ => true
  | .div _ _ _ => true
  | .divn _ _ _ => true
  | .rem _ _ _ => true
  | .remn _ _ _ => true
  | .seq _ _ _ => true
  | .sne _ _ _ => true
  | .slt _ _ _ => true
  | .sltn _ _ _ => true
  | .sle _ _ _ => true
  | .slen _ _ _ => true
  | .addi _ _ _ => true
  | .ori _ _ _ => true
  | .xori _ _ _ => true
  | .slti _ _ _ => true
  | .movz _ _ _ => true
  | .movk _ _ _ => true
  | .movn _ _ _ => true
  | .addpc _ _ => true
  | .shadd1 _ _ _ => true
  | .shadd2 _ _ _ => true
  | .shadd3 _ _ _ => true
  | .shadd4 _ _ _ => true
  | .j _ => true
  | .call _ => true
  | .beqz _ _ => true
  | .bnez _ _ => true
  | .bltz _ _ => true
  | .bgez _ _ => true
  | .bgtz _ _ => true
  | .blez _ _ => true
  | .jr _ => true
  | .callr _ _ => true
  | .loops _ _ => true
  | .loopx => true
  | .ld _ _ _ _ => true
  | .ldS32 _ _ _ _ => true
  | .st _ _ _ _ => true
  | .stN32 _ _ _ _ => true
  | .ldS8 _ _ _ _ => true
  | .ldN8 _ _ _ _ => true
  | .ldS16 _ _ _ _ => true
  | .ldN16 _ _ _ _ => true
  | .ldN32 _ _ _ _ => true
  | .ldx _ _ _ _ => true
  | .stN8 _ _ _ _ => true
  | .stN16 _ _ _ _ => true
  | .stx _ _ _ _ => true
  | .ldAcq _ _ _ => true
  | .stRel _ _ _ => true
  | .aadd _ _ _ _ _ _ => true
  | .aand _ _ _ _ _ _ => true
  | .aor _ _ _ _ _ _ => true
  | .axor _ _ _ _ _ _ => true
  | .amin _ _ _ _ _ _ => true
  | .amax _ _ _ _ _ _ => true
  | .aswp _ _ _ _ _ _ => true
  | .acas _ _ _ _ _ _ => true
  | .vaadd _ _ _ _ _ _ => true
  | .vamin _ _ _ _ _ _ => true
  | .vamax _ _ _ _ _ _ => true
  | .redadd _ _ _ _ => true
  | .redmin _ _ _ _ => true
  | .redmax _ _ _ _ => true
  | .fence _ _ _ => true
  | .fenceComplete _ _ => true
  | .bjoin k _ => barrierOk k
  | .bleave k _ => barrierOk k
  | .barv _ k _ => barrierOk k
  | .bara _ k _ => barrierOk k
  | .bwait k _ _ => barrierOk k
  | .rclaim _ _ => true
  | .rclaimt _ _ => true
  | .rfill _ _ => true
  | .rawait _ _ _ => true
  | .rawaitt _ _ _ => true
  | .rrel _ _ => true
  | .rcfg _ _ => true
  | .rstat _ _ => true
  | .spawn _ _ _ _ => true
  | .jdec _ _ _ => true
  | .exit _ => true
  | .yield a _ => a != 0
  | .crec _ k => decide (k.toNat < 4)
  | .jset _ _ _ _ => true
  | .vadd _ _ a b t => vecRegs a b && isFloatOrInt t
  | .vsub _ _ a b t => vecRegs a b && isFloatOrInt t
  | .vmul _ _ a b t => vecRegs a b && isFloatOrInt t
  | .vmac _ _ a b t => vecRegs a b && isFloatOrInt t
  | .vmin _ _ a b t => vecRegs a b && isFloatOrInt t
  | .vmax _ _ a b t => vecRegs a b && isFloatOrInt t
  | .vabs _ a b t => vecRegs a b && isFloatOrSigned t
  | .vneg _ a b t => vecRegs a b && isFloatOrSigned t
  | .vscale _ a b t => vecRegs a b && isFloat t
  | .vexp _ a b t => vecRegs a b && isFloat t
  | .vlog _ a b t => vecRegs a b && isFloat t
  | .vrcp _ a b t => vecRegs a b && isFloat t
  | .vrsqrt _ a b t => vecRegs a b && isFloat t
  | .vtanh _ a b t => vecRegs a b && isFloat t
  | .vsigm _ a b t => vecRegs a b && isFloat t
  | .vcvt _ a b t => vecRegs a b && isConvertible t
  | .vcvtz _ a b t => vecRegs a b && isConvertible t
  | .vsum _ a b t => vecRegs a b && isSummable t
  | .vrmax _ a b t => vecRegs a b && isReducible t
  | .vdot _ a b t => vecRegs a b && isReducible t
  | .vcmpeq _ _ a b t => vecRegs a b && isComparable t
  | .vcmplt _ _ a b t => vecRegs a b && isComparable t
  | .vcmple _ _ a b t => vecRegs a b && isComparable t
  | .vsel _ _ a b t => vecRegs a b && isBitwise t
  | .vand _ _ a b t => vecRegs a b && isBitwise t
  | .vor _ _ a b t => vecRegs a b && isBitwise t
  | .vxor _ _ a b t => vecRegs a b && isBitwise t
  | .vshl _ _ a b t => vecRegs a b && isInt t
  | .vshr _ _ a b t => vecRegs a b && isInt t
  | .vcopy _ a b t => vecRegs a b && isBitwise t
  | .vfill _ _ a b t => vecRegs a b && isBitwise t
  | .vpred _ a b t => vecRegs a b && isBitwise t
  | .vfence _ => true
  | .vbusy _ => true
  | .vectorCommandStart _ _ => true
  | .vectorCommandComplete _ _ => true
  | .hzcfg _ _ _ _ => true
  | .hzpsh _ _ _ => true
  | .hzpshR _ _ => true
  | .hzest _ _ => true
  | .hzrd _ _ _ => true
  | .hzclr _ => true
  | .horizonCheckpoint _ _ => true
  | .mxcfg _ _ => true
  | .mxgo _ => true
  | .mxwait => true
  | .mxstat _ => true
  | .mxidx _ _ => true
  | .sqp _ => true
  | .sqld _ _ _ => true
  | .mxdrain _ _ _ => true
  | .mxfrz => true
  | .mxthaw => true
  | .mxprog _ => true
  | .mxclr => true
  | .nestStart _ => true
  | .matrixChunk _ => true
  | .sqldEntryPush _ => true
  | .nestComplete _ => true
  | .tileTransferLock _ _ => true
  | .tileTransferRelease _ _ => true
  | .cpy _ _ _ _ => true
  | .cpyp _ _ _ => true
  | .cpinv _ _ => true
  | .cpquie _ _ => true
  | .cpwait _ => true
  | .cpstat _ _ => true
  | .cpprog _ _ => true
  | .cpnest _ _ _ => true
  | .cpsat _ _ _ => true
  | .cpsel _ _ => true
  | .blockFetch _ _ => true
  | .cpinvEffect _ _ => true
  | .cpnestEffect _ _ => true
  | .ringUnitClaim _ _ => true
  | .innermostCopy _ _ => true
  | .ringUnitFill _ _ => true
  | .copyCommandComplete _ _ => true
  | .narrowWindowBoundary _ _ => true
  | .lfmt _ _ _ => true
  | .lmcst _ _ _ => true
  | .ldot _ _ _ _ => true
  | .lhzc _ => true
  | .lrsync _ => true
  | .lsafe => true
  | .lpoll _ _ => true
  | .lclr => true
  | .lrtgt _ => true
  | .lstat _ _ => true
  | .macroBroadcast _ => true
  | .laneMacroRun _ _ => true
  | .lanePlaneRead _ _ => true
  | .rowResultDelivery _ _ _ => true
  | .multicastLand _ _ => true
  | .lrsyncDrain _ => true
  | .lsafeComplete _ => true
  | .laneWatchdogReset _ => true
  | .laneParityReplay _ _ => true
  | .turn _ _ _ => true
  | .lnkq _ _ _ => true
  | .turnStart _ => true
  | .turnEffect _ => true
  | .deadTimeEnd _ => true
  | .forcedTurn _ => true
  | .getc _ _ => true
  | .setc _ _ => true
  | .brk _ => true
  | .rett => true
  | .csave _ _ => true
  | .crest _ _ => true
  | .ckpt _ => true
  | .wscall _ _ _ => true
  | .idle _ => true
  | .tlbinv _ _ => true
  | .fadd _ _ _ => true
  | .fsub _ _ _ => true
  | .fmul _ _ _ => true
  | .fmac _ _ _ => true
  | .fdiv _ _ _ => true
  | .fsqrt _ _ => true
  | .fcmp _ _ _ _ => true
  | .fcvt _ _ _ => true
  | .bundleIssue _ => true
  | .syncWaitWatchdog _ => true
  | .loadDataReturn _ => true
  | .asyncTrapEntry _ => true
  | .pipelineReplay _ => true
  | .atomicExecute _ => true
  | .atomicResponse _ => true
  | .reductionApplyHome _ => true
  | .mergeEntryForward _ => true
  | .peerAccessArrival _ => true
  | .flitCrcRetry _ => true
  | .groupRetrainDone _ => true
  | .flitSendTimeout _ => true
  | .hostMemoryWrite _ _ _ => true
  | .hostMemoryRead _ _ _ => true
  | .hostControlWrite _ _ _ => true
  | .notify _ _ => true
  | .qslotMap _ _ _ _ => true
  | .qslotUnmap _ _ => true
  | .qslotMappingDone _ _ => true
  | .qslotUnmapDone _ _ => true
  | .recordSelect _ => true
  | .recordStart _ => true
  | .preempt _ => true
  | .contextRestore _ => true
  | .contextClear _ => true
  | .preemptUnitsStopped _ => true
  | .debugHalt _ => true
  | .walkStart _ => true
  | .walkComplete _ _ => true
  | .faultMessage _ => true
  | .xfrespRetry _ => true
  | .xfrespFail _ => true
  | .engineFaultResume _ _ => true
  | .refresh _ _ _ => true
  | .normalBurstGrant _ _ _ => true
  | .levelRise _ _ => true
  | .levelFall _ _ => true
  | .columnMigrate _ _ => true
  | .migrationSwitch _ => true
  | .sendDoorbell _ _ _ => true
  | .frameTransmit _ _ => true
  | .ethernetFrameReceive _ _ _ _ => true
  | .rxFrameCommit _ _ => true
  | .erxcfgWrite _ _ _ _ => true
  | .erxtailRelease _ _ _ => true
  | .patrolScrub _ _ _ => true
  | .checkpointTimer _ => true
  | .checkpointCommit _ => true
  | .checkpointReport _ _ => true
  | .powerOn => true
  | .coldReset _ => true
  | .warmReset _ => true
  | .bootRailsSettled _ => true
  | .bootImageVerified _ => true
  | .bootMemoryReady _ => true
  | .bootLinksTrained _ => true
  | .attestationRequest _ _ => true
  | .attestationReport _ => true
  | .powerEstimate => true
  | .testEngineOffer _ _ => true
  | .vbtdrvWrite _ _ => true
  | .testBeatResult _ => true
  | .vbrepWrite _ _ _ => true
  | .vbrepApply _ => true
  | .fuseRepairs _ _ => true
  | .retireBus _ _ => true
  | .wscallReply _ => true
  | .dualCompare _ _ => true
  | .unallocatedWord _ => true
  | .idleTimeout _ => true
  | .recordAgeStep _ _ => true
  | .hostAtomicRequest _ _ _ _ _ _ => true
  | .sendLogCheckpointRequest _ _ => true
  | .minsvnRaiseRequest _ => true

/-- True of the 197 instruction words, false of the events. -/
def isWord : Instr → Bool
  | .add .. => true
  | .sub .. => true
  | .and .. => true
  | .or .. => true
  | .xor .. => true
  | .andn .. => true
  | .min .. => true
  | .max .. => true
  | .minn .. => true
  | .maxn .. => true
  | .addw .. => true
  | .subw .. => true
  | .shl .. => true
  | .shr .. => true
  | .sha .. => true
  | .rol .. => true
  | .clz .. => true
  | .ctz .. => true
  | .popc .. => true
  | .mul .. => true
  | .mulh .. => true
  | .mulhn .. => true
  | .div .. => true
  | .divn .. => true
  | .rem .. => true
  | .remn .. => true
  | .seq .. => true
  | .sne .. => true
  | .slt .. => true
  | .sltn .. => true
  | .sle .. => true
  | .slen .. => true
  | .addi .. => true
  | .ori .. => true
  | .xori .. => true
  | .slti .. => true
  | .movz .. => true
  | .movk .. => true
  | .movn .. => true
  | .addpc .. => true
  | .shadd1 .. => true
  | .shadd2 .. => true
  | .shadd3 .. => true
  | .shadd4 .. => true
  | .j .. => true
  | .call .. => true
  | .beqz .. => true
  | .bnez .. => true
  | .bltz .. => true
  | .bgez .. => true
  | .bgtz .. => true
  | .blez .. => true
  | .jr .. => true
  | .callr .. => true
  | .loops .. => true
  | .loopx => true
  | .ld .. => true
  | .ldS32 .. => true
  | .st .. => true
  | .stN32 .. => true
  | .ldS8 .. => true
  | .ldN8 .. => true
  | .ldS16 .. => true
  | .ldN16 .. => true
  | .ldN32 .. => true
  | .ldx .. => true
  | .stN8 .. => true
  | .stN16 .. => true
  | .stx .. => true
  | .ldAcq .. => true
  | .stRel .. => true
  | .aadd .. => true
  | .aand .. => true
  | .aor .. => true
  | .axor .. => true
  | .amin .. => true
  | .amax .. => true
  | .aswp .. => true
  | .acas .. => true
  | .vaadd .. => true
  | .vamin .. => true
  | .vamax .. => true
  | .redadd .. => true
  | .redmin .. => true
  | .redmax .. => true
  | .fence .. => true
  | .fenceComplete .. => false
  | .bjoin .. => true
  | .bleave .. => true
  | .barv .. => true
  | .bara .. => true
  | .bwait .. => true
  | .rclaim .. => true
  | .rclaimt .. => true
  | .rfill .. => true
  | .rawait .. => true
  | .rawaitt .. => true
  | .rrel .. => true
  | .rcfg .. => true
  | .rstat .. => true
  | .spawn .. => true
  | .jdec .. => true
  | .exit .. => true
  | .yield .. => true
  | .crec .. => true
  | .jset .. => true
  | .vadd .. => true
  | .vsub .. => true
  | .vmul .. => true
  | .vmac .. => true
  | .vmin .. => true
  | .vmax .. => true
  | .vabs .. => true
  | .vneg .. => true
  | .vscale .. => true
  | .vexp .. => true
  | .vlog .. => true
  | .vrcp .. => true
  | .vrsqrt .. => true
  | .vtanh .. => true
  | .vsigm .. => true
  | .vcvt .. => true
  | .vcvtz .. => true
  | .vsum .. => true
  | .vrmax .. => true
  | .vdot .. => true
  | .vcmpeq .. => true
  | .vcmplt .. => true
  | .vcmple .. => true
  | .vsel .. => true
  | .vand .. => true
  | .vor .. => true
  | .vxor .. => true
  | .vshl .. => true
  | .vshr .. => true
  | .vcopy .. => true
  | .vfill .. => true
  | .vpred .. => true
  | .vfence .. => true
  | .vbusy .. => true
  | .vectorCommandStart .. => false
  | .vectorCommandComplete .. => false
  | .hzcfg .. => true
  | .hzpsh .. => true
  | .hzpshR .. => true
  | .hzest .. => true
  | .hzrd .. => true
  | .hzclr .. => true
  | .horizonCheckpoint .. => false
  | .mxcfg .. => true
  | .mxgo .. => true
  | .mxwait => true
  | .mxstat .. => true
  | .mxidx .. => true
  | .sqp .. => true
  | .sqld .. => true
  | .mxdrain .. => true
  | .mxfrz => true
  | .mxthaw => true
  | .mxprog .. => true
  | .mxclr => true
  | .nestStart .. => false
  | .matrixChunk .. => false
  | .sqldEntryPush .. => false
  | .nestComplete .. => false
  | .tileTransferLock .. => false
  | .tileTransferRelease .. => false
  | .cpy .. => true
  | .cpyp .. => true
  | .cpinv .. => true
  | .cpquie .. => true
  | .cpwait .. => true
  | .cpstat .. => true
  | .cpprog .. => true
  | .cpnest .. => true
  | .cpsat .. => true
  | .cpsel .. => true
  | .blockFetch .. => false
  | .cpinvEffect .. => false
  | .cpnestEffect .. => false
  | .ringUnitClaim .. => false
  | .innermostCopy .. => false
  | .ringUnitFill .. => false
  | .copyCommandComplete .. => false
  | .narrowWindowBoundary .. => false
  | .lfmt .. => true
  | .lmcst .. => true
  | .ldot .. => true
  | .lhzc .. => true
  | .lrsync .. => true
  | .lsafe => true
  | .lpoll .. => true
  | .lclr => true
  | .lrtgt .. => true
  | .lstat .. => true
  | .macroBroadcast .. => false
  | .laneMacroRun .. => false
  | .lanePlaneRead .. => false
  | .rowResultDelivery .. => false
  | .multicastLand .. => false
  | .lrsyncDrain .. => false
  | .lsafeComplete .. => false
  | .laneWatchdogReset .. => false
  | .laneParityReplay .. => false
  | .turn .. => true
  | .lnkq .. => true
  | .turnStart .. => false
  | .turnEffect .. => false
  | .deadTimeEnd .. => false
  | .forcedTurn .. => false
  | .getc .. => true
  | .setc .. => true
  | .brk .. => true
  | .rett => true
  | .csave .. => true
  | .crest .. => true
  | .ckpt .. => true
  | .wscall .. => true
  | .idle .. => true
  | .tlbinv .. => true
  | .fadd .. => true
  | .fsub .. => true
  | .fmul .. => true
  | .fmac .. => true
  | .fdiv .. => true
  | .fsqrt .. => true
  | .fcmp .. => true
  | .fcvt .. => true
  | .bundleIssue .. => false
  | .syncWaitWatchdog .. => false
  | .loadDataReturn .. => false
  | .asyncTrapEntry .. => false
  | .pipelineReplay .. => false
  | .atomicExecute .. => false
  | .atomicResponse .. => false
  | .reductionApplyHome .. => false
  | .mergeEntryForward .. => false
  | .peerAccessArrival .. => false
  | .flitCrcRetry .. => false
  | .groupRetrainDone .. => false
  | .flitSendTimeout .. => false
  | .hostMemoryWrite .. => false
  | .hostMemoryRead .. => false
  | .hostControlWrite .. => false
  | .notify .. => false
  | .qslotMap .. => false
  | .qslotUnmap .. => false
  | .qslotMappingDone .. => false
  | .qslotUnmapDone .. => false
  | .recordSelect .. => false
  | .recordStart .. => false
  | .preempt .. => false
  | .contextRestore .. => false
  | .contextClear .. => false
  | .preemptUnitsStopped .. => false
  | .debugHalt .. => false
  | .walkStart .. => false
  | .walkComplete .. => false
  | .faultMessage .. => false
  | .xfrespRetry .. => false
  | .xfrespFail .. => false
  | .engineFaultResume .. => false
  | .refresh .. => false
  | .normalBurstGrant .. => false
  | .levelRise .. => false
  | .levelFall .. => false
  | .columnMigrate .. => false
  | .migrationSwitch .. => false
  | .sendDoorbell .. => false
  | .frameTransmit .. => false
  | .ethernetFrameReceive .. => false
  | .rxFrameCommit .. => false
  | .erxcfgWrite .. => false
  | .erxtailRelease .. => false
  | .patrolScrub .. => false
  | .checkpointTimer .. => false
  | .checkpointCommit .. => false
  | .checkpointReport .. => false
  | .powerOn => false
  | .coldReset .. => false
  | .warmReset .. => false
  | .bootRailsSettled .. => false
  | .bootImageVerified .. => false
  | .bootMemoryReady .. => false
  | .bootLinksTrained .. => false
  | .attestationRequest .. => false
  | .attestationReport .. => false
  | .powerEstimate => false
  | .testEngineOffer .. => false
  | .vbtdrvWrite .. => false
  | .testBeatResult .. => false
  | .vbrepWrite .. => false
  | .vbrepApply .. => false
  | .fuseRepairs .. => false
  | .retireBus .. => false
  | .wscallReply .. => false
  | .dualCompare .. => false
  | .unallocatedWord .. => false
  | .idleTimeout .. => false
  | .recordAgeStep .. => false
  | .hostAtomicRequest .. => false
  | .sendLogCheckpointRequest .. => false
  | .minsvnRaiseRequest .. => false

end Instr

end Sys2Proof
end

