-- ==== Sys2Proof/Decode.lean ====
section
/-!
DEFINITION. Decode: from instruction words to `Instr` and back, from the tables of spec/02_encoding.md (R24, R25, R47 to
R50) and of each group's chapter.  `decode` is total; a word that R27 makes illegal decodes to nothing.  `encode` is
written from the same tables.
-/

namespace Sys2Proof

/-! ### Field codes (R48, R49, R50) -/

/-- Codes of SEM (R48). -/
def Sem.toBits : Sem → BitVec 2
  | .plain => 0 | .acq => 1 | .rel => 2 | .acqRel => 3

/-- SEM from its code (R48). -/
def Sem.ofBits (b : BitVec 2) : Sem :=
  match b.toNat with
  | 0 => .plain | 1 => .acq | 2 => .rel | _ => .acqRel

/-- Codes of VT (R48). -/
def AtomType.toBits : AtomType → BitVec 2
  | .s32 => 0 | .n32 => 1 | .f32 => 2 | .bf16 => 3

/-- VT from its code (R48). -/
def AtomType.ofBits (b : BitVec 2) : AtomType :=
  match b.toNat with
  | 0 => .s32 | 1 => .n32 | 2 => .f32 | _ => .bf16

/-- Codes of the fence scopes (R49). -/
def Scope.toBits : Scope → BitVec 3
  | .core => 0 | .die => 1 | .pkg => 2 | .dom => 3 | .sys => 4

/-- The scope of a fence; 5 to 7 raise UDI (R49). -/
def Scope.ofBits (b : BitVec 3) : Option Scope :=
  match b.toNat with
  | 0 => some .core | 1 => some .die | 2 => some .pkg | 3 => some .dom | 4 => some .sys | _ => none

/-- Q codes of the element types (R50, R101). -/
def ElemType.toBits : ElemType → BitVec 4
  | .f32 => 0x0 | .bf16 => 0x1 | .f16 => 0x2 | .e4m3 => 0x3 | .e5m2 => 0x4 | .s8 => 0x5 | .s16 => 0x6 | .s32 => 0x7
  | .n8 => 0x8 | .n16 => 0x9 | .n32 => 0xA | .mxi8 => 0xB | .bpn => 0xC

/-- The element type of a Q code; 0xD to 0xF are unallocated (R50). -/
def ElemType.ofBits (b : BitVec 4) : Option ElemType :=
  match b.toNat with
  | 0x0 => some .f32 | 0x1 => some .bf16 | 0x2 => some .f16 | 0x3 => some .e4m3 | 0x4 => some .e5m2
  | 0x5 => some .s8 | 0x6 => some .s16 | 0x7 => some .s32 | 0x8 => some .n8 | 0x9 => some .n16
  | 0xA => some .n32 | 0xB => some .mxi8 | 0xC => some .bpn | _ => none

/-- Q codes of FCMP (R50, R81). -/
def CmpCond.toBits : CmpCond → BitVec 4
  | .eq => 0 | .lt => 1 | .le => 2 | .un => 3

/-- The condition of FCMP; Q 4 to 15 raise UDI (R81). -/
def CmpCond.ofBits (b : BitVec 4) : Option CmpCond :=
  match b.toNat with
  | 0 => some .eq | 1 => some .lt | 2 => some .le | 3 => some .un | _ => none

/-- Codes 0 to 7 of the conversions (R50). -/
def CvtKind.toBits : CvtKind → BitVec 3
  | .s64F => 0 | .n64F => 1 | .f32S => 2 | .f32N => 3 | .f32B => 4 | .f32H => 5 | .bF32 => 6 | .hF32 => 7

/-- A conversion from its code (R50). -/
def CvtKind.ofBits (b : BitVec 3) : CvtKind :=
  match b.toNat with
  | 0 => .s64F | 1 => .n64F | 2 => .f32S | 3 => .f32N | 4 => .f32B | 5 => .f32H | 6 => .bF32 | _ => .hF32

/-- Codes 8 to 15 are the conversions 0 to 7 rounding toward zero (R50). -/
def CvtOp.toBits (c : CvtOp) : BitVec 4 := BitVec.ofBool c.toZero ++ c.kind.toBits

/-- The conversion of a Q code (R50). -/
def CvtOp.ofBits (b : BitVec 4) : CvtOp := ⟨CvtKind.ofBits (b.extractLsb' 0 3), b.getLsbD 3⟩

/-! ### The five formats (R24) -/

/-- The fields of a word below S: MAJ, D, A, B and F, the layout of format R. -/
structure Fields where
  maj : BitVec 6
  d : BitVec 5
  a : BitVec 5
  b : BitVec 5
  f : BitVec 10
  deriving DecidableEq, Repr

/-- A word from its sync bit and fields. -/
def Fields.pack (s : Bool) (x : Fields) : W32 := BitVec.ofBool s ++ x.maj ++ x.d ++ x.a ++ x.b ++ x.f

/-- The fields of a word. -/
def Fields.ofWord (w : W32) : Fields :=
  ⟨w.extractLsb' 25 6, w.extractLsb' 20 5, w.extractLsb' 15 5, w.extractLsb' 10 5, w.extractLsb' 0 10⟩

/-- OP6, F[9:4] (R46). -/
def Fields.op (x : Fields) : Nat := (x.f.extractLsb' 4 6).toNat
/-- Q, F[3:0] (R46). -/
def Fields.q (x : Fields) : BitVec 4 := x.f.extractLsb' 0 4
/-- IMM15 of format I. -/
def Fields.imm15 (x : Fields) : BitVec 15 := x.b ++ x.f
/-- F4 of format H. -/
def Fields.f4 (x : Fields) : BitVec 4 := x.a.extractLsb' 1 4
/-- IMM16 of format H. -/
def Fields.imm16 (x : Fields) : BitVec 16 := x.a.extractLsb' 0 1 ++ x.b ++ x.f
/-- OFF25 of format J. -/
def Fields.off25 (x : Fields) : BitVec 25 := x.d ++ x.a ++ x.b ++ x.f
/-- O of format M. -/
def Fields.o (x : Fields) : BitVec 4 := x.b.extractLsb' 1 4
/-- IMM11 of format M. -/
def Fields.imm11 (x : Fields) : BitVec 11 := x.b.extractLsb' 0 1 ++ x.f

/-- F of an R-format word from OP6 and Q. -/
def opq (op : BitVec 6) (q : BitVec 4) : BitVec 10 := op ++ q
/-- The B part of IMM15. -/
def immB (i : BitVec 15) : BitVec 5 := i.extractLsb' 10 5
/-- The F part of IMM15. -/
def immF (i : BitVec 15) : BitVec 10 := i.extractLsb' 0 10
/-- The A part of F4 and IMM16. -/
def f4A (f4 : BitVec 4) (i : BitVec 16) : BitVec 5 := f4 ++ i.extractLsb' 15 1
/-- The B part of IMM16. -/
def half16B (i : BitVec 16) : BitVec 5 := i.extractLsb' 10 5
/-- The F part of IMM16. -/
def half16F (i : BitVec 16) : BitVec 10 := i.extractLsb' 0 10
/-- The D part of OFF25. -/
def offD (i : BitVec 25) : BitVec 5 := i.extractLsb' 20 5
/-- The A part of OFF25. -/
def offA (i : BitVec 25) : BitVec 5 := i.extractLsb' 15 5
/-- The B part of OFF25. -/
def offB (i : BitVec 25) : BitVec 5 := i.extractLsb' 10 5
/-- The F part of OFF25. -/
def offF (i : BitVec 25) : BitVec 10 := i.extractLsb' 0 10
/-- The B part of O and IMM11. -/
def memB (o : BitVec 4) (i : BitVec 11) : BitVec 5 := o ++ i.extractLsb' 10 1
/-- The F part of IMM11. -/
def memF (i : BitVec 11) : BitVec 10 := i.extractLsb' 0 10
/-- The B part of a configuration register address; IMM15[14:12] is zero (R25). -/
def cregB (c : BitVec 12) : BitVec 5 := 0#3 ++ c.extractLsb' 10 2
/-- The F part of a configuration register address. -/
def cregF (c : BitVec 12) : BitVec 10 := c.extractLsb' 0 10

/-! ### Decoding, one function per group of major opcodes (R47) -/

/-- Keep a decoding only where the fields an instruction does not use are zero (R27). -/
def only (p : Bool) (i : Instr) : Option Instr := if p then some i else none

/-- Majors 0x01 to 0x04 and 0x0A: integer arithmetic (R66, R67, R71). -/
def decInt (maj op : Nat) (d a b : Reg) : Option Instr :=
  match maj, op with
  | 0x01, 0x00 => some (.add d a b)
  | 0x01, 0x01 => some (.sub d a b)
  | 0x01, 0x02 => some (.and d a b)
  | 0x01, 0x03 => some (.or d a b)
  | 0x01, 0x04 => some (.xor d a b)
  | 0x01, 0x05 => some (.andn d a b)
  | 0x01, 0x06 => some (.min d a b)
  | 0x01, 0x07 => some (.max d a b)
  | 0x01, 0x08 => some (.minn d a b)
  | 0x01, 0x09 => some (.maxn d a b)
  | 0x01, 0x0A => some (.addw d a b)
  | 0x01, 0x0B => some (.subw d a b)
  | 0x02, 0x00 => some (.shl d a b)
  | 0x02, 0x01 => some (.shr d a b)
  | 0x02, 0x02 => some (.sha d a b)
  | 0x02, 0x03 => some (.rol d a b)
  | 0x02, 0x04 => only (b == 0) (.clz d a)
  | 0x02, 0x05 => only (b == 0) (.ctz d a)
  | 0x02, 0x06 => only (b == 0) (.popc d a)
  | 0x03, 0x00 => some (.mul d a b)
  | 0x03, 0x01 => some (.mulh d a b)
  | 0x03, 0x02 => some (.mulhn d a b)
  | 0x03, 0x03 => some (.div d a b)
  | 0x03, 0x04 => some (.divn d a b)
  | 0x03, 0x05 => some (.rem d a b)
  | 0x03, 0x06 => some (.remn d a b)
  | 0x04, 0x00 => some (.seq d a b)
  | 0x04, 0x01 => some (.sne d a b)
  | 0x04, 0x02 => some (.slt d a b)
  | 0x04, 0x03 => some (.sltn d a b)
  | 0x04, 0x04 => some (.sle d a b)
  | 0x04, 0x05 => some (.slen d a b)
  | 0x0A, 0x00 => some (.shadd1 d a b)
  | 0x0A, 0x01 => some (.shadd2 d a b)
  | 0x0A, 0x02 => some (.shadd3 d a b)
  | 0x0A, 0x03 => some (.shadd4 d a b)
  | _, _ => none

/-- Major 0x08: KIND in F4[3:2], the quarter in F4[1:0] (R69). -/
def decMov (x : Fields) : Option Instr :=
  let q := x.f4.extractLsb' 0 2
  match (x.f4.extractLsb' 2 2).toNat with
  | 0 => some (.movz x.d x.imm16 q)
  | 1 => some (.movk x.d x.imm16 q)
  | 2 => some (.movn x.d x.imm16 q)
  | _ => none

/-- Major 0x0E: the conditional branches (R73). -/
def decBranch (x : Fields) : Option Instr :=
  match x.f4.toNat with
  | 0 => some (.beqz x.d x.imm16)
  | 1 => some (.bnez x.d x.imm16)
  | 2 => some (.bltz x.d x.imm16)
  | 3 => some (.bgez x.d x.imm16)
  | 4 => some (.bgtz x.d x.imm16)
  | 5 => some (.blez x.d x.imm16)
  | _ => none

/-- Major 0x0F: register jumps and hardware loops (R74, R76, R78). -/
def decJump (op : Nat) (d a b : Reg) : Option Instr :=
  match op with
  | 0x00 => only (d == 0 && b == 0) (.jr a)
  | 0x01 => only (b == 0) (.callr d a)
  | 0x02 => only (d == 0) (.loops a b)
  | 0x03 => only (d == 0 && a == 0 && b == 0) .loopx
  | _ => none

/-- Majors 0x14 and 0x15: register-indexed loads and stores (R83). -/
def decMem (maj op : Nat) (d a b : Reg) (o : Cls) : Option Instr :=
  match maj, op with
  | 0x14, 0x00 => some (.ldS8 d a b o)
  | 0x14, 0x01 => some (.ldN8 d a b o)
  | 0x14, 0x02 => some (.ldS16 d a b o)
  | 0x14, 0x03 => some (.ldN16 d a b o)
  | 0x14, 0x04 => some (.ldN32 d a b o)
  | 0x14, 0x05 => some (.ldx d a b o)
  | 0x15, 0x00 => some (.stN8 d a b o)
  | 0x15, 0x01 => some (.stN16 d a b o)
  | 0x15, 0x02 => some (.stx d a b o)
  | 0x15, 0x03 => only (b == 0) (.ldAcq d a o)
  | 0x15, 0x04 => only (b == 0) (.stRel d a o)
  | _, _ => none

/-- Major 0x16: scalar atomics (R48, R203). -/
def decAtom (x : Fields) : Option Instr :=
  let sem := Sem.ofBits (x.f.extractLsb' 8 2)
  let w := x.f.getLsbD 7
  match (x.f.extractLsb' 4 3).toNat with
  | 0 => some (.aadd x.d x.a x.b sem w x.q)
  | 1 => some (.aand x.d x.a x.b sem w x.q)
  | 2 => some (.aor x.d x.a x.b sem w x.q)
  | 3 => some (.axor x.d x.a x.b sem w x.q)
  | 4 => some (.amin x.d x.a x.b sem w x.q)
  | 5 => some (.amax x.d x.a x.b sem w x.q)
  | 6 => some (.aswp x.d x.a x.b sem w x.q)
  | _ => some (.acas x.d x.a x.b sem w x.q)

/-- Major 0x17: vector atomics (R48, R203). -/
def decVatom (x : Fields) : Option Instr :=
  let sem := Sem.ofBits (x.f.extractLsb' 8 2)
  let t := AtomType.ofBits (x.f.extractLsb' 4 2)
  match (x.f.extractLsb' 6 2).toNat with
  | 0 => some (.vaadd x.d x.a x.b sem t x.q)
  | 1 => some (.vamin x.d x.a x.b sem t x.q)
  | 2 => some (.vamax x.d x.a x.b sem t x.q)
  | _ => none

/-- Major 0x18: reduction stores; bits 9:8 and D are reserved (R48, R203). -/
def decRed (x : Fields) : Option Instr :=
  let ok := x.d == 0 && x.f.extractLsb' 8 2 == 0
  let t := AtomType.ofBits (x.f.extractLsb' 4 2)
  match (x.f.extractLsb' 6 2).toNat with
  | 0 => only ok (.redadd x.a x.b t x.q)
  | 1 => only ok (.redmin x.a x.b t x.q)
  | 2 => only ok (.redmax x.a x.b t x.q)
  | _ => none

/-- Major 0x1A: FENCE (R49, R215).  `paths` holds S V M C L A in bits 0 to 5. -/
def decFence (x : Fields) : Option Instr :=
  (Scope.ofBits (x.f4.extractLsb' 0 3)).map fun sc => .fence (x.f4.extractLsb' 3 1 ++ x.d) sc x.imm16

/-- Major 0x1B: barriers (R95, R96). -/
def decBar (x : Fields) : Option Instr :=
  let k := x.f.extractLsb' 0 7
  match (x.f.extractLsb' 7 3).toNat with
  | 0 => only (x.d == 0 && x.b == 0) (.bjoin k x.a)
  | 1 => only (x.d == 0 && x.b == 0) (.bleave k x.a)
  | 2 => only (x.b == 0) (.barv x.d k x.a)
  | 3 => only (x.b == 0) (.bara x.d k x.a)
  | 4 => only (x.d == 0) (.bwait k x.a x.b)
  | _ => none

/-- Majors 0x1C and 0x1D: rings (R91). -/
def decRing (maj : Nat) (x : Fields) : Option Instr :=
  let k := x.f.extractLsb' 0 6
  match maj, (x.f.extractLsb' 6 4).toNat with
  | 0x1C, 0 => only (x.a == 0 && x.b == 0) (.rclaim x.d k)
  | 0x1C, 1 => only (x.a == 0 && x.b == 0) (.rclaimt x.d k)
  | 0x1C, 2 => only (x.d == 0 && x.b == 0) (.rfill k x.a)
  | 0x1C, 3 => only (x.b == 0) (.rawait x.d k x.a)
  | 0x1C, 4 => only (x.b == 0) (.rawaitt x.d k x.a)
  | 0x1C, 5 => only (x.d == 0 && x.b == 0) (.rrel k x.a)
  | 0x1D, 0 => only (x.d == 0 && x.b == 0) (.rcfg k x.a)
  | 0x1D, 1 => only (x.a == 0 && x.b == 0) (.rstat x.d k)
  | _, _ => none

/-- Major 0x1E: continuations (R258). -/
def decCont (op : Nat) (d a b : Reg) (q : Cls) : Option Instr :=
  match op with
  | 0x00 => some (.spawn d a b q)
  | 0x01 => only (b == 0) (.jdec d a q)
  | 0x02 => only (d == 0 && a == 0 && b == 0) (.exit q)
  | 0x03 => only (d == 0 && b == 0) (.yield a q)
  | 0x04 => only (b == 0 && q == 0) (.crec d a)
  | 0x05 => some (.jset d a b q)
  | _ => none

/-- Majors 0x20 to 0x24: vector commands, with I in D[4], O in D[3:0] and the type in Q (R146 to R152). -/
def decVecT (maj op : Nat) (i : Bool) (o : Cls) (a b : Reg) (t : ElemType) : Option Instr :=
  match maj, op with
  | 0x20, 0x00 => some (.vadd i o a b t)
  | 0x20, 0x01 => some (.vsub i o a b t)
  | 0x20, 0x02 => some (.vmul i o a b t)
  | 0x20, 0x03 => some (.vmac i o a b t)
  | 0x20, 0x04 => some (.vmin i o a b t)
  | 0x20, 0x05 => some (.vmax i o a b t)
  | 0x20, 0x06 => only (!i) (.vabs o a b t)
  | 0x20, 0x07 => only (!i) (.vneg o a b t)
  | 0x20, 0x08 => only i (.vscale o a b t)
  | 0x21, 0x00 => only (!i) (.vexp o a b t)
  | 0x21, 0x01 => only (!i) (.vlog o a b t)
  | 0x21, 0x02 => only (!i) (.vrcp o a b t)
  | 0x21, 0x03 => only (!i) (.vrsqrt o a b t)
  | 0x21, 0x04 => only (!i) (.vtanh o a b t)
  | 0x21, 0x05 => only (!i) (.vsigm o a b t)
  | 0x22, 0x00 => only (!i) (.vcvt o a b t)
  | 0x22, 0x01 => only (!i) (.vcvtz o a b t)
  | 0x22, 0x02 => only (!i) (.vsum o a b t)
  | 0x22, 0x03 => only (!i) (.vrmax o a b t)
  | 0x22, 0x04 => only (!i) (.vdot o a b t)
  | 0x23, 0x00 => some (.vcmpeq i o a b t)
  | 0x23, 0x01 => some (.vcmplt i o a b t)
  | 0x23, 0x02 => some (.vcmple i o a b t)
  | 0x23, 0x03 => some (.vsel i o a b t)
  | 0x23, 0x04 => some (.vand i o a b t)
  | 0x23, 0x05 => some (.vor i o a b t)
  | 0x23, 0x06 => some (.vxor i o a b t)
  | 0x23, 0x07 => some (.vshl i o a b t)
  | 0x23, 0x08 => some (.vshr i o a b t)
  | 0x24, 0x00 => only (!i) (.vcopy o a b t)
  | 0x24, 0x01 => some (.vfill i o a b t)
  | 0x24, 0x02 => only (!i) (.vpred o a b t)
  | _, _ => none

/-- Majors 0x20 to 0x24, VFENCE and VBUSY included (R153, R154). -/
def decVec (maj : Nat) (x : Fields) : Option Instr :=
  if maj == 0x24 && x.op == 3 then only (x.d == 0 && x.b == 0 && x.q == 0) (.vfence x.a)
  else if maj == 0x24 && x.op == 4 then only (x.a == 0 && x.b == 0 && x.q == 0) (.vbusy x.d)
  else (ElemType.ofBits x.q).bind fun t => decVecT maj x.op (x.d.getLsbD 4) (x.d.extractLsb' 0 4) x.a x.b t

/-- Major 0x26: Horizon instructions, with the slot in Q (R156). -/
def decHz (op : Nat) (d a b : Reg) (k : BitVec 4) : Option Instr :=
  match op with
  | 0x00 => some (.hzcfg k d a b)
  | 0x01 => if d.getLsbD 4 then only (d == 0x10 && a == 0) (.hzpshR k b) else only (b == 0) (.hzpsh k a (d.extractLsb' 0 4))
  | 0x02 => only (a == 0 && b == 0) (.hzest d k)
  | 0x03 => only (!d.getLsbD 4 && b == 0) (.hzrd k a (d.extractLsb' 0 4))
  | 0x04 => only (d == 0 && a == 0 && b == 0) (.hzclr k)
  | _ => none

/-- Major 0x28: the matrix engine (R166). -/
def decMx (op : Nat) (d a b : Reg) (q : Cls) : Option Instr :=
  match op with
  | 0x00 => only (d == 0 && q == 0) (.mxcfg a b)
  | 0x01 => only (d == 0 && a == 0 && b == 0) (.mxgo q)
  | 0x02 => only (d == 0 && a == 0 && b == 0 && q == 0) .mxwait
  | 0x03 => only (a == 0 && b == 0 && q == 0) (.mxstat d)
  | 0x04 => only (d == 0 && b == 0) (.mxidx a q)
  | 0x05 => only (d == 0 && b == 0 && q == 0) (.sqp a)
  | 0x06 => only (d == 0) (.sqld a b q)
  | 0x07 => only (d == 0) (.mxdrain a b q)
  | 0x08 => only (d == 0 && a == 0 && b == 0 && q == 0) .mxfrz
  | 0x09 => only (d == 0 && a == 0 && b == 0 && q == 0) .mxthaw
  | 0x0A => only (a == 0 && b == 0 && q == 0) (.mxprog d)
  | 0x0B => only (d == 0 && a == 0 && b == 0 && q == 0) .mxclr
  | _ => none

/-- Major 0x2E: the copy engines (R197). -/
def decCopy (op : Nat) (d a b : Reg) (q : Cls) : Option Instr :=
  match op with
  | 0x00 => some (.cpy d a b q)
  | 0x01 => only (d == 0) (.cpyp a b q)
  | 0x02 => only (d == 0 && q == 0) (.cpinv a b)
  | 0x03 => only (b == 0 && q == 0) (.cpquie d a)
  | 0x04 => only (d == 0 && b == 0 && q == 0) (.cpwait a)
  | 0x05 => only (b == 0 && q == 0) (.cpstat d a)
  | 0x06 => only (b == 0 && q == 0) (.cpprog d a)
  | 0x07 => only (d == 0) (.cpnest a b q)
  | 0x08 => only (q == 0) (.cpsat d a b)
  | 0x09 => only (b == 0 && q == 0) (.cpsel d a)
  | _ => none

/-- Major 0x32: lane macro-instructions (R284). -/
def decLane (op : Nat) (d a b : Reg) (q : Cls) : Option Instr :=
  match op with
  | 0x00 => only (q == 0) (.lfmt d a b)
  | 0x01 => only (d == 0) (.lmcst a b q)
  | 0x02 => some (.ldot d a b q)
  | 0x03 => only (d == 0 && b == 0 && q == 0) (.lhzc a)
  | 0x04 => only (d == 0 && b == 0 && q == 0) (.lrsync a)
  | 0x05 => only (d == 0 && a == 0 && b == 0 && q == 0) .lsafe
  | 0x06 => only (b == 0 && q == 0) (.lpoll d a)
  | 0x07 => only (d == 0 && a == 0 && b == 0 && q == 0) .lclr
  | 0x08 => only (d == 0 && b == 0 && q == 0) (.lrtgt a)
  | 0x09 => only (b == 0 && q == 0) (.lstat d a)
  | _ => none

/-- Major 0x3A: system instructions (R327, R316, R317). -/
def decSys (op : Nat) (d a b : Reg) : Option Instr :=
  match op with
  | 0x00 => only (a == 0 && b == 0) (.brk d)
  | 0x01 => only (d == 0 && a == 0 && b == 0) .rett
  | 0x02 => only (b == 0) (.csave d a)
  | 0x03 => only (b == 0) (.crest d a)
  | 0x04 => only (a == 0 && b == 0) (.ckpt d)
  | 0x05 => some (.wscall d a b)
  | 0x06 => only (d == 0 && b == 0) (.idle a)
  | 0x07 => only (d == 0) (.tlbinv a b)
  | _ => none

/-- Major 0x3C: scalar FP32 (R80 to R82). -/
def decFp (op : Nat) (d a b : Reg) (q : BitVec 4) : Option Instr :=
  match op with
  | 0x00 => only (q == 0) (.fadd d a b)
  | 0x01 => only (q == 0) (.fsub d a b)
  | 0x02 => only (q == 0) (.fmul d a b)
  | 0x03 => only (q == 0) (.fmac d a b)
  | 0x04 => only (q == 0) (.fdiv d a b)
  | 0x05 => only (b == 0 && q == 0) (.fsqrt d a)
  | 0x06 => (CmpCond.ofBits q).map fun cc => .fcmp cc d a b
  | 0x07 => only (b == 0) (.fcvt (CvtOp.ofBits q) d a)
  | _ => none

/-- The opcode map (R47), before the checks of `Instr.wf`. -/
def dec (x : Fields) : Option Instr :=
  match x.maj.toNat with
  | 0x01 => if x.q == 0 then decInt 0x01 x.op x.d x.a x.b else none
  | 0x02 => if x.q == 0 then decInt 0x02 x.op x.d x.a x.b else none
  | 0x03 => if x.q == 0 then decInt 0x03 x.op x.d x.a x.b else none
  | 0x04 => if x.q == 0 then decInt 0x04 x.op x.d x.a x.b else none
  | 0x05 => some (.addi x.d x.a x.imm15)
  | 0x06 => some (.ori x.d x.a x.imm15)
  | 0x07 => some (.xori x.d x.a x.imm15)
  | 0x08 => decMov x
  | 0x09 => only (x.a == 0) (.addpc x.d x.imm15)
  | 0x0A => if x.q == 0 then decInt 0x0A x.op x.d x.a x.b else none
  | 0x0B => some (.slti x.d x.a x.imm15)
  | 0x0C => some (.j x.off25)
  | 0x0D => some (.call x.off25)
  | 0x0E => decBranch x
  | 0x0F => if x.q == 0 then decJump x.op x.d x.a x.b else none
  | 0x10 => some (.ld x.d x.a x.imm11 x.o)
  | 0x11 => some (.ldS32 x.d x.a x.imm11 x.o)
  | 0x12 => some (.st x.d x.a x.imm11 x.o)
  | 0x13 => some (.stN32 x.d x.a x.imm11 x.o)
  | 0x14 => decMem 0x14 x.op x.d x.a x.b x.q
  | 0x15 => decMem 0x15 x.op x.d x.a x.b x.q
  | 0x16 => decAtom x
  | 0x17 => decVatom x
  | 0x18 => decRed x
  | 0x1A => decFence x
  | 0x1B => decBar x
  | 0x1C => decRing 0x1C x
  | 0x1D => decRing 0x1D x
  | 0x1E => decCont x.op x.d x.a x.b x.q
  | 0x20 => decVec 0x20 x
  | 0x21 => decVec 0x21 x
  | 0x22 => decVec 0x22 x
  | 0x23 => decVec 0x23 x
  | 0x24 => decVec 0x24 x
  | 0x26 => decHz x.op x.d x.a x.b x.q
  | 0x28 => decMx x.op x.d x.a x.b x.q
  | 0x2E => decCopy x.op x.d x.a x.b x.q
  | 0x32 => decLane x.op x.d x.a x.b x.q
  | 0x37 => if x.q == 0 then
      match x.op with
      | 0x00 => some (.turn x.d x.a x.b)
      | 0x01 => some (.lnkq x.d x.a x.b)
      | _ => none
    else none
  | 0x38 => only (x.a == 0 && x.b.extractLsb' 2 3 == 0) (.getc x.d (x.b.extractLsb' 0 2 ++ x.f))
  | 0x39 => only (x.d == 0 && x.b.extractLsb' 2 3 == 0) (.setc (x.b.extractLsb' 0 2 ++ x.f) x.a)
  | 0x3A => if x.q == 0 then decSys x.op x.d x.a x.b else none
  | 0x3C => decFp x.op x.d x.a x.b x.q
  | _ => none

/-- The instruction a word stands for, or nothing where R27 makes the word raise UDI. -/
def decode (w : W32) : Option IWord :=
  match dec (Fields.ofWord w) with
  | some i => if i.wf then some ⟨w.getLsbD 31, i⟩ else none
  | none => none

/-- Fields of a term no word encodes: MAJ 0x00 is illegal (R27). -/
def noWord : Fields := ⟨0, 0, 0, 0, 0⟩

/-- The fields of each instruction's word (R47 and the group chapters). -/
def Instr.fields : Instr → Fields
  | .add d a b => ⟨0x01, d, a, b, opq 0x00 0⟩
  | .sub d a b => ⟨0x01, d, a, b, opq 0x01 0⟩
  | .and d a b => ⟨0x01, d, a, b, opq 0x02 0⟩
  | .or d a b => ⟨0x01, d, a, b, opq 0x03 0⟩
  | .xor d a b => ⟨0x01, d, a, b, opq 0x04 0⟩
  | .andn d a b => ⟨0x01, d, a, b, opq 0x05 0⟩
  | .min d a b => ⟨0x01, d, a, b, opq 0x06 0⟩
  | .max d a b => ⟨0x01, d, a, b, opq 0x07 0⟩
  | .minn d a b => ⟨0x01, d, a, b, opq 0x08 0⟩
  | .maxn d a b => ⟨0x01, d, a, b, opq 0x09 0⟩
  | .addw d a b => ⟨0x01, d, a, b, opq 0x0a 0⟩
  | .subw d a b => ⟨0x01, d, a, b, opq 0x0b 0⟩
  | .shl d a b => ⟨0x02, d, a, b, opq 0x00 0⟩
  | .shr d a b => ⟨0x02, d, a, b, opq 0x01 0⟩
  | .sha d a b => ⟨0x02, d, a, b, opq 0x02 0⟩
  | .rol d a b => ⟨0x02, d, a, b, opq 0x03 0⟩
  | .clz d a => ⟨0x02, d, a, 0, opq 0x04 0⟩
  | .ctz d a => ⟨0x02, d, a, 0, opq 0x05 0⟩
  | .popc d a => ⟨0x02, d, a, 0, opq 0x06 0⟩
  | .mul d a b => ⟨0x03, d, a, b, opq 0x00 0⟩
  | .mulh d a b => ⟨0x03, d, a, b, opq 0x01 0⟩
  | .mulhn d a b => ⟨0x03, d, a, b, opq 0x02 0⟩
  | .div d a b => ⟨0x03, d, a, b, opq 0x03 0⟩
  | .divn d a b => ⟨0x03, d, a, b, opq 0x04 0⟩
  | .rem d a b => ⟨0x03, d, a, b, opq 0x05 0⟩
  | .remn d a b => ⟨0x03, d, a, b, opq 0x06 0⟩
  | .seq d a b => ⟨0x04, d, a, b, opq 0x00 0⟩
  | .sne d a b => ⟨0x04, d, a, b, opq 0x01 0⟩
  | .slt d a b => ⟨0x04, d, a, b, opq 0x02 0⟩
  | .sltn d a b => ⟨0x04, d, a, b, opq 0x03 0⟩
  | .sle d a b => ⟨0x04, d, a, b, opq 0x04 0⟩
  | .slen d a b => ⟨0x04, d, a, b, opq 0x05 0⟩
  | .addi d a imm => ⟨0x05, d, a, immB imm, immF imm⟩
  | .ori d a imm => ⟨0x06, d, a, immB imm, immF imm⟩
  | .xori d a imm => ⟨0x07, d, a, immB imm, immF imm⟩
  | .slti d a imm => ⟨0x0b, d, a, immB imm, immF imm⟩
  | .movz d imm q => ⟨0x08, d, f4A (0#2 ++ q) imm, half16B imm, half16F imm⟩
  | .movk d imm q => ⟨0x08, d, f4A (1#2 ++ q) imm, half16B imm, half16F imm⟩
  | .movn d imm q => ⟨0x08, d, f4A (2#2 ++ q) imm, half16B imm, half16F imm⟩
  | .addpc d imm => ⟨0x09, d, 0, immB imm, immF imm⟩
  | .shadd1 d a b => ⟨0x0a, d, a, b, opq 0x00 0⟩
  | .shadd2 d a b => ⟨0x0a, d, a, b, opq 0x01 0⟩
  | .shadd3 d a b => ⟨0x0a, d, a, b, opq 0x02 0⟩
  | .shadd4 d a b => ⟨0x0a, d, a, b, opq 0x03 0⟩
  | .j off => ⟨0x0c, offD off, offA off, offB off, offF off⟩
  | .call off => ⟨0x0d, offD off, offA off, offB off, offF off⟩
  | .beqz d off => ⟨0x0e, d, f4A 0 off, half16B off, half16F off⟩
  | .bnez d off => ⟨0x0e, d, f4A 1 off, half16B off, half16F off⟩
  | .bltz d off => ⟨0x0e, d, f4A 2 off, half16B off, half16F off⟩
  | .bgez d off => ⟨0x0e, d, f4A 3 off, half16B off, half16F off⟩
  | .bgtz d off => ⟨0x0e, d, f4A 4 off, half16B off, half16F off⟩
  | .blez d off => ⟨0x0e, d, f4A 5 off, half16B off, half16F off⟩
  | .jr a => ⟨0x0f, 0, a, 0, opq 0x00 0⟩
  | .callr d a => ⟨0x0f, d, a, 0, opq 0x01 0⟩
  | .loops a b => ⟨0x0f, 0, a, b, opq 0x02 0⟩
  | .loopx => ⟨0x0f, 0, 0, 0, opq 0x03 0⟩
  | .ld d a imm o => ⟨0x10, d, a, memB o imm, memF imm⟩
  | .ldS32 d a imm o => ⟨0x11, d, a, memB o imm, memF imm⟩
  | .st d a imm o => ⟨0x12, d, a, memB o imm, memF imm⟩
  | .stN32 d a imm o => ⟨0x13, d, a, memB o imm, memF imm⟩
  | .ldS8 d a b o => ⟨0x14, d, a, b, opq 0x00 o⟩
  | .ldN8 d a b o => ⟨0x14, d, a, b, opq 0x01 o⟩
  | .ldS16 d a b o => ⟨0x14, d, a, b, opq 0x02 o⟩
  | .ldN16 d a b o => ⟨0x14, d, a, b, opq 0x03 o⟩
  | .ldN32 d a b o => ⟨0x14, d, a, b, opq 0x04 o⟩
  | .ldx d a b o => ⟨0x14, d, a, b, opq 0x05 o⟩
  | .stN8 d a b o => ⟨0x15, d, a, b, opq 0x00 o⟩
  | .stN16 d a b o => ⟨0x15, d, a, b, opq 0x01 o⟩
  | .stx d a b o => ⟨0x15, d, a, b, opq 0x02 o⟩
  | .ldAcq d a o => ⟨0x15, d, a, 0, opq 0x03 o⟩
  | .stRel d a o => ⟨0x15, d, a, 0, opq 0x04 o⟩
  | .aadd d a b sem w o => ⟨0x16, d, a, b, sem.toBits ++ BitVec.ofBool w ++ 0#3 ++ o⟩
  | .aand d a b sem w o => ⟨0x16, d, a, b, sem.toBits ++ BitVec.ofBool w ++ 1#3 ++ o⟩
  | .aor d a b sem w o => ⟨0x16, d, a, b, sem.toBits ++ BitVec.ofBool w ++ 2#3 ++ o⟩
  | .axor d a b sem w o => ⟨0x16, d, a, b, sem.toBits ++ BitVec.ofBool w ++ 3#3 ++ o⟩
  | .amin d a b sem w o => ⟨0x16, d, a, b, sem.toBits ++ BitVec.ofBool w ++ 4#3 ++ o⟩
  | .amax d a b sem w o => ⟨0x16, d, a, b, sem.toBits ++ BitVec.ofBool w ++ 5#3 ++ o⟩
  | .aswp d a b sem w o => ⟨0x16, d, a, b, sem.toBits ++ BitVec.ofBool w ++ 6#3 ++ o⟩
  | .acas d a b sem w o => ⟨0x16, d, a, b, sem.toBits ++ BitVec.ofBool w ++ 7#3 ++ o⟩
  | .vaadd d a b sem t o => ⟨0x17, d, a, b, sem.toBits ++ 0#2 ++ t.toBits ++ o⟩
  | .vamin d a b sem t o => ⟨0x17, d, a, b, sem.toBits ++ 1#2 ++ t.toBits ++ o⟩
  | .vamax d a b sem t o => ⟨0x17, d, a, b, sem.toBits ++ 2#2 ++ t.toBits ++ o⟩
  | .redadd a b t o => ⟨0x18, 0, a, b, 0#2 ++ 0#2 ++ t.toBits ++ o⟩
  | .redmin a b t o => ⟨0x18, 0, a, b, 0#2 ++ 1#2 ++ t.toBits ++ o⟩
  | .redmax a b t o => ⟨0x18, 0, a, b, 0#2 ++ 2#2 ++ t.toBits ++ o⟩
  | .fence paths scope mask => ⟨0x1a, paths.extractLsb' 0 5, f4A (paths.extractLsb' 5 1 ++ scope.toBits) mask, half16B mask, half16F mask⟩
  | .bjoin k a => ⟨0x1b, 0, a, 0, 0#3 ++ k⟩
  | .bleave k a => ⟨0x1b, 0, a, 0, 1#3 ++ k⟩
  | .barv d k a => ⟨0x1b, d, a, 0, 2#3 ++ k⟩
  | .bara d k a => ⟨0x1b, d, a, 0, 3#3 ++ k⟩
  | .bwait k a b => ⟨0x1b, 0, a, b, 4#3 ++ k⟩
  | .rclaim d k => ⟨0x1c, d, 0, 0, 0#4 ++ k⟩
  | .rclaimt d k => ⟨0x1c, d, 0, 0, 1#4 ++ k⟩
  | .rfill k a => ⟨0x1c, 0, a, 0, 2#4 ++ k⟩
  | .rawait d k a => ⟨0x1c, d, a, 0, 3#4 ++ k⟩
  | .rawaitt d k a => ⟨0x1c, d, a, 0, 4#4 ++ k⟩
  | .rrel k a => ⟨0x1c, 0, a, 0, 5#4 ++ k⟩
  | .rcfg k a => ⟨0x1d, 0, a, 0, 0#4 ++ k⟩
  | .rstat d k => ⟨0x1d, d, 0, 0, 1#4 ++ k⟩
  | .spawn d a b o => ⟨0x1e, d, a, b, opq 0x00 o⟩
  | .jdec d a o => ⟨0x1e, d, a, 0, opq 0x01 o⟩
  | .exit o => ⟨0x1e, 0, 0, 0, opq 0x02 o⟩
  | .yield a o => ⟨0x1e, 0, a, 0, opq 0x03 o⟩
  | .crec d k => ⟨0x1e, d, k, 0, opq 0x04 0⟩
  | .jset d a b o => ⟨0x1e, d, a, b, opq 0x05 o⟩
  | .vadd i o a b t => ⟨0x20, BitVec.ofBool i ++ o, a, b, opq 0x00 t.toBits⟩
  | .vsub i o a b t => ⟨0x20, BitVec.ofBool i ++ o, a, b, opq 0x01 t.toBits⟩
  | .vmul i o a b t => ⟨0x20, BitVec.ofBool i ++ o, a, b, opq 0x02 t.toBits⟩
  | .vmac i o a b t => ⟨0x20, BitVec.ofBool i ++ o, a, b, opq 0x03 t.toBits⟩
  | .vmin i o a b t => ⟨0x20, BitVec.ofBool i ++ o, a, b, opq 0x04 t.toBits⟩
  | .vmax i o a b t => ⟨0x20, BitVec.ofBool i ++ o, a, b, opq 0x05 t.toBits⟩
  | .vabs o a b t => ⟨0x20, 0#1 ++ o, a, b, opq 0x06 t.toBits⟩
  | .vneg o a b t => ⟨0x20, 0#1 ++ o, a, b, opq 0x07 t.toBits⟩
  | .vscale o a b t => ⟨0x20, 1#1 ++ o, a, b, opq 0x08 t.toBits⟩
  | .vexp o a b t => ⟨0x21, 0#1 ++ o, a, b, opq 0x00 t.toBits⟩
  | .vlog o a b t => ⟨0x21, 0#1 ++ o, a, b, opq 0x01 t.toBits⟩
  | .vrcp o a b t => ⟨0x21, 0#1 ++ o, a, b, opq 0x02 t.toBits⟩
  | .vrsqrt o a b t => ⟨0x21, 0#1 ++ o, a, b, opq 0x03 t.toBits⟩
  | .vtanh o a b t => ⟨0x21, 0#1 ++ o, a, b, opq 0x04 t.toBits⟩
  | .vsigm o a b t => ⟨0x21, 0#1 ++ o, a, b, opq 0x05 t.toBits⟩
  | .vcvt o a b t => ⟨0x22, 0#1 ++ o, a, b, opq 0x00 t.toBits⟩
  | .vcvtz o a b t => ⟨0x22, 0#1 ++ o, a, b, opq 0x01 t.toBits⟩
  | .vsum o a b t => ⟨0x22, 0#1 ++ o, a, b, opq 0x02 t.toBits⟩
  | .vrmax o a b t => ⟨0x22, 0#1 ++ o, a, b, opq 0x03 t.toBits⟩
  | .vdot o a b t => ⟨0x22, 0#1 ++ o, a, b, opq 0x04 t.toBits⟩
  | .vcmpeq i o a b t => ⟨0x23, BitVec.ofBool i ++ o, a, b, opq 0x00 t.toBits⟩
  | .vcmplt i o a b t => ⟨0x23, BitVec.ofBool i ++ o, a, b, opq 0x01 t.toBits⟩
  | .vcmple i o a b t => ⟨0x23, BitVec.ofBool i ++ o, a, b, opq 0x02 t.toBits⟩
  | .vsel i o a b t => ⟨0x23, BitVec.ofBool i ++ o, a, b, opq 0x03 t.toBits⟩
  | .vand i o a b t => ⟨0x23, BitVec.ofBool i ++ o, a, b, opq 0x04 t.toBits⟩
  | .vor i o a b t => ⟨0x23, BitVec.ofBool i ++ o, a, b, opq 0x05 t.toBits⟩
  | .vxor i o a b t => ⟨0x23, BitVec.ofBool i ++ o, a, b, opq 0x06 t.toBits⟩
  | .vshl i o a b t => ⟨0x23, BitVec.ofBool i ++ o, a, b, opq 0x07 t.toBits⟩
  | .vshr i o a b t => ⟨0x23, BitVec.ofBool i ++ o, a, b, opq 0x08 t.toBits⟩
  | .vcopy o a b t => ⟨0x24, 0#1 ++ o, a, b, opq 0x00 t.toBits⟩
  | .vfill i o a b t => ⟨0x24, BitVec.ofBool i ++ o, a, b, opq 0x01 t.toBits⟩
  | .vpred o a b t => ⟨0x24, 0#1 ++ o, a, b, opq 0x02 t.toBits⟩
  | .vfence a => ⟨0x24, 0, a, 0, opq 0x03 0⟩
  | .vbusy d => ⟨0x24, d, 0, 0, opq 0x04 0⟩
  | .hzcfg k d a b => ⟨0x26, d, a, b, opq 0x00 k⟩
  | .hzpsh k a o => ⟨0x26, 0#1 ++ o, a, 0, opq 0x01 k⟩
  | .hzpshR k b => ⟨0x26, 0x10, 0, b, opq 0x01 k⟩
  | .hzest d k => ⟨0x26, d, 0, 0, opq 0x02 k⟩
  | .hzrd k a o => ⟨0x26, 0#1 ++ o, a, 0, opq 0x03 k⟩
  | .hzclr k => ⟨0x26, 0, 0, 0, opq 0x04 k⟩
  | .mxcfg a b => ⟨0x28, 0, a, b, opq 0x00 0⟩
  | .mxgo o => ⟨0x28, 0, 0, 0, opq 0x01 o⟩
  | .mxwait => ⟨0x28, 0, 0, 0, opq 0x02 0⟩
  | .mxstat d => ⟨0x28, d, 0, 0, opq 0x03 0⟩
  | .mxidx a o => ⟨0x28, 0, a, 0, opq 0x04 o⟩
  | .sqp a => ⟨0x28, 0, a, 0, opq 0x05 0⟩
  | .sqld a b o => ⟨0x28, 0, a, b, opq 0x06 o⟩
  | .mxdrain a b o => ⟨0x28, 0, a, b, opq 0x07 o⟩
  | .mxfrz => ⟨0x28, 0, 0, 0, opq 0x08 0⟩
  | .mxthaw => ⟨0x28, 0, 0, 0, opq 0x09 0⟩
  | .mxprog d => ⟨0x28, d, 0, 0, opq 0x0a 0⟩
  | .mxclr => ⟨0x28, 0, 0, 0, opq 0x0b 0⟩
  | .cpy d a b o => ⟨0x2e, d, a, b, opq 0x00 o⟩
  | .cpyp a b o => ⟨0x2e, 0, a, b, opq 0x01 o⟩
  | .cpinv a b => ⟨0x2e, 0, a, b, opq 0x02 0⟩
  | .cpquie d a => ⟨0x2e, d, a, 0, opq 0x03 0⟩
  | .cpwait a => ⟨0x2e, 0, a, 0, opq 0x04 0⟩
  | .cpstat d a => ⟨0x2e, d, a, 0, opq 0x05 0⟩
  | .cpprog d a => ⟨0x2e, d, a, 0, opq 0x06 0⟩
  | .cpnest a b o => ⟨0x2e, 0, a, b, opq 0x07 o⟩
  | .cpsat d a b => ⟨0x2e, d, a, b, opq 0x08 0⟩
  | .cpsel d a => ⟨0x2e, d, a, 0, opq 0x09 0⟩
  | .lfmt d a b => ⟨0x32, d, a, b, opq 0x00 0⟩
  | .lmcst a b o => ⟨0x32, 0, a, b, opq 0x01 o⟩
  | .ldot d a b o => ⟨0x32, d, a, b, opq 0x02 o⟩
  | .lhzc a => ⟨0x32, 0, a, 0, opq 0x03 0⟩
  | .lrsync a => ⟨0x32, 0, a, 0, opq 0x04 0⟩
  | .lsafe => ⟨0x32, 0, 0, 0, opq 0x05 0⟩
  | .lpoll d a => ⟨0x32, d, a, 0, opq 0x06 0⟩
  | .lclr => ⟨0x32, 0, 0, 0, opq 0x07 0⟩
  | .lrtgt a => ⟨0x32, 0, a, 0, opq 0x08 0⟩
  | .lstat d a => ⟨0x32, d, a, 0, opq 0x09 0⟩
  | .turn d a b => ⟨0x37, d, a, b, opq 0x00 0⟩
  | .lnkq d a b => ⟨0x37, d, a, b, opq 0x01 0⟩
  | .getc d c => ⟨0x38, d, 0, cregB c, cregF c⟩
  | .setc c a => ⟨0x39, 0, a, cregB c, cregF c⟩
  | .brk k => ⟨0x3a, k, 0, 0, opq 0x00 0⟩
  | .rett => ⟨0x3a, 0, 0, 0, opq 0x01 0⟩
  | .csave d a => ⟨0x3a, d, a, 0, opq 0x02 0⟩
  | .crest d a => ⟨0x3a, d, a, 0, opq 0x03 0⟩
  | .ckpt d => ⟨0x3a, d, 0, 0, opq 0x04 0⟩
  | .wscall d a b => ⟨0x3a, d, a, b, opq 0x05 0⟩
  | .idle a => ⟨0x3a, 0, a, 0, opq 0x06 0⟩
  | .tlbinv a b => ⟨0x3a, 0, a, b, opq 0x07 0⟩
  | .fadd d a b => ⟨0x3c, d, a, b, opq 0x00 0⟩
  | .fsub d a b => ⟨0x3c, d, a, b, opq 0x01 0⟩
  | .fmul d a b => ⟨0x3c, d, a, b, opq 0x02 0⟩
  | .fmac d a b => ⟨0x3c, d, a, b, opq 0x03 0⟩
  | .fdiv d a b => ⟨0x3c, d, a, b, opq 0x04 0⟩
  | .fsqrt d a => ⟨0x3c, d, a, 0, opq 0x05 0⟩
  | .fcmp cc d a b => ⟨0x3c, d, a, b, opq 0x06 cc.toBits⟩
  | .fcvt cv d a => ⟨0x3c, d, a, 0, opq 0x07 cv.toBits⟩
  | .fenceComplete _ _ => noWord
  | .vectorCommandStart _ _ => noWord
  | .vectorCommandComplete _ _ => noWord
  | .horizonCheckpoint _ _ => noWord
  | .nestStart _ => noWord
  | .matrixChunk _ => noWord
  | .sqldEntryPush _ => noWord
  | .nestComplete _ => noWord
  | .tileTransferLock _ _ => noWord
  | .tileTransferRelease _ _ => noWord
  | .blockFetch _ _ => noWord
  | .cpinvEffect _ _ => noWord
  | .cpnestEffect _ _ => noWord
  | .ringUnitClaim _ _ => noWord
  | .innermostCopy _ _ => noWord
  | .ringUnitFill _ _ => noWord
  | .copyCommandComplete _ _ => noWord
  | .narrowWindowBoundary _ _ => noWord
  | .macroBroadcast _ => noWord
  | .laneMacroRun _ _ => noWord
  | .lanePlaneRead _ _ => noWord
  | .rowResultDelivery _ _ _ => noWord
  | .multicastLand _ _ => noWord
  | .lrsyncDrain _ => noWord
  | .lsafeComplete _ => noWord
  | .laneWatchdogReset _ => noWord
  | .laneParityReplay _ _ => noWord
  | .turnStart _ => noWord
  | .turnEffect _ => noWord
  | .deadTimeEnd _ => noWord
  | .forcedTurn _ => noWord
  | .bundleIssue _ => noWord
  | .syncWaitWatchdog _ => noWord
  | .loadDataReturn _ => noWord
  | .asyncTrapEntry _ => noWord
  | .pipelineReplay _ => noWord
  | .atomicExecute _ => noWord
  | .atomicResponse _ => noWord
  | .reductionApplyHome _ => noWord
  | .mergeEntryForward _ => noWord
  | .peerAccessArrival _ => noWord
  | .flitCrcRetry _ => noWord
  | .groupRetrainDone _ => noWord
  | .flitSendTimeout _ => noWord
  | .hostMemoryWrite _ _ _ => noWord
  | .hostMemoryRead _ _ _ => noWord
  | .hostControlWrite _ _ _ => noWord
  | .notify _ _ => noWord
  | .qslotMap _ _ _ _ => noWord
  | .qslotUnmap _ _ => noWord
  | .qslotMappingDone _ _ => noWord
  | .qslotUnmapDone _ _ => noWord
  | .recordSelect _ => noWord
  | .recordStart _ => noWord
  | .preempt _ => noWord
  | .contextRestore _ => noWord
  | .contextClear _ => noWord
  | .preemptUnitsStopped _ => noWord
  | .debugHalt _ => noWord
  | .walkStart _ => noWord
  | .walkComplete _ _ => noWord
  | .faultMessage _ => noWord
  | .xfrespRetry _ => noWord
  | .xfrespFail _ => noWord
  | .engineFaultResume _ _ => noWord
  | .refresh _ _ _ => noWord
  | .normalBurstGrant _ _ _ => noWord
  | .levelRise _ _ => noWord
  | .levelFall _ _ => noWord
  | .columnMigrate _ _ => noWord
  | .migrationSwitch _ => noWord
  | .sendDoorbell _ _ _ => noWord
  | .frameTransmit _ _ => noWord
  | .ethernetFrameReceive _ _ _ _ => noWord
  | .rxFrameCommit _ _ => noWord
  | .erxcfgWrite _ _ _ _ => noWord
  | .erxtailRelease _ _ _ => noWord
  | .patrolScrub _ _ _ => noWord
  | .checkpointTimer _ => noWord
  | .checkpointCommit _ => noWord
  | .checkpointReport _ _ => noWord
  | .powerOn => noWord
  | .coldReset _ => noWord
  | .warmReset _ => noWord
  | .bootRailsSettled _ => noWord
  | .bootImageVerified _ => noWord
  | .bootMemoryReady _ => noWord
  | .bootLinksTrained _ => noWord
  | .attestationRequest _ _ => noWord
  | .attestationReport _ => noWord
  | .powerEstimate => noWord
  | .testEngineOffer _ _ => noWord
  | .vbtdrvWrite _ _ => noWord
  | .testBeatResult _ => noWord
  | .vbrepWrite _ _ _ => noWord
  | .vbrepApply _ => noWord
  | .fuseRepairs _ _ => noWord
  | .retireBus _ _ => noWord
  | .wscallReply _ => noWord
  | .dualCompare _ _ => noWord
  | .unallocatedWord _ => noWord
  | .idleTimeout _ => noWord
  | .recordAgeStep _ _ => noWord
  | .hostAtomicRequest _ _ _ _ _ _ => noWord
  | .sendLogCheckpointRequest _ _ => noWord
  | .minsvnRaiseRequest _ => noWord

/-- The word of an instruction, with its sync bit. -/
def encode (s : Bool) (i : Instr) : W32 := i.fields.pack s

/-- The four bytes of a word as instruction memory holds them, lowest address first (R83: little-endian). -/
def wordBytes (w : W32) : List Byte :=
  [w.extractLsb' 0 8, w.extractLsb' 8 8, w.extractLsb' 16 8, w.extractLsb' 24 8]

/-- The word four bytes hold. -/
def bytesWord : List Byte → W32
  | [b0, b1, b2, b3] => b3 ++ b2 ++ b1 ++ b0
  | _ => 0

/-- The instruction the decoder reads from an instruction whose bits, numbered as spec/opcode_table.json numbers them, are
w: the part's words are 32 bits, stored little-endian, so bit 0 of the first byte is bit 0 of w.  A row without bits
(an event) is no instruction word. -/
def decodeTableWord (nbits w : Nat) : Option Instr :=
  if nbits == 32 then (decode (bytesWord (wordBytes (BitVec.ofNat 32 w)))).map (·.instr) else none

end Sys2Proof
end

