-- ==== Sys2Proof/Machine/Bits.lean ====
section
/-!
DEFINITION. Bits: fields of words, sign extension, byte order and small list helpers that every other file uses
(spec/00_scope.md, R5 to R7).
-/

namespace Sys2Proof

/-- A 64-bit word from a number. -/
def word (n : Nat) : Word := BitVec.ofNat 64 n

/-- The word 1 or 0. -/
def flagWord (b : Bool) : Word := if b then 1 else 0

/-- The number 1 or 0. -/
def flagNat (b : Bool) : Nat := if b then 1 else 0

/-- All ones: what several instructions answer in place of a value. -/
def allOnes : Word := 0xFFFF_FFFF_FFFF_FFFF

/-- n bits of a number from bit lo up, w[lo+n-1 : lo] (R6). -/
def nbits (x lo n : Nat) : Nat := (x >>> lo) % 2 ^ n

/-- n bits of a word from bit lo up (R6). -/
def bits (w : Word) (lo n : Nat) : Nat := nbits w.toNat lo n

/-- One bit of a number. -/
def nbit (x i : Nat) : Bool := x.testBit i

/-- One bit of a word (R6). -/
def bit (w : Word) (i : Nat) : Bool := w.getLsbD i

/-- The word whose field at each bit position holds the number beside it. -/
def packNat (fs : List (Nat × Nat)) : Nat := fs.foldl (fun acc f => acc + f.2 <<< f.1) 0

/-- The same as a word. -/
def packWord (fs : List (Nat × Nat)) : Word := word (packNat fs)

/-- A word sets a bit outside a mask: a reserved bit is written (R6, R39). -/
def outside (w : Word) (mask : Nat) : Bool := w &&& ~~~(word mask) != 0

/-- A mask of n bits from bit lo up. -/
def maskAt (lo n : Nat) : Nat := (2 ^ n - 1) <<< lo

/-- x, an n-bit two's-complement number, as an integer (R7). -/
def sextNat (x n : Nat) : Int := if nbit x (n - 1) then (nbits x 0 n : Int) - 2 ^ n else nbits x 0 n

/-- x, an n-bit two's-complement number, extended to 64 bits (R7). -/
def sext (x n : Nat) : Word := BitVec.ofInt 64 (sextNat x n)

/-- Quotient rounded up. -/
def ceilDiv (a b : Nat) : Nat := (a + b - 1) / b

/-- a rounded up to a multiple of b. -/
def alignUp (a b : Nat) : Nat := ceilDiv a b * b

/-- A number held at a limit (R320, R325). -/
def heldAt (limit n : Nat) : Nat := min n limit

/-- Difference of two sequence numbers modulo 2^n (R89, R251). -/
def seqDiff (n : Nat) (a b : Nat) : Nat := (a + 2 ^ n - b % 2 ^ n) % 2 ^ n

/-- The bytes of a number, low byte first (R83). -/
def leBytes : Nat → Nat → List Byte
  | 0, _ => []
  | n + 1, x => BitVec.ofNat 8 x :: leBytes n (x / 256)

/-- A number from its bytes, low byte first (R83). -/
def leNat : List Byte → Nat
  | [] => 0
  | b :: bs => b.toNat + 256 * leNat bs

/-- The numbers lo, lo+1, ..., n of them. -/
def iota (lo n : Nat) : List Nat := (List.range n).map (lo + ·)

/-- A number put into a rising list without repeats. -/
def insertNat (a : Nat) : List Nat → List Nat
  | [] => [a]
  | x :: xs => if a < x then a :: x :: xs else if a = x then x :: xs else x :: insertNat a xs

/-- Every number of a list put into a rising list. -/
def insertAll (as xs : List Nat) : List Nat := as.foldl (fun l a => insertNat a l) xs

/-- The first element that satisfies a test, with its place. -/
def findIdx {α : Type} (p : α → Bool) : List α → Option (Nat × α)
  | [] => none
  | x :: xs => if p x then some (0, x) else (findIdx p xs).map fun r => (r.1 + 1, r.2)

/-- An entry put at the end of a list that does not hold it. -/
def addOnce {α : Type} [BEq α] (xs : List α) (n : α) : List α := if xs.contains n then xs else xs ++ [n]

/-- A list with its first element that satisfies a test changed. -/
def updFirst {α : Type} (p : α → Bool) (f : α → α) : List α → List α
  | [] => []
  | x :: xs => if p x then f x :: xs else x :: updFirst p f xs

/-- A list without its first element that satisfies a test. -/
def dropFirst {α : Type} (p : α → Bool) : List α → List α
  | [] => []
  | x :: xs => if p x then xs else x :: dropFirst p xs

/-- The value a key has in an association list. -/
def lookupNat {α : Type} (k : Nat) : List (Nat × α) → Option α
  | [] => none
  | (a, v) :: xs => if a = k then some v else lookupNat k xs

/-- An association list with one key set. -/
def setKey {α : Type} (k : Nat) (v : α) (xs : List (Nat × α)) : List (Nat × α) :=
  (k, v) :: xs.filter (fun p => p.1 != k)

/-- A vector with the entry at a number below its length replaced, and unchanged for another number. -/
def vset {α : Type} {n : Nat} (v : Vector α n) (i : Nat) (x : α) : Vector α n :=
  if h : i < n then v.set i x h else v

/-- The entry of a vector at a number, or a default. -/
def vget {α : Type} {n : Nat} (v : Vector α n) (i : Nat) (d : α) : α := v.toList.getD i d

/-- Pieces of n elements, in order. -/
def chunks {α : Type} (n : Nat) : Nat → List α → List (List α)
  | 0, _ => []
  | fuel + 1, xs => if xs.isEmpty then [] else xs.take n :: chunks n fuel (xs.drop n)

/-- The integer square root, bit by bit from bit k down. -/
def isqrtFrom : Nat → Nat → Nat → Nat
  | 0, n, r => if (r + 1) * (r + 1) ≤ n then r + 1 else r
  | k + 1, n, r => if (r + 2 ^ (k + 1)) * (r + 2 ^ (k + 1)) ≤ n then isqrtFrom k n (r + 2 ^ (k + 1)) else isqrtFrom k n r

/-- floor of the square root. -/
def isqrt (n : Nat) : Nat := isqrtFrom (n.log2 / 2 + 1) n 0

/-- One step of CRC-64 of ECMA-182, most significant bit first: the polynomial is added where the bit that leaves differs from b. -/
def crcBit (crc : Nat) (b : Bool) : Nat := (2 * crc) % 2 ^ 64 ^^^ 0x42F0_E1EB_A9EA_3693 * ((crc / 2 ^ 63 + b.toNat) % 2)

/-- CRC-64 of ECMA-182 over bytes, initial value zero, no reflection (R331, R338). -/
def crc64 (bs : List Byte) : Nat :=
  bs.foldl (fun crc b => [7, 6, 5, 4, 3, 2, 1, 0].foldl (fun c i => crcBit c (b.getLsbD i)) crc) 0

/-- ROT of a die (R9). -/
def rotOf (d : DieIx) : Nat := match d.val with | 0 => 0 | 1 => 1 | 2 => 2 | 3 => 3 | 4 => 0 | _ => 2

/-- ORIENT as the straps give it (R12, R13). -/
def orientWord (d : DieIx) : Word :=
  let port : Nat × Nat × Nat × Nat := match d.val with
    | 0 => (1, 3, 2, 0) | 1 => (0, 2, 1, 3) | 2 => (1, 3, 2, 0) | 3 => (0, 2, 1, 3) | 4 => (0, 2, 1, 3) | _ => (2, 0, 1, 3)
  packWord [(15, flagNat (4 ≤ d.val)), (12, d.val), (10, port.2.2.2), (8, port.2.2.1), (6, port.2.1), (4, port.1), (0, rotOf d)]

end Sys2Proof
end

