-- ==== Sys2Proof/Config.lean ====
section
/-!
DEFINITION. Config: the figures of the part (spec/00_scope.md, spec/01_machine.md) and the free values, which the manual
leaves open.  A free value is a constant with no body: nothing can be proved of what it is.
-/

namespace Sys2Proof.Config

/-- Bytes of scratchpad of a hub core (R3, R21). -/
def hubSpadBytes : Nat := 3 * 2 ^ 20
/-- Bytes of scratchpad of a stack core (R3, R21). -/
def stackSpadBytes : Nat := 12 * 2 ^ 20
/-- Bytes of instruction memory of a core (R21). -/
def imemBytes : Nat := 2 ^ 18
/-- Bytes of hub SRAM of a hub die (R3, R297). -/
def hubSramBytes : Nat := 96 * 2 ^ 20
/-- Bytes of DRAM beneath one lane (R297). -/
def laneBytes : Nat := 2 ^ 26
/-- Base of the scratchpads in the die physical map (R297). -/
def spadPhysBase : Nat := 0x1000_0000
/-- Distance between scratchpads in the die physical map (R297). -/
def spadPhysStep : Nat := 0x100_0000
/-- Base of the lane regions in the die physical map (R297). -/
def lanePhysBase : Nat := 0x10_0000_0000
/-- Records the ready store holds (R255). -/
def readyEntries : Nat := 4096
/-- The value an engine receives in place of an uncorrectable word (R323). -/
def poisonWord : Word := 0x7FE0_0000_7FE0_0000

/-- A 64-bit value the manual does not give, fresh for every value of the counter (DESIGN CHOICE, log 6). -/
opaque freeWord : Nat → Word
/-- A choice the manual does not make, fresh for every value of the counter (DESIGN CHOICE, log 8). -/
opaque freeBool : Nat → Bool
/-- Check byte i of a data beat: R318 names the code and gives no polynomial (DESIGN CHOICE, log 59). -/
opaque checkByte : List Byte → Nat → Byte
/-- n bytes of the SHAKE256 digest of a message: R349 and R350 name the function, whose standard is no part of the manual
(DESIGN CHOICE, log 14). -/
opaque shake256 (n : Nat) : List Byte → List Byte
/-- A Falcon-1024 signature of a message verifies under a public key (R349; DESIGN CHOICE, log 14). -/
opaque falconVerifies (key signature message : List Byte) : Bool
/-- The signature of a message under a private key (R350; DESIGN CHOICE, log 14). -/
opaque falconSign (key message : List Byte) : List Byte
/-- The private and the public key that a seed gives (R350; DESIGN CHOICE, log 14). -/
opaque falconKeys : List Byte → List Byte × List Byte
/-- The fused digest of the public key of firmware (R349), by die. -/
opaque keyDigest : Nat → List Byte
/-- The fused secret of a die (R350). -/
opaque fusedSecret : Nat → List Byte
/-- Bits 47:16 of the address at which the firmware of a die keeps its world map (R312; DESIGN CHOICE, log 92). -/
opaque worldMap : Nat → BitVec 32
/-- The serial number of the package (R350). -/
opaque packageSerial : Word

end Sys2Proof.Config
end

