-- ==== Sys2Proof/Machine/State.lean ====
section
/-!
DEFINITION. State: everything the manual gives the part, as plain data, and the state after reset.  INVENTORY.md lists
each piece with the rule that names it and its reset value; the notes/assumptions rows named here say what is the
model's own.
-/

namespace Sys2Proof.Machine

/-- Bytes by address: addresses strictly rising, no byte equal to what an unlisted address reads as (DESIGN CHOICE, log 4). -/
abbrev Mem := List Host.Cell

/-! ### Modes, causes, paths -/

/-- The mode of a cluster (R37). -/
inductive Mode where
  | user | handler
  deriving DecidableEq, Repr

/-- The trap causes 1 to 16 (R51). -/
inductive Cause where
  | udi | aut | aln | xlt | prm | hdl | lch | fpx | sqe | rng | bar | ecu | mck | wdg | pre | dbg
  deriving DecidableEq, Repr

/-- The path of an access (R45 PATH, R202). -/
inductive Path where
  | s | v | m | c | l | a | h
  deriving DecidableEq, Repr

/-- A pending asynchronous cause, its TVAL, and TCAUSE.PATH (R45, R52). -/
structure Pend where
  cause : Cause
  tval : Word
  path : Nat
  deriving DecidableEq, Repr

/-- What the word now issued did; read by BUNDLE_ISSUE (DESIGN CHOICE, log 1). -/
inductive Note where
  /-- it completed -/
  | done
  /-- it waits at its own PC -/
  | waited
  /-- it raised a synchronous cause before it took effect -/
  | trapped
  /-- it met ECU or PRM when its data returned (R33) -/
  | late
  deriving DecidableEq, Repr

/-! ### Locations -/

/-- Where a byte lives: the home of an access (R232, R296, R297). -/
inductive Loc where
  /-- the scratchpad of a core -/
  | spad (core : CoreIx) (a : Nat)
  /-- hub SRAM of a hub die, by die physical address -/
  | hub (die : DieIx) (a : Nat)
  /-- lane memory of a stack die, by die physical address -/
  | dram (die : DieIx) (a : Nat)
  /-- host physical memory, reached through the link of a hub (R315) -/
  | host (dev : DieIx) (a : Nat)
  /-- byte off of the send window of a port (R301) -/
  | send (die : DieIx) (port off : Nat)
  /-- byte off of the object rh exported by a die of the package (R310) -/
  | peer (die : DieIx) (rh : W32) (off : Nat)
  /-- byte pos of the byte image of the tensor rh exported by a die of the package (R183, R310) -/
  | tensor (die : DieIx) (rh : W32) (pos : Nat)
  /-- byte off of the object rh exported by a device of another package (R310) -/
  | span (pkg dev : Nat) (rh : W32) (off : Nat)
  deriving DecidableEq, Repr

/-! ### Continuation records -/

/-- A continuation record: four words (R245). -/
structure Record where
  w0 : Word
  w1 : Word
  w2 : Word
  w3 : Word
  deriving DecidableEq, Repr

/-- Where a record came from (R248). -/
inductive Source where
  | slot (k : Nat) | store
  /-- the second copy of a DUAL record that has started (R338) -/
  | shadow (pair : Nat)
  deriving DecidableEq, Repr

/-- A record an idle cluster has selected and not yet started (R249). -/
structure Taken where
  record : Record
  source : Source
  /-- the world of the queue or pusher (R312) -/
  secure : Bool
  /-- false when the record could not be read (R246) -/
  readable : Bool
  /-- address of the record where it was read from a queue -/
  addr : Word
  deriving DecidableEq, Repr

/-! ### Clusters -/

/-- The hardware loop registers of a cluster, level 0 the innermost (R75). -/
structure Loops where
  /-- LCNT0 to LCNT3 -/
  cnt : Vector W32 4
  /-- START of LEND0 to LEND3 -/
  start : Vector PC 4
  /-- END of LEND0 to LEND3 -/
  stop : Vector PC 4
  /-- LDEPTH -/
  depth : Nat
  deriving DecidableEq, Repr

/-- A FENCE that has issued and is not complete (R216, R217). -/
structure Fence where
  /-- its number in the order of issue -/
  seq : Nat
  scope : Scope
  /-- S V M C L A in bits 0 to 5 -/
  paths : BitVec 6
  mask : BitVec 16
  pc : PC
  /-- the loop registers before it issued, for a trap that records the FENCE (R218) -/
  loops : Loops
  /-- a later word of the cluster has issued -/
  passed : Bool
  /-- the mode it was issued in -/
  mode : Mode
  deriving DecidableEq, Repr

/-- An arrival of BARV that has been made; only the wait remains (R100). -/
structure BarvWait where
  core : CoreIx
  k : Nat
  phase : BitVec 16
  /-- the PC of the BARV -/
  pc : PC
  deriving DecidableEq, Repr

/-- What an access carried to a home beyond the die asks for. -/
inductive RemoteKind where
  /-- a load: bytes, sign extension -/
  | load (size : Nat) (signed : Bool)
  /-- a scalar atomic: operation, bytes, operand, compare value -/
  | atomic (op : AtomOp) (size : Nat) (b c : Word)
  /-- a vector atomic: operation code of VOP, type, operand bytes, where the old values go -/
  | vatomic (vop : Nat) (t : AtomType) (operand : List Byte) (old : Option Nat)
  deriving DecidableEq, Repr

/-- A scalar load or atomic of a cluster whose data or response has not returned (R213, R310). -/
structure Remote where
  seq : Nat
  kind : RemoteKind
  d : Reg
  va : Word
  loc : Loc
  cls : Cls
  /-- the tag of R213 -/
  tag : BitVec 6
  /-- applied at its execution point -/
  executed : Bool
  /-- old value, or old values of a vector atomic, low byte first -/
  old : List Byte
  /-- the home refused it: PRM, or ECU for uncorrectable data -/
  failed : Option Cause
  /-- the word issued as part of a bundle (R33) -/
  bundled : Bool
  /-- cycles it has waited for a die below READY (R347) -/
  age : Nat
  /-- TVAL of a cause it meets: its address, or that of an uncorrectable word (R310, R323) -/
  tval : Word
  /-- the link that leads into its home, and the number of its request on it (R340) -/
  link : Option LinkIx
  num : Nat
  /-- the link and number of the response that answers it (R340) -/
  resp : Option (LinkIx × Nat)
  deriving DecidableEq, Repr

/-- One store a DUAL copy has buffered, and whether it releases (R234, R338). -/
structure DualStore where
  va : Word
  bytes : List Byte
  cls : Cls
  rel : Bool
  deriving DecidableEq, Repr

/-- A copy of a DUAL record that a cluster runs (R338). -/
structure DualRun where
  pair : Nat
  primary : Bool
  /-- buffered stores in program order -/
  stores : List DualStore
  /-- the copy has reached EXIT -/
  ended : Bool
  /-- it trapped -/
  trapped : Bool
  /-- class of its EXIT -/
  cls : Cls
  deriving DecidableEq, Repr

/-- An instruction word that a copy has overwritten and that no fence has settled (R29): its offset, the old word, the moment at
which the copy landed, and the copy's number and class where the cluster itself issued it. -/
structure Stale where
  off : Nat
  old : W32
  landed : Nat
  own : Option (Nat × Cls)
  deriving DecidableEq, Repr

/-- A cluster (R21, R36, R37, R45, R75, R127, R155, R326). -/
structure Cluster where
  /-- g0 to g31 (R36) -/
  regs : Vector Word 32
  /-- the handler bank (R326) -/
  bank : Vector Word 32
  pc : PC
  mode : Mode
  solo : Bool
  pmode : Bool
  pworld : Bool
  tcause : Word
  tepc : Word
  tval : Word
  thvec : Word
  fpflg : BitVec 5
  fpxen : BitVec 5
  /-- LCNT0 to LCNT3, LEND0 to LEND3, LDEPTH (R75) -/
  loops : Loops
  vlca : Word
  vlcb : Word
  /-- the current record (R264) -/
  record : Option Record
  /-- the number current when the record started: commands with smaller numbers belong to earlier records (R128) -/
  begun : Nat
  taken : Option Taken
  /-- the word at PC waits for something (R93, R100, R218) -/
  waiting : Bool
  /-- the number of the ring wait it is in, or 0 (R93) -/
  since : Nat
  /-- the next word has S = 1 and waits for its bundle (R30) -/
  syncWait : Bool
  /-- cycles in sync wait (R34) -/
  syncAge : Nat
  /-- stopped by a double trap until a reset of the die (R327) -/
  stopped : Bool
  /-- held by a pre-emption (R330) -/
  held : Bool
  /-- took PRE under R330 and may save by CSAVE (R334) -/
  saver : Bool
  pend : List Pend
  /-- DBG is due after the next word (R337 STEP) -/
  step : Bool
  fences : List Fence
  /-- the wait of a BARV of user mode, and of handler mode -/
  barv : Option BarvWait
  hbarv : Option BarvWait
  /-- cycles an IDLE still waits (R328) -/
  idle : Option Nat
  /-- the WSCALL request it waits for (R317) -/
  wstag : Option Nat
  remote : Option Remote
  atag : BitVec 6
  /-- an atomic whose request was carried and whose word a third detection then dropped: its PC and tag, under which it is asked
  for again (R213, R321) -/
  retag : Option (PC × BitVec 6)
  /-- replays of the word at PC (R321) -/
  replays : Nat
  /-- instruction words a copy has overwritten and no fence has settled (R29), the newest first -/
  stale : List Stale
  dual : Option DualRun
  /-- its SETC of VBTDRV waits for the result of the beat (R354) -/
  beatWait : Bool
  /-- its CKPT waits for the commit, and the register that will hold NUM (R341) -/
  ckWait : Option Reg
  deriving DecidableEq, Repr

/-! ### Rings and barriers -/

/-- An agent that waits for a ring slot (R93). -/
inductive RingWaiter where
  /-- a cluster, and the number of its wait -/
  | cluster (c : CluIx) (since : Nat)
  | engine (e : Nat)
  deriving DecidableEq, Repr

/-- A ring object (R89, R90). -/
structure Ring where
  cfg : Word
  clm : BitVec 16
  head : BitVec 16
  tail : BitVec 16
  /-- fill bit of each slot -/
  fill : BitVec 256
  /-- release bit of each slot -/
  rel : BitVec 256
  waiters : List RingWaiter
  deriving DecidableEq, Repr

/-- A barrier (R95, R96). -/
structure Barrier where
  phase : BitVec 16
  members : List CluIx
  arrived : List CluIx
  leaving : List CluIx
  deriving DecidableEq, Repr

/-! ### Vector unit and Horizon -/

/-- A ring slot an operand lies in: ring, sequence (R137, R142). -/
structure RingRef where
  k : Nat
  s : BitVec 16
  deriving DecidableEq, Repr

/-- The operations of vector commands (R147 to R152). -/
inductive VecOp where
  | add | sub | mul | mac | min | max | abs | neg | scale
  | exp | log | rcp | rsqrt | tanh | sigm
  | cvt | cvtz | sum | rmax | dot
  | cmpeq | cmplt | cmple | sel | and | or | xor | shl | shr
  | copy | fill | pred
  deriving DecidableEq, Repr

/-- What a command of the vector unit's queue does (R143, R158, R160). -/
inductive VecKind where
  /-- a vector command: operation, immediate form, element type -/
  | vec (op : VecOp) (imm : Bool) (t : ElemType)
  /-- HZPSH to a slot; in the .R form the checkpoint is the low half of gB -/
  | push (k : Nat) (fromReg : Bool)
  /-- HZRD of a slot -/
  | result (k : Nat)
  deriving DecidableEq, Repr

/-- A ring source that was unfilled when a later command entered: the command's number, and whether it is the second source
(R229). -/
abbrev Exempt := List (Nat × Bool)

/-- A queued vector or Horizon command (R143, R158, R160). -/
structure VCmd where
  seq : Nat
  cl : CluIx
  cls : Cls
  kind : VecKind
  /-- gA and gB at issue -/
  ga : Word
  gb : Word
  /-- concrete operand addresses known at issue -/
  dst : Nat
  s1 : Nat
  s2 : Nat
  dring : Option RingRef
  aring : Option RingRef
  bring : Option RingRef
  exempt : Exempt
  started : Bool
  /-- what it will write, once it has read its operands -/
  writes : List (Nat × List Byte)
  flags : BitVec 5
  /-- the checkpoint of an HZPSH once read -/
  value : W32
  deriving DecidableEq, Repr

/-- A Horizon series (R130 to R134): the state a slot or a lane slice keeps. -/
structure Series where
  n : Nat
  lim : Bool
  stag : Bool
  nzd : Bool
  conv : Bool
  /-- S_n and T_n, as F32 codes -/
  s : W32
  t : W32
  /-- the last DEPTH + 1 checkpoints, newest first -/
  hist : List W32
  deriving DecidableEq, Repr

/-- The parameters of a series (R130). -/
structure SeriesCfg where
  mode : Nat
  depth : Nat
  minc : Nat
  maxc : Nat
  atol : W32
  rtol : W32
  floor : W32
  stagt : W32
  deriving DecidableEq, Repr

/-- A Horizon slot of a core (R131). -/
structure HzSlot where
  ctl : Word
  tol : Word
  lim : Word
  ser : Series
  deriving DecidableEq, Repr

/-! ### Translation -/

/-- A cached leaf translation (R304). -/
structure TlbEntry where
  /-- va div 2^16 of a 64 KiB page, va div 2^21 of a 2 MiB page -/
  vpn : Nat
  big : Bool
  leaf : Word
  deriving DecidableEq, Repr

/-- A walk of an engine's access, waiting or in flight (R304, R305). -/
structure Walk where
  core : CoreIx
  va : Nat
  write : Bool
  /-- copy engine number, 31 for the matrix engine, or 30 for one that nothing waits for any more (R176) -/
  eng : Nat
  deriving DecidableEq, Repr

/-! ### Matrix engine -/

/-- A tensor-store object or memory region as a validation fixed it (R307, R311). -/
structure Obj where
  die : DieIx
  /-- words 0 to 4 of the handle entry -/
  w0 : Word
  w1 : Word
  w2 : Word
  w3 : Word
  w4 : Word
  /-- extent offsets in MiB -/
  ext : List Nat
  deriving DecidableEq, Repr

/-- An outstanding SQLD (R169). -/
structure Sqld where
  seq : Nat
  cl : CluIx
  cls : Cls
  addr : Nat
  left : Nat
  deriving DecidableEq, Repr

/-- An MXIDX that has entered the range checker and waits there or for banks (R167, R228). -/
structure IdxWait where
  seq : Nat
  cl : CluIx
  cls : Cls
  addr : Nat
  exempt : Exempt
  /-- the planes have swapped since it entered, so that the table it loads is now the active one -/
  swapped : Bool
  deriving DecidableEq, Repr

/-- Who launched a nest, and the class of its accesses (R168, R299). -/
structure Launch where
  seq : Nat
  cl : CluIx
  cls : Cls
  user : Bool
  obj : Option Obj
  exempt : Exempt
  deriving DecidableEq, Repr

/-- The matrix engine of a hub core (R163 to R176). -/
structure Matrix where
  act : Vector Word 32
  shd : Vector Word 32
  iact : Vector (BitVec 16) 128
  ishd : Vector (BitVec 16) 128
  /-- 128 x 256 F32, row-major, 4 bytes each -/
  acc : Mem
  /-- uncorrectable 64-bit words of the accumulator, by byte offset div 8 (R318) -/
  accBad : List Nat
  sq : List (BitVec 16)
  sqlds : List Sqld
  /-- the MXIDX that has not read its table yet (R228) -/
  idxq : Option IdxWait
  frozen : Bool
  sqef : Bool
  flt : Bool
  fkind : Bool
  run : Option Launch
  armed : Option Launch
  fa : Word
  chunk : Nat
  idx : Vector Nat 6
  /-- translations the running tile step has obtained -/
  xl : List TlbEntry
  /-- the accumulator and flags as the running tile step found them, and the scales it has taken, for a fault that freezes the engine
  at the step's start (R171) -/
  stepAcc : Mem
  stepFlags : BitVec 5
  stepSq : List (BitVec 16)
  /-- scales taken by chunks that a fault has undone: the step takes them again before those of the queue (R169, R171; DESIGN CHOICE,
  log 90) -/
  undone : List (BitVec 16)
  /-- flags of the running nest's roundings (R165) -/
  flags : BitVec 5
  /-- the last tile step is done; the nest ends when its C writes have performed -/
  drained : Bool
  /-- a pre-emption froze it, so that it runs on when the context is restored (R178) -/
  cxFrz : Bool
  deriving DecidableEq, Repr

/-- Who makes a tile transfer (R230). -/
inductive TileOwner where
  | nest
  | drain (cl : CluIx) (cls : Cls)
  | copy (e : Nat) (cls : Cls)
  deriving DecidableEq, Repr

/-- A tile transfer that waits for its banks or holds them (R230). -/
structure Tile where
  seq : Nat
  owner : TileOwner
  writes : List (Nat × List Byte)
  locked : Bool
  exempt : Exempt
  /-- the number current when it asked for its banks; none while the range checker holds it -/
  asked : Option Nat
  deriving DecidableEq, Repr

/-! ### Copy engines -/

/-- What a queued copy command is (R197). -/
inductive CopyKind where
  | cpy | cpyp | cpinv | cpnest
  deriving DecidableEq, Repr

/-- A checked nest (R181, R182, R187). -/
structure Nest where
  skind : Nat
  dkind : Nat
  /-- address, or position in the object's byte image, or offset -/
  src : Nat
  dst : Nat
  sh : W32
  dh : W32
  sobj : Option Obj
  dobj : Option Obj
  /-- package and device of a tensor beyond the package -/
  sfar : Option (Nat × Nat)
  dfar : Option (Nat × Nat)
  dcore : Nat
  deng : Nat
  trips : List Nat
  sstr : List Int
  dstr : List Int
  run : Nat
  /-- bytes in all of an inline copy, whose last innermost copy is shorter (R185) -/
  total : Option Nat
  ring : Nat
  rm : Nat
  rlv : Nat
  nar : Nat
  stype : Nat
  dtype : Nat
  rot : Bool
  smode : Bool
  cscale : BitVec 16
  welem : Nat
  deriving DecidableEq, Repr

/-- A queued copy command (R180). -/
structure CopyCmd where
  seq : Nat
  cl : CluIx
  cls : Cls
  kind : CopyKind
  ga : Word
  gb : Word
  user : Bool
  /-- OWNTAG of the issuing core at issue (R336) -/
  tag : BitVec 16
  nest : Option Nest
  /-- indices of the next innermost copy, level 0 first (R192) -/
  idx : List Nat
  /-- the ring unit now running has its slot at this sequence (R190) -/
  unit : Option RingRef
  /-- every innermost copy of the unit is done and its fill is due -/
  fillDue : Bool
  /-- every innermost copy is done, or the block was refused (R189) -/
  finished : Bool
  /-- an innermost copy has been read and its writes have not all landed -/
  flying : Bool
  /-- what the innermost copy now landing adds to SAT, NF and LOW (R192) -/
  counts : Nat × Nat × Nat
  exempt : Exempt
  deriving DecidableEq, Repr

/-- An entry of the parameter-block cache (R188). -/
structure BlockEntry where
  /-- gA of the CPYP: an address, or a command-store slot with bit 63 set -/
  key : Word
  secure : Bool
  block : List Word
  deriving DecidableEq, Repr

/-- A copy engine (R180, R188, R189, R195, R196). -/
structure Engine where
  queue : List CopyCmd
  hold : Bool
  pause : Bool
  supp : Bool
  fa : Word
  /-- CPERR: cause, value, cluster -/
  err : Option Cause
  errVal : W32
  errClu : Nat
  scfg : Word
  satt : Nat
  nft : Nat
  lowt : Nat
  satw : Nat
  loww : Nat
  satev : Bool
  lowev : Bool
  /-- cycles of the narrowing window that have passed (R195) -/
  winAge : Nat
  /-- the 4 KiB command store (R184) -/
  store : Mem
  /-- most recently used first -/
  cache : List BlockEntry
  /-- cycles for which the source of its next copy has been on a die below READY (R347) -/
  readAge : Option Nat
  /-- an XLT that a walk ended with, for the command of a number, which waits until no other command stands before it: the command and the
  address (R189, R192) -/
  stopAt : Option (Nat × Nat)
  deriving DecidableEq, Repr

/-! ### Cores -/

/-- An answered tag of an execution point (R213). -/
structure TagRec where
  cl : CluIx
  tag : BitVec 6
  old : List Byte
  deriving DecidableEq, Repr

/-- A context operation in progress (R329, R330). -/
inductive CtxOp where
  | none
  /-- a save that waits for the units to stop, image address, TRAP -/
  | saving (img : Nat) (trap : Bool)
  /-- PRE has been delivered; the handler saves by CSAVE -/
  | trapping (img : Nat)
  /-- a restore or clear requested -/
  | restoring (img : Nat)
  | clearing
  /-- stopped for a checkpoint of the die (R339) -/
  | checkpoint
  deriving DecidableEq, Repr

/-- A core (R21 and the per-core registers of R40). -/
structure Core where
  spad : Mem
  /-- uncorrectable 64-bit words of the scratchpad, by address div 8 (R318) -/
  spadBad : List Nat
  imem : Mem
  imemBad : List Nat
  /-- dirty 4 KiB granules of the scratchpad and of instruction memory (R333) -/
  sdirty : List Nat
  idirty : List Nat
  /-- the core is in the secure world (R312) -/
  secure : Bool
  working : Bool
  /-- NCPE of CORECAP for a stack core (R42) -/
  ncpe : Nat
  syncwd : Word
  preq : Word
  cxLen : W32
  cxErr : Nat
  /-- the save in progress has failed and may be tried again (R329, R330) -/
  cxFail : Bool
  cxLop : Nat
  cxDone : Bool
  cxPend : Bool
  ctxOp : CtxOp
  /-- OWNTAG before the save in progress -/
  cxTag : BitVec 16
  hlim : Nat
  dbgStep : Bool
  rings : Vector Ring 64
  bars : Vector Barrier 96
  schen : BitVec 4
  ptroot : Word
  htcfg : Word
  pitcfg : Word
  xfqb : Word
  xfHead : W32
  xfTail : W32
  /-- replayable faults recorded and unanswered, and those that wait for room, each with its level; oldest first (R305) -/
  xfq : List (Walk × Nat)
  xfWait : List (Walk × Nat)
  /-- cycles since the last fault message (R305); none before the first -/
  xfMsg : Option Nat
  /-- the last answer written to XFRESP and not yet acted on -/
  xfAns : Option Bool
  /-- XFRESP as last written -/
  xfresp : Word
  owntag : BitVec 16
  tlb : List TlbEntry
  vq : List VCmd
  hz : Vector HzSlot 16
  mx : Matrix
  ce : Vector Engine 20
  tiles : List Tile
  deriving DecidableEq, Repr

/-! ### Lanes -/

/-- An entry of the format table (R270). -/
structure FmtEntry where
  ctl : Word
  tol : Word
  lim : Word
  deriving DecidableEq, Repr

/-- The value one slice delivers to the reduction tree (R135, R269). -/
structure SliceRes where
  row : Nat
  k : Nat
  v : Nat
  value : W32
  planes : Nat
  ser : Series
  poison : Bool
  flags : BitVec 5
  deriving DecidableEq, Repr

/-- The lane instructions that are broadcast (R273). -/
inductive LKind where
  | lfmt | lmcst | ldot | lhzc | lrsync | lsafe | lrtgt
  deriving DecidableEq, Repr

/-- A lane macro-instruction from issue to its last delivery (R273, R287). -/
structure LMacro where
  seq : Nat
  cl : CluIx
  cls : Cls
  kind : LKind
  gd : Word
  ga : Word
  gb : Word
  /-- the format entry it uses, as the issue view held it (R272) -/
  entry : FmtEntry
  /-- Horizon defaults and delivery mode at its place in broadcast order (R288, R289) -/
  hzdef : Word
  rmode : Nat
  obj : Option Obj
  dring : Option RingRef
  dbase : Nat
  /-- the entry selected, and whether the lanes' copy of it cannot be corrected (R271, R318) -/
  fe : Nat
  feBad : Bool
  results : List SliceRes
  /-- results delivered, as 4 x row + vector -/
  delivered : List Nat
  /-- an LMCST whose bytes are held in every target lane (R286) -/
  landed : Bool
  flags : BitVec 5
  /-- replays after parity errors: lane, count (R322) -/
  replays : List (Nat × Nat)
  deriving DecidableEq, Repr

/-- A lane's progress on the slice it reads (R269, R135). -/
structure LaneRun where
  lane : Nat
  row : Nat
  /-- planes read -/
  p : Nat
  /-- the bytes of the slice read so far: scales, then planes -/
  data : List Byte
  /-- one series per named vector -/
  sers : List Series
  /-- flags of the vector's roundings -/
  flags : List (BitVec 5)
  deriving DecidableEq, Repr

/-- The lanes, reduction tree and format table of a stack (R268 to R291). -/
structure Lanes where
  lctl : Word
  lpois : Nat
  lpfirst : Word
  hzConv : Nat
  hzStag : Nat
  hzNzd : Nat
  hzLim : Nat
  lplh : Vector Nat 8
  lpcnt : Nat
  /-- LHZDEF and LRMODE, as the lanes hold them and as the issue view holds them -/
  lhzdef : Word
  lrmode : Word
  issHzdef : Word
  issRmode : Word
  plane0 : Vector FmtEntry 64
  plane1 : Vector FmtEntry 64
  apl : Bool
  iss0 : Vector FmtEntry 64
  iss1 : Vector FmtEntry 64
  issApl : Bool
  /-- uncorrectable words of the format tables: entry + 64 in plane 1, word of the entry (R318) -/
  fmtBad : List (Nat × Nat)
  /-- the lane issue buffer, oldest first -/
  buf : List LMacro
  /-- clusters whose macros wait for room in it, with the numbers of their waits, oldest first (R273) -/
  waiters : List (CluIx × Nat)
  /-- macros broadcast and not yet finished, oldest first -/
  live : List LMacro
  /-- number of macros broadcast before the first of `live` -/
  base : Nat
  /-- macros each lane has completed -/
  done : Vector Nat 1024
  runs : List LaneRun
  /-- activation buffers: byte b of lane l at 8192 l + b -/
  abuf : Mem
  intv : Nat
  syncn : Nat
  safen : Nat
  wdr : Bool
  prep : Bool
  /-- cycles since a pre-emption asked for a safe point -/
  prepAge : Nat
  /-- lanes stopped at a safe point (R275) -/
  stopped : Bool
  /-- macros whose lanes are done and that still deliver rows -/
  tail : List LMacro
  deriving DecidableEq, Repr

/-! ### Scheduler -/

/-- The state of a queue slot (R252 STATE). -/
inductive SlotState where
  | free | mapping | active | unmapping
  deriving DecidableEq, Repr

/-- A hardware queue slot (R251 to R254). -/
structure QSlot where
  st : SlotState
  qnum : Nat
  devq : Bool
  map : Bool
  head : W32
  tail : W32
  logn : Nat
  rbase : Word
  hdr : Word
  /-- mapped by a secure cluster (R312) -/
  secure : Bool
  /-- core whose translation the mapping uses -/
  core : CoreIx
  /-- TAIL of each notify held while MAPPING, oldest first (R254) -/
  heldTails : List W32
  /-- an unmap asked for while MAPPING (R253) -/
  unmapDue : Bool
  /-- when the record at HEAD became a candidate, and how far it has aged (R249) -/
  since : Nat
  aged : Nat
  deriving DecidableEq, Repr

/-- A record in the ready store (R255). -/
structure Ready where
  record : Record
  secure : Bool
  since : Nat
  aged : Nat
  deriving DecidableEq, Repr

/-- One pair of runs of a DUAL record (R338). -/
structure DualPair where
  id : Nat
  record : Record
  secure : Bool
  /-- 1 for the first attempt, 2 for the second -/
  attempt : Nat
  primary : Option CluIx
  shadow : Option CluIx
  /-- cores an earlier attempt used -/
  used : List CoreIx
  /-- both copies have reached EXIT with equal signatures: the primary's stores perform, and its shadow is gone -/
  agreed : Bool
  deriving DecidableEq, Repr

/-- A WSCALL request (R317). -/
structure WsReq where
  cl : CluIx
  seq : Nat
  /-- the tag by which the cluster finds it again -/
  tag : Nat
  user : Bool
  secure : Bool
  lid : Nat
  ga : Word
  gb : Word
  /-- what firmware will answer, once a service has been performed (R355) -/
  result : Option Word
  reply : Option Word
  deriving DecidableEq, Repr

/-- A cached handle entry (R311). -/
structure HEntry where
  slot : Nat
  words : List Word
  ext : List Nat
  deriving DecidableEq, Repr

/-- A write to a send window, of a frame that the port has not taken: whose it is, its path and class, the number of its command or of
the moment, and whether a fence has put it before the S and A accesses that its cluster made afterwards (R216, R217, R236, R240). -/
structure Writer where
  cl : CluIx
  path : Path
  cls : Cls
  num : Nat
  fenced : Bool
  deriving DecidableEq, Repr

/-- An Ethernet port of a hub die (R301 to R303). -/
structure EthPort where
  /-- frame buffer of the send window -/
  buf : Mem
  /-- length of the frame the port has been asked to send and has not taken -/
  txLen : Option Nat
  /-- the writes to its window since it last took a frame (R217, R240) -/
  writers : List Writer
  cfg : Word
  head : W32
  tail : W32
  full : Nat
  big : Nat
  bad : Nat
  mac : BitVec 48
  /-- length of a kept frame written and not yet committed -/
  rxLen : Option Nat
  deriving DecidableEq, Repr

/-- The last entry of the error log, for merging (R325). -/
structure LogLast where
  kind : Nat
  loc : Word
  addr : Nat
  count : Nat
  deriving DecidableEq, Repr

/-! ### Flits -/

/-- What a flit carries besides a write: the request of a load or atomic with its tag, a read of an engine, or the response to the
request that had a number on a link (R213, R238, R340). -/
inductive FlitMsg where
  | write
  | request (kind : RemoteKind) (tag : BitVec 6)
  | read (n : Nat)
  | response (link : LinkIx) (request : Nat)
  deriving DecidableEq, Repr

/-- An access or response that a link end sends and keeps in its send log (R340). -/
structure Flit where
  seq : Nat
  cl : CluIx
  /-- 0 for the cluster itself, e + 1 for copy engine e, 32 for the matrix engine -/
  agent : Nat
  path : Path
  cls : Cls
  /-- virtual address of the access -/
  va : Nat
  dst : Loc
  bytes : List Byte
  /-- the operation and type of a reduction store -/
  red : Option (Nat × AtomType)
  /-- OWNTAG carried by a copy (R336) -/
  tag : Option (BitVec 16)
  /-- the link it is sent on, the die that sends it there, and the number on it of the last of its flits of 256 B -/
  link : Option LinkIx
  sender : DieIx
  num : Nat
  /-- the die it comes from, and its number on the first link of its way -/
  source : DieIx
  first : Nat
  /-- how many flits of 256 B it takes (R318, R340) -/
  nums : Nat
  msg : FlitMsg
  /-- cycles it has waited for a die below READY (R347) -/
  age : Nat
  /-- a neighbour sends it again after a warm reset of its home, in the order of the numbers (R342) -/
  replay : Bool
  deriving DecidableEq, Repr

/-- A number that a link end has given since the last checkpoint of its die: the last of `nums` flits, the die that the access came
from, and its number on its first link (R340, R342). -/
structure Sent where
  num : Nat
  nums : Nat
  source : DieIx
  first : Nat
  deriving DecidableEq, Repr

/-- One end of a link: numbers of flits sent from it and applied at it, and its send log (R340). -/
structure LinkEnd where
  sent : Nat
  /-- the numbers given since the die's last checkpoint, and those of them that a warm reset gives again (R342) -/
  since : List Sent
  again : List Sent
  /-- every flit up to this number has been applied here -/
  applied : Nat
  /-- numbers above it that have been applied -/
  early : List Nat
  log : List Flit
  /-- the log was three-quarters full and asked for a checkpoint -/
  ckAsked : Bool
  /-- numbers the far end has reported -/
  reported : Nat
  fcnt : Nat
  /-- cycles this end's outbound direction has waited at its floor (R294) -/
  floorAge : Nat
  deriving DecidableEq, Repr

/-! ### Checkpoints and the die -/

/-- The units of a core that a context image holds (R331 sections 5 to 10). -/
structure UnitSave where
  ix : CoreIx
  core : Core
  lanes : Lanes
  /-- the clusters, for what the units' commands say of them -/
  clusters : List Cluster
  deriving DecidableEq, Repr

/-- What the sections of an image hold (R331). -/
structure Image where
  /-- cluster number, its 50 words -/
  clus : List (Nat × List Word)
  /-- section number, its decoded words -/
  units : List (Nat × List Word)
  /-- granules of the scratchpad and of instruction memory: number, 512 words -/
  spad : List (Nat × List Word)
  imem : List (Nat × List Word)
  deriving DecidableEq, Repr

/-- A committed checkpoint (R339). -/
structure Ckpt where
  num : W32
  /-- each core's image -/
  images : List (UnitSave × Image)
  /-- clusters whose CKPT this checkpoint completes, recorded at the next word (R341) -/
  issuers : List (CluIx × Cluster)
  hub : Mem
  /-- the die's end of each of its links: numbers applied and sent (R339, R340) -/
  ends : List (LinkIx × LinkEnd)
  /-- the scheduler of the die: slots, ready store, reserved entries, dual runs that wait for clusters -/
  qslots : Vector QSlot 16
  store : List Ready
  resv : List Loc
  duals : List DualPair
  eth : Vector EthPort 3
  /-- answered tags of the die's execution points (R213) -/
  tags : List TagRec
  deriving DecidableEq, Repr

/-- A column migration in progress (R282). -/
structure Migration where
  col : Nat
  spare : Nat
  /-- asked for by WSCALL service 0x21 (R355) -/
  retire : Bool
  deriving DecidableEq, Repr

/-- A die (R10 and the per-die registers of R40). -/
structure Die where
  orient : Word
  cycle : Word
  /-- cycles counted since power-on, for waits (DESIGN CHOICE, log 9) -/
  now : Nat
  cores : Nat
  copye : Nat
  spcol : Nat
  lcol : Nat
  lanesN : Nat
  hub : Mem
  hubBad : List Nat
  dram : Mem
  /-- uncorrectable 128 B data beats, by address div 128 (R319) -/
  dramBad : List Nat
  /-- the two rows that the shadow of each bank group holds, newest first: lane, rows by address div 2,048.  Their data is that of the
  DRAM, which every write keeps so (R242, R277) -/
  shadows : List (Nat × List Nat)
  /-- uncorrectable 64-bit words of the shadows, by address div 8 (R318) -/
  shadowBad : List Nat
  -- boot (R347 to R350)
  stage : Nat
  bootErr : Nat
  ready : Bool
  svn : W32
  minsvn : Nat
  /-- the firmware image as the boot ROM finds it: header, body, signature, public key; none where it cannot be read (R349) -/
  image : Option (List Byte)
  /-- the measurement of the running image (R350) -/
  measure : List Byte
  /-- DRAM or hub SRAM passes its part of the tests of boot, the buses apart -/
  memTestOk : Bool
  linksOk : Bool
  /-- cycles since the stage was entered -/
  stageAge : Nat
  attest : Option (List Byte)
  -- errors (R320, R324, R325)
  ete : Bool
  dramc : Nat
  hubc : Nat
  spc : Nat
  regc : Nat
  unc : Nat
  poisn : Nat
  scrub : Word
  elbase : Word
  elWr : BitVec 24
  elRd : BitVec 24
  elOvf : Nat
  logLast : Option LogLast
  -- checkpoints (R339)
  ckcfg : Word
  ckNum : W32
  ckBusy : Bool
  ckValid : Bool
  /-- the slots that lie in this die's DRAM, of the dies whose home it is, newest first (R339) -/
  ckSlots : List (DieIx × Ckpt)
  /-- cycles since the last checkpoint -/
  ckAge : Nat
  -- dual execution (R338)
  dualFirst : W32
  dualSecond : W32
  duals : List DualPair
  -- scheduler (R252)
  agel : Nat
  qtbase : Word
  notify : Word
  ndrop : Nat
  badrec : Nat
  qslots : Vector QSlot 16
  store : List Ready
  /-- block addresses that hold a reserved entry -/
  resv : List Loc
  /-- places on dies below READY that accesses of the scheduler wait for, and for how many cycles (R347) -/
  schedAge : List (Loc × Nat)
  /-- an access of the scheduler has to wait in the step under way -/
  schedMiss : Bool
  /-- the source that last supplied a record, per level -/
  lastSrc : Vector Nat 4
  -- translation (R304, R311)
  walkWait : List Walk
  walks : List Walk
  hcache : List HEntry
  icache : List (Nat × Word)
  wcache : List (Nat × Bool)
  -- columns (R279, R282, R344)
  levels : List (Nat × Nat)
  cremap : Word
  /-- CREMAP as the fuses hold it, applied at a cold reset (R344, R355) -/
  cremapFused : Word
  /-- spares that are never used again -/
  lost : List Nat
  /-- logical columns retired with no spare left, fused off at the next cold reset, and home ranks fused off (R345) -/
  runOn : List Nat
  fusedOff : List Nat
  mig : Option Migration
  halfDuty : List Nat
  /-- answered tags of the execution points of the die (R213) -/
  tags : List TagRec
  /-- bank groups granted a normal burst, for the record (R276) -/
  bursts : Nat
  refreshes : Nat
  -- vertical buses (R343, R346, R353)
  vbsel : Nat
  /-- repair fields in force: (site, group, field) -/
  vbrep : List (Nat × Nat × BitVec 16)
  vbpend : List (Nat × Nat × BitVec 16)
  vbfused : List (Nat × Nat × BitVec 16)
  /-- open connections and connections stuck at 1: (site, connection) -/
  vbopen : List (Nat × Nat)
  vbstuck : List (Nat × Nat)
  vbtdrv : Word
  vbtrcv : Word
  /-- a test beat that has been asked for and has not run: site, VBTDRV (R354) -/
  beat : Option (Nat × Word)
  tectl : Word
  test : Word
  /-- when each logical column last had compute queued or a normal request, by `now` (R346) -/
  colUse : List (Nat × Nat)
  /-- sites the test engine has passed in the present full pass (R346) -/
  tested : List Nat
  -- power (R352)
  pwrcap : BitVec 16
  pwrst : Word
  /-- cycles since the last estimate of power (R352) -/
  powAge : Nat
  -- host-only registers (R315), hub dies
  mwin : Vector Word 128
  ethceil : Word
  spceil : Word
  mwdrop : Nat
  -- secure-only registers (R313)
  wmapb : Word
  blkw : BitVec 24
  mbRun : Bool
  spnum : BitVec 10
  ws : List WsReq
  eth : Vector EthPort 3
  lanes : Lanes
  deriving DecidableEq, Repr

/-! ### Links and the fabric -/

/-- A Dowel link (R292 to R295). -/
structure Link where
  share : Nat
  queue : List Nat
  age : Nat
  /-- a turn that has started and not taken effect: its share, and whether it was forced -/
  turning : Option (Nat × Bool)
  /-- cycles of dead time left -/
  dead : Nat
  endA : LinkEnd
  endB : LinkEnd
  /-- failed transmissions of the flit being sent: the first, and its failed retries (R318) -/
  retries : Nat
  retraining : Bool
  deriving DecidableEq, Repr

/-- A reduction store held in a Span switch (R212). -/
structure MergeEntry where
  seq : Nat
  dst : Loc
  vop : Nat
  t : AtomType
  bytes : List Byte
  /-- the stores it holds: cluster, class, number -/
  from_ : List (CluIx × Cls × Nat)
  age : Nat
  /-- it has left the switch for the home -/
  forwarded : Bool
  deriving DecidableEq, Repr

/-! ### Turns -/

/-- A soft error or other physical event that the environment brings about (R318 to R323, R353). -/
inductive Upset where
  | spadWord (core : CoreIx) (w : Nat)
  | imemWord (core : CoreIx) (w : Nat)
  | hubWord (die : DieIx) (w : Nat)
  | dramBeat (die : DieIx) (b : Nat)
  /-- an error of a correcting code's reach: 0 DRAM, 1 hub SRAM, 2 scratchpad and instruction memory, 3 others -/
  | corrected (die : DieIx) (which : Nat) (loc : Word)
  /-- a register structure of a cluster (R321) -/
  | registers (cl : CluIx)
  /-- a word of a matrix accumulator, of a format table (entry + 64 in plane 1, word) and of a row shadow (R318) -/
  | accWord (core : CoreIx) (w : Nat)
  | fmtWord (die : DieIx) (e w : Nat)
  | shadowWord (die : DieIx) (w : Nat)
  | openConn (die : DieIx) (site conn : Nat)
  | stuckConn (die : DieIx) (site conn : Nat)
  /-- the facts the boot ROM and the tests of boot will find (R347, R349) -/
  | bootFacts (die : DieIx) (image : Option (List Byte)) (memOk linksOk : Bool)
  deriving DecidableEq, Repr

/-- What a device of another package asks of an object that a die exports. -/
inductive SpanOp where
  | read (n : Nat)
  | write (bytes : List Byte)
  | atomic (kind : RemoteKind)
  deriving DecidableEq, Repr

/-- An access that arrives over Span from another package (R310). -/
structure SpanAccess where
  rh : W32
  /-- offset in a region, or position in the byte image of a tensor -/
  off : Nat
  tensor : Bool
  /-- the world of the requester -/
  secure : Bool
  op : SpanOp
  deriving DecidableEq, Repr

/-- One move of the part or of its surroundings (DESIGN CHOICE, log 1). -/
inductive Turn where
  /-- the cluster issues its next word -/
  | issue (c : CluIx)
  /-- an event row of the opcode table takes place -/
  | event (i : Instr)
  /-- an MXIDX that the range checker has released reads its table (R167, R228) -/
  | readIndex (core : CoreIx)
  /-- cycles pass on a die -/
  | elapse (die : DieIx) (n : Nat)
  | upset (u : Upset)
  /-- the management core of a die, which is secure, writes a register of access S, or 8 bytes of memory (R312, R313) -/
  | firmware (die : DieIx) (a : Nat) (v : Word)
  | firmwareStore (die : DieIx) (pa : Nat) (v : Word)
  /-- the host reads 8 bytes of its control aperture, or of its notify aperture (R314) -/
  | controlRead (die : DieIx) (off : Nat)
  | notifyRead (die : DieIx)
  | span (die : DieIx) (a : SpanAccess)
  deriving DecidableEq, Repr

/-- An attestation report (R350). -/
structure Report where
  nonce : List Byte
  /-- package serial number, logical device number and ROT -/
  serial : Word
  device : Nat
  rot : Nat
  measurement : List Byte
  svn : W32
  minsvn : Nat
  blkw : BitVec 24
  worldDigest : List Byte
  identity : List Byte
  signature : List Byte
  deriving DecidableEq, Repr

/-- What the part has given its surroundings. -/
inductive HostOut where
  | faultMessage (die : DieIx)
  /-- the number of the checkpoint that a warm reset restored (R342) -/
  | restored (die : DieIx) (num : W32)
  | read (die : DieIx) (bytes : List Byte)
  | atomic (die : DieIx) (old : Word)
  | frame (die : DieIx) (port : Nat) (bytes : List Byte)
  | report (die : DieIx) (r : Report)
  | service (die : DieIx)
  /-- the answer to an access over Span: the bytes read or the old value, nothing where it is refused (R310) -/
  | span (die : DieIx) (answer : Option (List Byte))
  deriving DecidableEq, Repr

/-- The state of the part and of the memory it reaches. -/
structure State where
  clusters : Vector Cluster 208
  cores : Vector Core 52
  dies : Vector Die 6
  links : Vector Link 9
  hostMem : Mem
  spanMem : Mem
  flits : List Flit
  merges : List MergeEntry
  /-- the cluster that now issues (DESIGN CHOICE, log 1) -/
  focus : CluIx
  note : Note
  /-- the word now tried is one of a bundle (R33) -/
  bundling : Bool
  agenda : List Turn
  runq : List CluIx
  engineTurn : Bool
  /-- the next number of a command, access or request (DESIGN CHOICE, log 1) -/
  serial : Nat
  /-- the next free value (DESIGN CHOICE, log 6) -/
  freeCtr : Nat
  out : List HostOut
  deriving DecidableEq, Repr

/-! ### Reset -/

/-- A series with no checkpoint (R131). -/
def Series.reset : Series := ⟨0, false, false, false, false, 0, 0, []⟩

/-- No hardware loop is active (R75, R79). -/
def Loops.reset : Loops := ⟨Vector.replicate 4 0, Vector.replicate 4 0, Vector.replicate 4 0, 0⟩

/-- A cluster after reset: no record, PC and registers zero (R36, R45, R75, R127; DESIGN CHOICE, log 3). -/
def Cluster.reset : Cluster where
  regs := Vector.replicate 32 0
  bank := Vector.replicate 32 0
  pc := 0
  mode := .user
  solo := false
  pmode := false
  pworld := false
  tcause := 0
  tepc := 0
  tval := 0
  thvec := 0
  fpflg := 0
  fpxen := 0
  loops := Loops.reset
  vlca := 0
  vlcb := 0
  record := none
  begun := 0
  taken := none
  waiting := false
  since := 0
  syncWait := false
  syncAge := 0
  stopped := false
  held := false
  saver := false
  pend := []
  step := false
  fences := []
  barv := none
  hbarv := none
  idle := none
  wstag := none
  remote := none
  atag := 0
  retag := none
  replays := 0
  stale := []
  dual := none
  beatWait := false
  ckWait := none

/-- A ring after reset (R90). -/
def Ring.reset : Ring := ⟨0, 0, 0, 0, 0, 0, []⟩

/-- A barrier after reset (R95). -/
def Barrier.reset : Barrier := ⟨0, [], [], []⟩

/-- A Horizon slot after reset: MAXC and MINC are 1 (R131). -/
def HzSlot.reset : HzSlot := ⟨0x0101_0000, 0, 0, Series.reset⟩

/-- The matrix engine after reset (R163, R172, R173). -/
def Matrix.reset : Matrix where
  act := Vector.replicate 32 0
  shd := Vector.replicate 32 0
  iact := Vector.replicate 128 0
  ishd := Vector.replicate 128 0
  acc := []
  accBad := []
  sq := []
  sqlds := []
  idxq := none
  frozen := false
  sqef := false
  flt := false
  fkind := false
  run := none
  armed := none
  fa := 0
  chunk := 0
  idx := Vector.replicate 6 0
  xl := []
  stepAcc := []
  stepFlags := 0
  stepSq := []
  undone := []
  flags := 0
  drained := false
  cxFrz := false

/-- A copy engine after reset: WINL is 20 (R196). -/
def Engine.reset : Engine where
  queue := []
  hold := false
  pause := false
  supp := false
  fa := 0
  err := none
  errVal := 0
  errClu := 0
  scfg := 0x1400
  satt := 0
  nft := 0
  lowt := 0
  satw := 0
  loww := 0
  satev := false
  lowev := false
  winAge := 0
  store := []
  cache := []
  readAge := none
  stopAt := none

/-- A core after reset: SYNCWD is 65,536, HLIM 64, TAKE 0xF (R40, R329, R252). -/
def Core.reset : Core where
  spad := []
  spadBad := []
  imem := []
  imemBad := []
  sdirty := []
  idirty := []
  secure := false
  working := true
  ncpe := 20
  syncwd := 65536
  preq := 0
  cxLen := 0
  cxErr := 0
  cxFail := false
  cxLop := 0
  cxDone := false
  cxPend := false
  ctxOp := .none
  cxTag := 0
  hlim := 64
  dbgStep := false
  rings := Vector.replicate 64 Ring.reset
  bars := Vector.replicate 96 Barrier.reset
  schen := 0xF
  ptroot := 0
  htcfg := 0
  pitcfg := 0
  xfqb := 0
  xfHead := 0
  xfTail := 0
  xfq := []
  xfWait := []
  xfMsg := none
  xfAns := none
  xfresp := 0
  owntag := 0
  tlb := []
  vq := []
  hz := Vector.replicate 16 HzSlot.reset
  mx := Matrix.reset
  ce := Vector.replicate 20 Engine.reset
  tiles := []

/-- A format entry after reset (R270). -/
def FmtEntry.reset : FmtEntry := ⟨0, 0, 0⟩

/-- The lanes of a stack after reset: plane 0 active (R270, R283). -/
def Lanes.reset : Lanes where
  lctl := 0
  lpois := 0
  lpfirst := 0
  hzConv := 0
  hzStag := 0
  hzNzd := 0
  hzLim := 0
  lplh := Vector.replicate 8 0
  lpcnt := 0
  lhzdef := 0
  lrmode := 0
  issHzdef := 0
  issRmode := 0
  plane0 := Vector.replicate 64 FmtEntry.reset
  plane1 := Vector.replicate 64 FmtEntry.reset
  apl := false
  iss0 := Vector.replicate 64 FmtEntry.reset
  iss1 := Vector.replicate 64 FmtEntry.reset
  issApl := false
  fmtBad := []
  buf := []
  waiters := []
  live := []
  base := 0
  done := Vector.replicate 1024 0
  runs := []
  abuf := []
  intv := 0
  syncn := 0
  safen := 0
  wdr := false
  prep := false
  prepAge := 0
  stopped := false
  tail := []

/-- A queue slot after reset (R252). -/
def QSlot.reset : QSlot := ⟨.free, 0, false, false, 0, 0, 0, 0, 0, false, 0, [], false, 0, 0⟩

/-- An Ethernet port after reset: LOGN 4, SLOT 3 (R303). -/
def EthPort.reset : EthPort := ⟨[], none, [], 0x4C0, 0, 0, 0, 0, 0, 0, none⟩

/-- A die after power-on, before its first boot stage ends, as a KIS-1000 part holds it, with ORIENT from its straps (R1, R12, R43, R347; DESIGN CHOICE, log 5). (DESIGN CHOICE, log 15) -/
def Die.reset (hub : Bool) (orient : Word) : Die where
  orient := orient
  cycle := 0
  now := 0
  cores := if hub then 24 else 1
  copye := if hub then 24 else 20
  spcol := if hub then 0 else 4
  lcol := if hub then 0 else 128
  lanesN := if hub then 0 else 1024
  hub := []
  hubBad := []
  dram := []
  dramBad := []
  shadows := []
  shadowBad := []
  stage := 0
  bootErr := 0
  ready := false
  svn := 0
  minsvn := 0
  image := none
  measure := []
  memTestOk := true
  linksOk := true
  stageAge := 0
  attest := none
  ete := false
  dramc := 0
  hubc := 0
  spc := 0
  regc := 0
  unc := 0
  poisn := 0
  scrub := 0x0018_001E_03E8_0000
  elbase := 0
  elWr := 0
  elRd := 0
  elOvf := 0
  logLast := none
  ckcfg := 0
  ckNum := 0
  ckBusy := false
  ckValid := false
  ckSlots := []
  ckAge := 0
  dualFirst := 0
  dualSecond := 0
  duals := []
  schedAge := []
  schedMiss := false
  agel := 16
  qtbase := 0
  notify := 0
  ndrop := 0
  badrec := 0
  qslots := Vector.replicate 16 QSlot.reset
  store := []
  resv := []
  lastSrc := Vector.replicate 4 16
  walkWait := []
  walks := []
  hcache := []
  icache := []
  wcache := []
  levels := []
  cremap := 0
  cremapFused := 0
  lost := []
  runOn := []
  fusedOff := []
  mig := none
  halfDuty := []
  tags := []
  bursts := 0
  refreshes := 0
  vbsel := 0
  vbrep := []
  vbpend := []
  vbfused := []
  vbopen := []
  vbstuck := []
  vbtdrv := 0
  vbtrcv := 0x07FF_07FF
  beat := none
  tectl := 0x1000
  test := 0
  colUse := []
  tested := []
  pwrcap := 1000
  pwrst := 0
  powAge := 0
  mwin := Vector.replicate 128 0
  ethceil := 0
  spceil := 0x6464_6464_6464_6464
  mwdrop := 0
  wmapb := 0
  blkw := 0
  mbRun := false
  spnum := 0
  ws := []
  eth := Vector.replicate 3 EthPort.reset
  lanes := Lanes.reset

/-- One end of a link after reset. -/
def LinkEnd.reset : LinkEnd := ⟨0, [], [], 0, [], [], false, 0, 0, 0⟩

/-- A link after reset: a = 8 (R292). -/
def Link.reset : Link := ⟨8, [], 0, none, 0, LinkEnd.reset, LinkEnd.reset, 0, false⟩

/-- The six dies after power-on: S0 to S3, H0, H1 (R9). -/
def diesReset : Vector Die 6 :=
  #v[Die.reset false (orientWord 0), Die.reset false (orientWord 1), Die.reset false (orientWord 2), Die.reset false (orientWord 3),
    Die.reset true (orientWord 4), Die.reset true (orientWord 5)]

/-- The part right after power-on: every die below its first boot stage, every cluster idle, memory with nothing listed
(R347; DESIGN CHOICE, log 2 says how a program comes to run). -/
def State.reset : State where
  clusters := Vector.replicate 208 Cluster.reset
  cores := Vector.replicate 52 Core.reset
  dies := diesReset
  links := Vector.replicate 9 Link.reset
  hostMem := []
  spanMem := []
  flits := []
  merges := []
  focus := 0
  note := .done
  bundling := false
  agenda := []
  runq := []
  engineTurn := false
  serial := 0
  freeCtr := 0
  out := []

/-! ### How a step can stop -/

/-- The reasons a step stops with a fault.  The manual's own failures are traps, which are next states. -/
inductive Fault where
  /-- Raised by `step` when the agenda asks a cluster to issue that holds no record: such a cluster has no next word
  (R30).  Safe: no run of the part reaches it by the default policy, and nothing is claimed of what follows. -/
  | noWord
  deriving DecidableEq, Repr

/-- The reasons a step has no meaning. -/
inductive Refusal where
  /-- Raised by `exec` for an instruction whose meaning is not written.  Safe: nothing can be claimed of it. -/
  | notModelled (mnemonic : String)
  deriving DecidableEq, Repr

end Sys2Proof.Machine
end

