-- ==== Sys2Proof/Machine/Ops.lean ====
section
/-!
DEFINITION. Ops: the named operations over the state: agents, registers, memory with its error codes, the error log,
the next program counter, taking a trap and returning from one.
-/

namespace Sys2Proof.Machine

open Host (Outcome)

/-- What a meaning answers. -/
abbrev Result := Outcome State Fault Refusal

/-! ### Clusters, cores and dies (R9, R21, R41) -/

/-- The core of a cluster. -/
def coreOf (c : CluIx) : CoreIx := ⟨c.val / 4, by omega⟩

/-- CLID.CLU of a cluster (R41). -/
def cluNo (c : CluIx) : Nat := c.val % 4

/-- The die of a core (R21). -/
def dieOf (k : CoreIx) : DieIx :=
  if h : k.val < 4 then ⟨k.val, by omega⟩ else if k.val < 28 then 4 else 5

/-- The physical place of a core on its die. -/
def corePlace (k : CoreIx) : Nat := if k.val < 4 then 0 else (k.val - 4) % 24

/-- H0 and H1 are the hub dies (R9). -/
def isHub (d : DieIx) : Bool := 4 ≤ d.val

/-- Clusters 0 to 3 of a core (R21). -/
def clustersOf (k : CoreIx) : List CluIx :=
  [⟨4 * k.val, by omega⟩, ⟨4 * k.val + 1, by omega⟩, ⟨4 * k.val + 2, by omega⟩, ⟨4 * k.val + 3, by omega⟩]

/-- The cores of a die, in place order (R21). -/
def coresOf (d : DieIx) : List CoreIx :=
  (List.range 52).filterMap fun n => if h : n < 52 then (if dieOf ⟨n, h⟩ = d then some ⟨n, h⟩ else none) else none

/-- The clusters of a die, in core and cluster order. -/
def clustersOn (d : DieIx) : List CluIx := (coresOf d).flatMap clustersOf

/-- A die from a logical device number. -/
def dieAt (n : Nat) : Option DieIx := if h : n < 6 then some ⟨n, h⟩ else none

/-- Every cluster of the part. -/
def allClusters : List CluIx := (List.range 208).filterMap fun n => if h : n < 208 then some ⟨n, h⟩ else none

/-- Every die of the part. -/
def allDies : List DieIx := [0, 1, 2, 3, 4, 5]

/-- Every link of the part. -/
def allLinks : List LinkIx := [0, 1, 2, 3, 4, 5, 6, 7, 8]

/-! ### Reading and writing the agents of the state -/

/-- A cluster. -/
def State.cluster (s : State) (c : CluIx) : Cluster := s.clusters.get c
/-- A cluster replaced. -/
def State.setCluster (s : State) (c : CluIx) (x : Cluster) : State :=
  { s with clusters := s.clusters.set c.val x c.isLt }
/-- A cluster changed. -/
def State.modCluster (s : State) (c : CluIx) (f : Cluster → Cluster) : State := s.setCluster c (f (s.cluster c))

/-- A core. -/
def State.core (s : State) (k : CoreIx) : Core := s.cores.get k
/-- A core replaced. -/
def State.setCore (s : State) (k : CoreIx) (x : Core) : State := { s with cores := s.cores.set k.val x k.isLt }
/-- A core changed. -/
def State.modCore (s : State) (k : CoreIx) (f : Core → Core) : State := s.setCore k (f (s.core k))

/-- A die. -/
def State.die (s : State) (d : DieIx) : Die := s.dies.get d
/-- A die replaced. -/
def State.setDie (s : State) (d : DieIx) (x : Die) : State := { s with dies := s.dies.set d.val x d.isLt }
/-- A die changed. -/
def State.modDie (s : State) (d : DieIx) (f : Die → Die) : State := s.setDie d (f (s.die d))

/-- A Dowel link. -/
def State.link (s : State) (l : LinkIx) : Link := s.links.get l
/-- A Dowel link changed. -/
def State.modLink (s : State) (l : LinkIx) (f : Link → Link) : State :=
  { s with links := s.links.set l.val (f (s.link l)) l.isLt }

/-- The cluster that now issues (DESIGN CHOICE, log 1). -/
def State.me (s : State) : Cluster := s.cluster s.focus
/-- The cluster that now issues, changed. -/
def State.modMe (s : State) (f : Cluster → Cluster) : State := s.modCluster s.focus f
/-- Its core. -/
def State.myCoreIx (s : State) : CoreIx := coreOf s.focus
/-- Its core's state. -/
def State.myCore (s : State) : Core := s.core s.myCoreIx
/-- Its core, changed. -/
def State.modMyCore (s : State) (f : Core → Core) : State := s.modCore s.myCoreIx f
/-- Its die. -/
def State.myDieIx (s : State) : DieIx := dieOf s.myCoreIx
/-- Its die's state. -/
def State.myDie (s : State) : Die := s.die s.myDieIx
/-- Its die, changed. -/
def State.modMyDie (s : State) (f : Die → Die) : State := s.modDie s.myDieIx f

/-- The next number, used (DESIGN CHOICE, log 1). -/
def State.tick (s : State) : State := { s with serial := s.serial + 1 }

/-- The working core with a logical number on a die: numbers are dense over the working cores (R2, R41). -/
def State.coreAt (s : State) (d : DieIx) (n : Nat) : Option CoreIx := ((coresOf d).filter fun k => (s.core k).working)[n]?

/-- The logical number of a core (R41). -/
def State.coreNo (s : State) (k : CoreIx) : Nat :=
  ((coresOf (dieOf k)).filter fun j => (s.core j).working ∧ j.val < k.val).length

/-- Bytes of a core's scratchpad (R21). -/
def spadBytes (k : CoreIx) : Nat := if isHub (dieOf k) then Config.hubSpadBytes else Config.stackSpadBytes

/-- CLID of a cluster (R41). -/
def State.clid (s : State) (c : CluIx) : Word :=
  let k := coreOf c
  packWord [(15, flagNat (isHub (dieOf k))), (12, (dieOf k).val), (7, s.coreNo k), (0, cluNo c)]

/-- A cluster runs a record whose commands have numbers from `seq` on: the record that gave number `seq` still runs (R128). -/
def Cluster.runs (c : Cluster) (seq : Nat) : Bool := c.record.isSome && c.begun ≤ seq

/-- LID of a record: word 0 bits 63:48 (R245). -/
def Record.lid (r : Record) : Nat := bits r.w0 48 16

/-- LID of the record a cluster runs, or 0 (R325). -/
def Cluster.lid (c : Cluster) : Nat := match c.record with | some r => r.lid | none => 0

/-! ### General registers (R36, R326) -/

/-- A register as the cluster's mode names it: user registers, or the handler bank; register 0 reads as zero. -/
def Cluster.g (c : Cluster) (r : Reg) : Word :=
  if r = 0 then 0 else match c.mode with
    | .user => c.regs.get r.toFin
    | .handler => c.bank.get r.toFin

/-- A register written as the cluster's mode names it; a write to register 0 is discarded. -/
def Cluster.setG (c : Cluster) (r : Reg) (v : Word) : Cluster :=
  if r = 0 then c else match c.mode with
    | .user => { c with regs := c.regs.set r.toFin.val v r.toFin.isLt }
    | .handler => { c with bank := c.bank.set r.toFin.val v r.toFin.isLt }

/-- A register of the cluster that issues. -/
def State.g (s : State) (r : Reg) : Word := s.me.g r

/-- A register of the cluster that issues, written. -/
def State.setG (s : State) (r : Reg) (v : Word) : State := s.modMe fun c => c.setG r v

/-- User register k, as UGk names it (R326). -/
def Cluster.ug (c : Cluster) (r : Reg) : Word := if r = 0 then 0 else c.regs.get r.toFin

/-- User register k, written. -/
def Cluster.setUg (c : Cluster) (r : Reg) (v : Word) : Cluster :=
  if r = 0 then c else { c with regs := c.regs.set r.toFin.val v r.toFin.isLt }

/-! ### Memory: lists in canonical form (DESIGN CHOICE, log 4) -/

/-- Addresses rise and no byte is zero, from address `lo` on. -/
def Mem.wfFrom : Nat → Mem → Bool
  | _, [] => true
  | lo, (a, b) :: m => lo ≤ a && b != 0 && Mem.wfFrom (a + 1) m

/-- The canonical form: equal memories are equal lists. -/
def Mem.wf (m : Mem) : Bool := Mem.wfFrom 0 m

/-- What an unlisted address reads as (DESIGN CHOICE, log 4). -/
def Mem.blank : Byte := 0

/-- The byte at an address. -/
def Mem.read : Mem → Nat → Byte
  | [], _ => Mem.blank
  | (a, b) :: m, i => if i = a then b else if i < a then Mem.blank else Mem.read m i

/-- A byte written at an address; writing zero removes the entry. -/
def Mem.write : Mem → Nat → Byte → Mem
  | [], i, v => if v = Mem.blank then [] else [(i, v)]
  | (a, b) :: m, i, v =>
    if i < a then (if v = Mem.blank then (a, b) :: m else (i, v) :: (a, b) :: m)
    else if i = a then (if v = Mem.blank then m else (i, v) :: m)
    else (a, b) :: Mem.write m i v

/-- The entries of a memory from an address up. -/
def Mem.above : Mem → Nat → Mem
  | [], _ => []
  | (i, b) :: m, a => if i < a then Mem.above m a else (i, b) :: m

/-- The bytes at rising addresses, in one pass. -/
def Mem.readAt : Mem → List Nat → List Byte
  | _, [] => []
  | m, a :: as => let m' := m.above a; m'.read a :: m'.readAt as

/-- n bytes from an address. -/
def Mem.readN (m : Mem) (a n : Nat) : List Byte := m.readAt (iota a n)

/-- The memory that holds a list of bytes from address p. -/
def Mem.ofDense : Nat → List Byte → Mem
  | _, [] => []
  | p, b :: bs => if b = Mem.blank then Mem.ofDense (p + 1) bs else (p, b) :: Mem.ofDense (p + 1) bs

/-- Bytes written from an address up: those below stay, and those above. -/
def Mem.writeN (m : Mem) (a : Nat) (bs : List Byte) : Mem :=
  (m.filter fun c => c.1 < a) ++ Mem.ofDense a bs ++ m.filter fun c => a + bs.length ≤ c.1

/-- A little-endian number of n bytes (R83). -/
def Mem.nat (m : Mem) (a n : Nat) : Nat := leNat (m.readN a n)

/-- Bytes from lo up to hi, cleared. -/
def Mem.clear (m : Mem) (lo hi : Nat) : Mem := m.filter fun c => c.1 < lo || hi ≤ c.1

/-- Units of u bytes that n bytes from a touch. -/
def unitsOf (u a n : Nat) : List Nat := if n = 0 then [] else iota (a / u) ((a + n - 1) / u - a / u + 1)

/-- A write into memory whose units of u bytes carry a correcting code: a write that covers part of an uncorrectable
unit is discarded there, and one that covers all of it makes it good (R323 partial writes).  Answers the memory, its
uncorrectable units, and the units whose bytes were discarded. -/
def Mem.put (u : Nat) (m : Mem) (bad : List Nat) (a : Nat) (bs : List Byte) : Mem × List Nat × List Nat :=
  let hit := bad.filter fun w => a < (w + 1) * u ∧ w * u < a + bs.length
  let whole := hit.filter fun w => a ≤ w * u ∧ (w + 1) * u ≤ a + bs.length
  let lost := hit.filter fun w => !whole.contains w
  let m' := if lost.isEmpty then m.writeN a bs
    else (List.zip (iota a bs.length) bs).foldl (fun acc c => if lost.contains (c.1 / u) then acc else acc.write c.1 c.2) m
  (m', bad.filter (fun w => !whole.contains w), lost)

/-! ### Columns and sites (R13 to R18, R344) -/

/-- Die-local coordinates of a logical site (R15). -/
def toLocal (rot x y : Nat) : Nat × Nat :=
  match rot with
  | 0 => (x, y) | 1 => (y, 11 - x) | 2 => (11 - x, 11 - y) | _ => (11 - y, x)

/-- Logical coordinates of a die-local site (R15). -/
def toLogical (rot px py : Nat) : Nat × Nat :=
  match rot with
  | 0 => (px, py) | 1 => (11 - py, px) | 2 => (11 - px, 11 - py) | _ => (py, 11 - px)

/-- Rows 0, 5, 6 and 11 hold eight logical columns (R16). -/
def shortRow (y : Nat) : Bool := y = 0 || y = 5 || y = 6 || y = 11

/-- The first logical column of row y (R16). -/
def rowStart (y : Nat) : Nat := [0, 8, 20, 32, 44, 56, 64, 72, 84, 96, 108, 120].getD y 128

/-- The logical site of the home of logical column c (R16). -/
def homeXY (c : Nat) : Nat × Nat :=
  let y := ((List.range 12).filter fun y => rowStart y ≤ c).length - 1
  let idx := c - rowStart y
  (if shortRow y then (if idx < 4 then idx + 1 else idx + 3) else idx, y)

/-- The logical site of spare s (R15). -/
def spareXY (n : Nat) : Nat × Nat := match n with | 0 => (0, 0) | 1 => (11, 0) | 2 => (11, 11) | _ => (0, 11)

/-- The spare that serves logical column c, by CREMAP (R344). -/
def Die.spareOf (x : Die) (c : Nat) : Option Nat :=
  [0, 1, 2, 3].find? fun n => bit x.cremap (16 * n + 15) && bits x.cremap (16 * n) 7 == c

/-- The home of logical column c among the 128 homes: those that are not fused off are numbered densely (R345). -/
def Die.rankOf (x : Die) (c : Nat) : Nat :=
  if x.fusedOff.isEmpty then c else ((List.range 128).filter fun r => !x.fusedOff.contains r).getD c 128

/-- The die-local site that serves logical column c (R16, R344). -/
def State.columnSite (s : State) (d : DieIx) (c : Nat) : Nat × Nat :=
  let xy := match (s.die d).spareOf c with | some n => spareXY n | none => homeXY ((s.die d).rankOf c)
  toLocal (rotOf d) xy.1 xy.2

/-- A site of a stack die that holds a vertical bus: one of the 128 homes, or a spare (R14, R343). -/
inductive Site where
  | home (c : Nat) | spare (n : Nat)
  deriving DecidableEq, Repr

/-- What a die-local site holds; nothing for a port site, a centre site or a place off the grid (R14, R343). -/
def siteAt (rot px py : Nat) : Option Site :=
  if px ≤ 11 ∧ py ≤ 11 then
    let xy := toLogical rot px py
    match [0, 1, 2, 3].find? fun n => spareXY n = xy with
    | some n => some (.spare n)
    | none => ((List.range 128).find? fun c => homeXY c = xy).map .home
  else none

/-! ### Vertical buses and row shadows (R277, R319, R343) -/

/-- Positions of a spare group that its repair field marks faulty (R343). -/
def marksOf (f : BitVec 16) : List Nat :=
  (if f.getLsbD 7 then [nbits f.toNat 0 7] else []) ++ (if f.getLsbD 15 then [nbits f.toNat 8 7] else [])

/-- The repair field in force for a group of a site; a site is numbered as VBSEL numbers it (R343). -/
def Die.inForce (x : Die) (site g : Nat) : BitVec 16 :=
  match x.vbrep.find? fun r => r.1 == site && r.2.1 == g with
  | some r => r.2.2
  | none => 0

/-- The logical data connection that travels on a physical connection: the shift of R343 past the marked positions. -/
def Die.carriedBy (x : Die) (site conn : Nat) : Option Nat :=
  let g := if conn < 1024 then conn / 64 else (conn - 1024) / 2
  let pos := if conn < 1024 then conn % 64 else 64 + (conn - 1024) % 2
  let marks := marksOf (x.inForce site g)
  let i := pos - (marks.filter (· < pos)).length
  if marks.contains pos || 64 ≤ i then none else some (64 * g + i)

/-- The faulty connections of a site that carry data: logical, physical, and the value they deliver (R319, R343, R346). -/
def Die.busFaults (x : Die) (site : Nat) : List (Nat × Nat × Bool) :=
  let at_ (v : Bool) (l : List (Nat × Nat)) : List (Nat × Nat × Bool) :=
    (l.filter (·.1 == site)).filterMap fun p => (x.carriedBy site p.2).map fun c => (c, p.2, v)
  at_ false x.vbopen ++ at_ true x.vbstuck

/-- Bit c of a beat, byte i on connections 8i to 8i + 7 (R319). -/
def beatBit (bs : List Byte) (c : Nat) : Bool := (bs.getD (c / 8) 0).getLsbD (c % 8)

/-- Symbols of the codeword of data beat b that its column's bus corrupts, with the physical connection: data symbols, and check
symbols in the check beat of the frame (R319; DESIGN CHOICE, log 59). -/
def State.beatErrors (s : State) (d : DieIx) (b : Nat) : List (Nat × Nat) :=
  let x := s.die d
  if x.vbopen.isEmpty && x.vbstuck.isEmpty then []
  else
    let site := s.columnSite d ((128 * b - Config.lanePhysBase) / Config.laneBytes / 8)
    let data := x.dram.readN (128 * b) 128
    let check := (iota 0 16).map (Config.checkByte data)
    let all := (x.busFaults (site.1 + 16 * site.2)).flatMap fun f =>
      (if beatBit data f.1 != f.2.2 then [(f.1 / 8, f.2.1)] else []) ++
      (if f.1 / 128 == b % 8 && beatBit check (f.1 % 128) != f.2.2 then [(128 + f.1 % 128 / 8, f.2.1)] else [])
    all.foldl (fun acc e => if acc.any (fun y => y.1 == e.1) then acc else acc ++ [e]) []

/-- The bus corrupts more symbols of a data beat than its code corrects (R318). -/
def State.beatFails (s : State) (d : DieIx) (b : Nat) : Bool := 8 < (s.beatErrors d b).length

/-- A row of lane memory, numbered by address div 2,048, is in the shadow of its bank group (R277). -/
def Die.shadowHolds (x : Die) (row : Nat) : Bool := x.shadows.any fun g => g.2.contains row

/-- A 64-bit word of lane memory, by address div 8, as a read meets it: in the shadow of its bank group, or else in its data beat
(R277, R318, R319). -/
def State.dramWordBad (s : State) (d : DieIx) (w : Nat) : Bool :=
  let x := s.die d
  if x.shadowHolds (w / 256) then x.shadowBad.contains w else x.dramBad.contains (w / 16) || s.beatFails d (w / 16)

/-- A row has been read or written: the shadow holds the two rows that its bank group has most recently read or written, whole; words
that could not be read stay uncorrectable in it (R277).  Its column has had a request (R346). -/
def State.touchRow (s : State) (d : DieIx) (r : Nat) : Die :=
  let x := s.die d
  let lane := (2048 * r - Config.lanePhysBase) / Config.laneBytes
  let held := (lookupNat lane x.shadows).getD []
  let now := (r :: held.filter (· != r)).take 2
  let gone := held.filter fun q => !now.contains q
  let sound := x.dramBad.isEmpty && x.vbopen.isEmpty && x.vbstuck.isEmpty
  let new := if held.contains r || sound then [] else (iota (256 * r) 256).filter (s.dramWordBad d)
  { x with
    shadows := setKey lane now x.shadows, colUse := setKey (lane / 8) x.now x.colUse
    shadowBad := insertAll new (x.shadowBad.filter fun w => !gone.contains (w / 256)) }

/-- The rows of a read or write are touched (R277). -/
def State.touchRows (s : State) (d : DieIx) (a n : Nat) : State :=
  (unitsOf 2048 a n).foldl (fun acc r => acc.setDie d (acc.touchRow d r)) s

/-- The frames of 1 KiB that a read of n bytes moves over the bus: both of each row that no shadow serves (R277, R319; DESIGN CHOICE,
log 59). -/
def State.framesMoved (s : State) (d : DieIx) (a n : Nat) : List Nat :=
  ((unitsOf 2048 a n).filter fun r => !(s.die d).shadowHolds r).flatMap fun r => [2 * r, 2 * r + 1]

/-! ### Locations in the die physical map (R297) -/

/-- The place of a die physical address; nothing for an address in no region. -/
def State.physLoc (s : State) (d : DieIx) (pa : Nat) : Option Loc :=
  if isHub d ∧ pa < Config.hubSramBytes then some (.hub d pa)
  else if Config.spadPhysBase ≤ pa ∧ pa < Config.spadPhysBase + 32 * Config.spadPhysStep then
    match s.coreAt d ((pa - Config.spadPhysBase) / Config.spadPhysStep) with
    | some k =>
      let off := (pa - Config.spadPhysBase) % Config.spadPhysStep
      if off < spadBytes k then some (.spad k off) else none
    | none => none
  else if !isHub d ∧ Config.lanePhysBase ≤ pa ∧ pa < Config.lanePhysBase + Config.laneBytes * (s.die d).lanesN then
    some (.dram d pa)
  else none

/-- The die physical address of a place, for the error log. -/
def State.physAddr (s : State) : Loc → Nat
  | .spad k a => Config.spadPhysBase + Config.spadPhysStep * s.coreNo k + a
  | .hub _ a | .dram _ a | .host _ a => a
  | .send _ _ off | .peer _ _ off | .tensor _ _ off | .span _ _ _ off => off

/-- The die that holds a place, where it is a place of this package's memory. -/
def Loc.homeDie : Loc → Option DieIx
  | .spad k _ => some (dieOf k)
  | .hub d _ | .dram d _ => some d
  | .send d _ _ => some d
  | .peer d _ _ => some d
  | .tensor d _ _ => some d
  | .host _ _ | .span _ _ _ _ => none

/-- A place n bytes further on. -/
def Loc.add : Loc → Nat → Loc
  | .spad k a, n => .spad k (a + n)
  | .hub d a, n => .hub d (a + n)
  | .dram d a, n => .dram d (a + n)
  | .host d a, n => .host d (a + n)
  | .send d p o, n => .send d p (o + n)
  | .peer d h o, n => .peer d h (o + n)
  | .tensor d h o, n => .tensor d h (o + n)
  | .span p d h o, n => .span p d h (o + n)

/-- Where the bytes of another package's object lie in `spanMem`: one image per package, device and handle (DESIGN CHOICE, log 17). -/
def spanAddr (pkg dev : Nat) (rh : W32) (off : Nat) : Nat := ((pkg * 8 + dev) * 2 ^ 32 + rh.toNat) * 2 ^ 48 + off

/-- n bytes of a place, as they stand, whether or not they can be corrected; a send window reads zeros (R301). -/
def State.peek (s : State) (l : Loc) (n : Nat) : List Byte :=
  match l with
  | .spad k a => (s.core k).spad.readN a n
  | .hub d a => (s.die d).hub.readN a n
  | .dram d a => (s.die d).dram.readN a n
  | .host _ a => s.hostMem.readN a n
  | .send _ _ _ | .peer _ _ _ | .tensor _ _ _ => List.replicate n 0
  | .span p d h o => s.spanMem.readN (spanAddr p d h o) n

/-- Bytes of one correcting-code unit of a place: a 64-bit word, or a 128 B data beat (R318, R319). -/
def Loc.unit : Loc → Nat
  | .dram _ _ => 128
  | _ => 8

/-- The place of the byte at offset a of the same memory. -/
def Loc.withAddr : Loc → Nat → Loc
  | .spad k _, a => .spad k a
  | .hub d _, a => .hub d a
  | .dram d _, a => .dram d a
  | .host d _, a => .host d a
  | .send d p _, a => .send d p a
  | .peer d h _, a => .peer d h a
  | .tensor d h _, a => .tensor d h a
  | .span p d h _, a => .span p d h a

/-- The address of a place within its memory. -/
def Loc.addr : Loc → Nat
  | .spad _ a | .hub _ a | .dram _ a | .host _ a | .send _ _ a | .peer _ _ a | .tensor _ _ a | .span _ _ _ a => a

/-- The uncorrectable 64-bit words that a read of n bytes of a place meets, by address div 8 (R318, R319). -/
def State.badWords (s : State) (l : Loc) (n : Nat) : List Nat :=
  let near (bad : List Nat) : List Nat := bad.filter fun w => l.addr < (w + 1) * 8 ∧ w * 8 < l.addr + n
  match l with
  | .spad k _ => near (s.core k).spadBad
  | .hub d _ => near (s.die d).hubBad
  | .dram d _ =>
    let x := s.die d
    if x.dramBad.isEmpty && x.shadowBad.isEmpty && x.vbopen.isEmpty && x.vbstuck.isEmpty then []
    else (unitsOf 8 l.addr n).filter (s.dramWordBad d)
  | _ => []

/-- The uncorrectable units that n bytes of a place touch: 64-bit words, or 128 B data beats. -/
def State.badUnits (s : State) (l : Loc) (n : Nat) : List Nat :=
  match l with
  | .dram _ _ => insertAll ((s.badWords l n).map (· / 16)) []
  | _ => s.badWords l n

/-- Bytes written to a place, with R323's rule of partial writes; answers the units whose bytes were discarded. -/
def State.poke (s : State) (l : Loc) (bs : List Byte) : State × List Nat :=
  match l with
  | .spad k a =>
    let x := s.core k
    let (m, bad, lost) := Mem.put 8 x.spad x.spadBad a bs
    (s.setCore k { x with spad := m, spadBad := bad, sdirty := insertAll (unitsOf 4096 a bs.length) x.sdirty }, lost)
  | .hub d a =>
    let x := s.die d
    let (m, bad, lost) := Mem.put 8 x.hub x.hubBad a bs
    (s.setDie d { x with hub := m, hubBad := bad }, lost)
  | .dram d a =>
    let x := s.die d
    let fails := (unitsOf 128 a bs.length).filter (s.beatFails d)
    let (m, bad, lost) := Mem.put 128 x.dram (x.dramBad ++ fails) a bs
    let bad := bad.filter x.dramBad.contains
    let made := (unitsOf 128 a bs.length).filter fun b => !lost.contains b
    let s := s.setDie d { x with dram := m, dramBad := bad, shadowBad := x.shadowBad.filter fun w => !made.contains (w / 16) }
    (s.touchRows d a bs.length, lost)
  | .host _ a => ({ s with hostMem := s.hostMem.writeN a bs }, [])
  | .send _ _ _ | .peer _ _ _ | .tensor _ _ _ => (s, [])
  | .span p d h o => ({ s with spanMem := s.spanMem.writeN (spanAddr p d h o) bs }, [])

/-! ### The error log and its counts (R320, R325) -/

/-- The word WHERE of a log entry for a die physical address: lane memory is named as R19 and R325 give, by the site of
its column, bank group, bank and row, with connection 0: rows of 2 KiB lie in successive banks (R268); other memory by the
address (DEDUCED, log 18). -/
def State.logWhere (s : State) (d : DieIx) (pa : Nat) : Word :=
  if pa < Config.lanePhysBase then word pa
  else
    let off := pa - Config.lanePhysBase
    let lane := off / Config.laneBytes
    let o := off % Config.laneBytes
    let site := s.columnSite d (lane / 8)
    packWord [(44, site.1), (40, site.2), (38, rotOf d), (35, lane % 8), (32, o / 2048 % 8), (16, o / 16384)]

/-- Word 0 of a log entry (R325). -/
def logHead (kind count detail : Nat) : Word := packWord [(56, kind), (32, count), (0, detail % 2 ^ 32)]

/-- The data beats of lane memory that a write covers in part, so that they are read and merged (R319). -/
def partBeats (a n : Nat) : List Nat := (unitsOf 128 a n).filter fun b => decide (128 * b < a ∨ a + n < 128 * (b + 1))

/-- A word written to the memory of a die by its physical address, by the part itself.  What the merge of its beat corrects, or cannot
merge, is counted (R319, R320, R323), and makes no entry of its own in the log that is being written (DESIGN CHOICE, log 78). -/
def State.pokePhys (s : State) (d : DieIx) (pa : Nat) (w : Word) : State :=
  match s.physLoc d pa with
  | some l =>
    let fixed := match l with
      | .dram _ a => ((partBeats a 8).filter fun b => let e := (s.beatErrors d b).length; decide (0 < e ∧ e ≤ 8)).length
      | _ => 0
    let r := s.poke l (leBytes 8 w.toNat)
    r.1.modDie d fun x =>
      { x with dramc := heldAt 65535 (x.dramc + fixed), unc := heldAt (2 ^ 32 - 1) (x.unc + r.2.length) }
  | none => s

/-- A new entry of the log ring; dropped and counted when the ring is full (R325). -/
def State.logNew (s : State) (d : DieIx) (kind detail : Nat) (at_ : Word) (lid synd : Nat) : State :=
  let x := s.die d
  if x.elWr - x.elRd = 256 then s.setDie d { x with elOvf := heldAt 65535 (x.elOvf + 1) }
  else
    let a := bits x.elbase 13 35 * 2 ^ 13 + 32 * (x.elWr.toNat % 256)
    (((s.setDie d { x with elWr := x.elWr + 1, logLast := some ⟨kind, at_, a, 1⟩ }
      |>.pokePhys d a (logHead kind 1 detail)).pokePhys d (a + 8) x.cycle).pokePhys d (a + 16) at_).pokePhys d (a + 24)
        (packWord [(48, lid), (0, synd % 2 ^ 48)])

/-- An event written to the error log: a corrected error of the newest entry's kind and place is merged into it (R325).
While ELBASE.EN is 0 there is no ring and nothing is written (DEDUCED, log 18). -/
def State.log (s : State) (d : DieIx) (kind detail : Nat) (at_ : Word) (lid : Nat) (synd : Nat := 0) : State :=
  let x := s.die d
  if !bit x.elbase 0 then s
  else match x.logLast with
    | some last =>
      if (kind = 1 ∨ kind = 3) ∧ last.kind = kind ∧ last.loc = at_ then
        let n := heldAt 65535 (last.count + 1)
        (s.setDie d { x with logLast := some { last with count := n } }).pokePhys d last.addr (logHead kind n detail)
      else s.logNew d kind detail at_ lid synd
    | none => s.logNew d kind detail at_ lid synd

/-- Uncorrectable errors counted in ECUCNT.UNC (R320). -/
def State.countUnc (s : State) (d : DieIx) (n : Nat) : State :=
  s.modDie d fun x => { x with unc := heldAt (2 ^ 32 - 1) (x.unc + n) }

/-- Poison deliveries counted in ECUCNT.POISN (R320). -/
def State.countPoison (s : State) (d : DieIx) (n : Nat) : State :=
  s.modDie d fun x => { x with poisn := heldAt (2 ^ 32 - 1) (x.poisn + n) }

/-- Kind of the log entry of an uncorrectable unit: 2 for DRAM, 4 for SRAM (R323, R325). -/
def Loc.uncKind : Loc → Nat
  | .dram _ _ => 2
  | _ => 4

/-- A corrected data beat: counted, and logged with the connection (R320, R325). -/
def State.correctBeat (s : State) (d : DieIx) (b conn : Nat) : State :=
  (s.modDie d fun x => { x with dramc := heldAt 65535 (x.dramc + 1) }).log d 1 0 (s.logWhere d (128 * b) ||| word conn) 0

/-- Beats that the bus corrupts and the code corrects: each is counted and logged (R319, R320). -/
def State.correctBeats (s : State) (d : DieIx) (bs : List Nat) : State :=
  bs.foldl (fun acc b => match s.beatErrors d b with
    | [] => acc
    | e :: es => if 8 ≤ es.length then acc else acc.correctBeat d b e.2) s

/-- The beats that a write covers in part are read and corrected before they are merged (R319, R320). -/
def State.mergeBeats (s : State) (l : Loc) (n : Nat) : State :=
  match l with
  | .dram d a => s.correctBeats d (partBeats a n)
  | _ => s

/-- Bytes written to a place; each unit that could not be merged is counted and logged (R323). -/
def State.store (s : State) (l : Loc) (bs : List Byte) (lid : Nat := 0) : State :=
  let (s', lost) := (s.mergeBeats l bs.length).poke l bs
  match l.homeDie with
  | some d => lost.foldl (fun acc w =>
      (acc.countUnc d 1).log d l.uncKind 0 (acc.logWhere d (acc.physAddr (l.withAddr (w * l.unit)))) lid) s'
  | none => s'

/-- Bytes written to a list of places, in order. -/
def State.storeAll (s : State) (ps : List (Loc × List Byte)) (lid : Nat := 0) : State :=
  ps.foldl (fun acc p => acc.store p.1 p.2 lid) s

/-- The byte of the poison word at an address (R323). -/
def poisonByte (a : Nat) : Byte := (Config.poisonWord >>> (8 * (a % 8))).setWidth 8

/-- Bytes of a place as an engine reads them, with poison in place of uncorrectable words (R323). -/
def State.peekPoisoned (s : State) (l : Loc) (n : Nat) : List Byte :=
  match s.badWords l n with
  | [] => s.peek l n
  | bad => (List.zip (iota l.addr n) (s.peek l n)).map fun c => if bad.contains (c.1 / 8) then poisonByte c.1 else c.2

/-- The uncorrectable units that a read of n bytes meets are counted and logged at their home (R320, R323, R325). -/
def State.noteUnc (s : State) (l : Loc) (n : Nat) (lid : Nat := 0) : State :=
  match l.homeDie with
  | some d => (s.badUnits l n).foldl (fun acc w =>
      (acc.countUnc d 1).log d l.uncKind 0 (acc.logWhere d (acc.physAddr (l.withAddr (w * l.unit)))) lid) s
  | none => s

/-- What a read of lane memory does beside its data: frames that no shadow serves cross the bus whole, and what the bus corrupts in
them is corrected and counted; then the shadow holds the rows (R277, R319). -/
def State.readDram (s : State) (l : Loc) (n : Nat) : State :=
  match l with
  | .dram d a => (s.correctBeats d ((s.framesMoved d a n).flatMap fun f => iota (8 * f) 8)).touchRows d a n
  | _ => s

/-! ### Pending causes -/

/-- The numbers of R51. -/
def Cause.code : Cause → Nat
  | .udi => 1 | .aut => 2 | .aln => 3 | .xlt => 4 | .prm => 5 | .hdl => 6 | .lch => 7 | .fpx => 8 | .sqe => 9
  | .rng => 10 | .bar => 11 | .ecu => 12 | .mck => 13 | .wdg => 14 | .pre => 15 | .dbg => 16

/-- The codes of TCAUSE.PATH (R45). (DEDUCED, log 12) -/
def Path.code : Path → Nat
  | .s => 0 | .v => 1 | .m => 2 | .c => 3 | .l => 4 | .a => 5 | .h => 6

/-- TCAUSE.PATH where no access failed (R45). -/
def noPath : Nat := 7

/-- An asynchronous cause becomes pending (R52); a second occurrence of a cause already pending joins it, with the newer value and path
(DESIGN CHOICE, log 69). -/
def Cluster.addPend (c : Cluster) (cause : Cause) (tval : Word) (path : Nat := noPath) : Cluster :=
  { c with pend := c.pend.filter (fun p => p.cause != cause) ++ [⟨cause, tval, path⟩] }

/-- The order in which pending causes are taken (R52). -/
def asyncOrder : List Cause := [.mck, .ecu, .wdg, .dbg, .pre, .sqe, .fpx]

/-- The pending cause taken first (R52). -/
def Cluster.firstPend (c : Cluster) : Option Pend := asyncOrder.findSome? fun k => c.pend.find? fun p => p.cause = k

/-- Bytes read by an engine for a command of a cluster: each uncorrectable unit is counted at its home and each word of
poison at the reader's die, and with ECCTL.ETE the cluster takes ECU while its record runs (R320, R323). -/
def State.readEngine (s : State) (c : CluIx) (seq : Nat) (l : Loc) (n : Nat) (tval : Nat) (p : Path) : List Byte × State :=
  match s.badWords l n with
  | [] => (s.peek l n, s.readDram l n)
  | bad =>
    let here := dieOf (coreOf c)
    let first := bad.foldl min (bad.headD 0) * 8
    let s' := ((s.noteUnc l n (s.cluster c).lid).readDram l n).countPoison here bad.length
    let s' := if (s.die here).ete ∧ (s.cluster c).runs seq then
        s'.modCluster c fun x => x.addPend .ecu (word (tval + (max first l.addr - l.addr))) p.code
      else s'
    (s.peekPoisoned l n, s')

/-! ### Hardware loops and the next word (R26, R75 to R79) -/

/-- A level of the loops moved outward into the next, for a new innermost loop (R76). -/
def Loops.push (x : Loops) (n : W32) (start stop : PC) : Loops :=
  ⟨#v[n, x.cnt[0], x.cnt[1], x.cnt[2]], #v[start, x.start[0], x.start[1], x.start[2]],
    #v[stop, x.stop[0], x.stop[1], x.stop[2]], x.depth + 1⟩

/-- The innermost loop popped; the outermost active level is cleared (R77). -/
def Loops.pop (x : Loops) : Loops :=
  ⟨#v[x.cnt[1], x.cnt[2], x.cnt[3], 0], #v[x.start[1], x.start[2], x.start[3], 0], #v[x.stop[1], x.stop[2], x.stop[3], 0],
    x.depth - 1⟩

/-- The end check of R77 for a word at a: the loops and the next PC.  At most four levels can end at once. -/
def Loops.endCheck : Nat → Loops → PC → Loops × PC
  | 0, x, a => (x, a + 4)
  | n + 1, x, a =>
    if x.depth = 0 ∨ a ≠ x.stop[0] then (x, a + 4)
    else if x.cnt[0].toNat > 1 then ({ x with cnt := x.cnt.set 0 (x.cnt[0] - 1) }, x.start[0])
    else Loops.endCheck n x.pop a

/-- What issuing a word settles, whatever the word: no wait remains, SOLO is used up in user mode (R33), an earlier
FENCE is passed (R218), and a single step has been made (R337). -/
def Cluster.settle (c : Cluster) : Cluster :=
  let c := { c with
    waiting := false, since := 0, syncWait := false, syncAge := 0, idle := none, replays := 0
    fences := c.fences.map fun (f : Fence) => { f with passed := true } }
  match c.mode with
  | .user =>
    let c := { c with solo := false, barv := none, retag := none }
    if c.step then Cluster.addPend { c with step := false } .dbg 0x101 else c
  | .handler => { c with hbarv := none }

/-- A word completes without transferring control (R77, R79). -/
def Cluster.advance (c : Cluster) : Cluster :=
  match c.mode with
  | .user =>
    let r := Loops.endCheck 4 c.loops c.pc
    { c.settle with loops := r.1, pc := r.2 }
  | .handler => { c.settle with pc := c.pc + 4 }

/-- A word completes and transfers control to an address. -/
def Cluster.jump (c : Cluster) (pc : PC) : Cluster := { c.settle with pc := pc }

/-- The word that issues completes. -/
def State.advance (s : State) : State := { s.modMe Cluster.advance with note := .done }

/-- The word that issues completes by a transfer of control. -/
def State.jump (s : State) (pc : PC) : State := { s.modMe (fun c => c.jump pc) with note := .done }

/-- The word that issues cannot complete yet: it stays at its PC and has no effect (R32, R93). -/
def State.stall (s : State) : State := { s.modMe (fun c => { c with waiting := true }) with note := .waited }

/-- A later word of the cluster has issued behind its fences (R218). -/
def Cluster.behindFences (c : Cluster) : Cluster := { c with fences := c.fences.map fun (f : Fence) => { f with passed := true } }
/-- The word that issues has begun and now only waits: it has taken effect, and stays at its PC (R100, R317, R328); an earlier FENCE is
passed (R218). -/
def State.beginWait (s : State) : State := { s.modMe (fun c => { c.behindFences with waiting := true }) with note := .done }

/-- The word that issues writes gD and completes. -/
def State.finish (s : State) (d : Reg) (v : Word) : State := (s.setG d v).advance

/-- Nothing happens, and the note says so: an event that is not due. -/
def State.stutter (s : State) : Result := .next { s with note := .waited }

/-- An atomic that has been carried out is to be asked for again by a replay of its word: its response is still to come (R213, R321). -/
def Cluster.reasks (c : Cluster) : Bool :=
  c.mode == .user && c.replays != 0 && match c.retag with | some t => t.1 == c.pc | none => false

/-! ### Retiring a record -/

/-- A cluster becomes idle: its record is gone, with its loops, waits and pending causes (R79, R245), but for SQE and ECU, which
units may raise in a cluster without a record, and which stay pending until its next word (R52, R170, R269; DEDUCED, log 93).  TSTAT.SOLO
is no part of a record and stays (R45), and a FENCE that has issued goes on holding the cluster's later accesses (R216). -/
def Cluster.retire (c : Cluster) : Cluster :=
  { c with
    record := none, taken := none, mode := .user, waiting := false, since := 0, syncWait := false
    syncAge := 0
    loops := Loops.reset, pend := c.pend.filter fun p => p.cause == .sqe || p.cause == .ecu
    step := false, barv := none, hbarv := none, idle := none, wstag := none, remote := none, replays := 0, dual := none, beatWait := false, ckWait := none }

/-! ### Traps (R326, R327, R328) -/

/-- TCAUSE of a trap (R45). -/
def causeWord (async bund : Bool) (path : Nat) (cause : Cause) : Word :=
  packWord [(15, flagNat async), (14, flagNat bund), (8, path), (0, cause.code)]

/-- The PC of R45: a FENCE that waits and that no later word has passed is recorded itself, with the loops as they stood
(R218); otherwise the word at PC. -/
def Cluster.trapPoint (c : Cluster) (async : Bool) : PC × Loops :=
  match async, c.fences.getLast? with
  | true, some f => if f.passed then (c.pc, c.loops) else (f.pc, f.loops)
  | _, _ => (c.pc, c.loops)

/-- Trap entry (R326): the cause, PC and value are saved, the mode becomes handler and the PC is THVEC.  `late` is the case
of R33, a cause met after the word's bundle took effect, which sets SOLO; any other entry leaves it (R45).  A DUAL copy that traps ends (R338). -/
def Cluster.enterTrap (c : Cluster) (secure async bund late : Bool) (path : Nat) (cause : Cause) (tval : Word) : Cluster :=
  let at_ := c.trapPoint async
  let keep := if async then c.fences.filter (·.passed) else c.fences
  { c with
    tcause := causeWord async bund path cause, tepc := at_.1.setWidth 64, tval := tval
    pmode := c.mode = .handler, pworld := secure, mode := .handler, solo := late || c.solo
    pc := c.thvec.setWidth 18, loops := at_.2, fences := keep
    waiting := false, since := 0, syncWait := false, syncAge := 0, idle := none, replays := 0
    dual := c.dual.map fun r => { r with trapped := true, ended := true } }

/-- A double trap (R327): the cluster stops and its record is discarded. -/
def Cluster.doubleTrap (c : Cluster) : Cluster := { c.retire with stopped := true }

/-- Cluster c takes a cause: trap entry, or a double trap for a synchronous cause or MCK in handler mode (R326, R327). -/
def State.takeTrap (s : State) (c : CluIx) (async bund late : Bool) (path : Nat) (cause : Cause) (tval : Word) : State :=
  let x := s.cluster c
  if x.mode = .handler ∧ (!async ∨ cause = .mck) then
    (s.setCluster c x.doubleTrap).log (dieOf (coreOf c)) 11 (causeWord async bund path cause).toNat 0 x.lid
  else s.setCluster c (x.enterTrap (s.core (coreOf c)).secure async bund late path cause tval)

/-- The word that issues raises a synchronous cause: it has no effect but the trap (R65); in a bundle TCAUSE.BUND is set (R33). -/
def State.trap (s : State) (cause : Cause) (tval : Word) (path : Nat := noPath) : State :=
  { s.takeTrap s.focus false s.bundling false path cause tval with note := .trapped }

/-- A value the manual does not give, and the state that has used it (DESIGN CHOICE, log 6). -/
def State.free (s : State) : Word × State := (Config.freeWord s.freeCtr, { s with freeCtr := s.freeCtr + 1 })

/-- A synchronous cause for which the manual gives no TVAL: the value is free (DESIGN CHOICE, log 6). -/
def State.trapFree (s : State) (cause : Cause) (path : Nat := noPath) : State :=
  let r := s.free
  r.2.trap cause r.1 path

/-- Return from a trap: PC := TEPC, MODE := user; a halted cluster with DBGREQ.STEP set will take DBG after one word
(R328, R337). -/
def Cluster.rett (c : Cluster) (step : Bool) : Cluster :=
  { (c.jump (c.tepc.setWidth 18)) with
    mode := .user, step := step && bits c.tcause 0 5 == 16 && bit c.tcause 15 }

/-- The cause is delivered asynchronously to a cluster that runs a record. -/
def State.pendOn (s : State) (c : CluIx) (cause : Cause) (tval : Word) : State :=
  s.modCluster c fun x => if x.record.isSome then x.addPend cause tval else x

end Sys2Proof.Machine
end

