-- ==== Sys2Proof/Machine/Operands.lean ====
section
/-!
DEFINITION. Operands: the immediates, addresses and targets an instruction forms from its fields (R24, R25, R26, R83).
-/

namespace Sys2Proof.Machine

/-- IMM15 sign-extended: ADDI, SLTI and ADDPC (R25). -/
def simm15 (i : BitVec 15) : Word := i.signExtend 64

/-- IMM15 zero-extended: ORI and XORI (R25). -/
def zimm15 (i : BitVec 15) : Word := i.setWidth 64

/-- IMM16 shifted into quarter q (R69). -/
def quarter (i : BitVec 16) (q : BitVec 2) : Word := i.setWidth 64 <<< (16 * q.toNat)

/-- The mask of quarter q (R69). -/
def quarterMask (q : BitVec 2) : Word := 0xFFFF#64 <<< (16 * q.toNat)

/-- The target of a transfer by a signed word offset k: (PC + 4k) mod 2^18 (R26). -/
def relTarget {n : Nat} (pc : PC) (k : BitVec n) : PC := pc + 4 * k.signExtend 18

/-- The target of JR and CALLR: gA[17:0] (R26). -/
def regTarget (v : Word) : PC := v.setWidth 18

/-- The link value: (PC + 4) mod 2^18, zero-extended (R26). -/
def linkOf (pc : PC) : Word := (pc + 4).setWidth 64

/-- The effective address of format M: gA + sext(IMM11) x size (R25). -/
def addrM (base : Word) (i : BitVec 11) (size : Nat) : Word := base + i.signExtend 64 * word size

/-- The effective address of the indexed forms: gA + gB x size (R83). -/
def addrR (base index : Word) (size : Nat) : Word := base + index * word size

/-- A value of `size` bytes extended to a register: by sign or by zeros (R83). -/
def extend (signed : Bool) (size x : Nat) : Word := if signed then sext x (8 * size) else word x

/-- Bytes of one element of a plain type (R101). -/
def elemBytes : ElemType → Nat
  | .f32 | .s32 | .n32 => 4
  | .bf16 | .f16 | .s16 | .n16 => 2
  | _ => 1

/-- The element type of a Q code (R50, R101). -/
def elemOfCode : Nat → Option ElemType
  | 0 => some .f32 | 1 => some .bf16 | 2 => some .f16 | 3 => some .e4m3 | 4 => some .e5m2 | 5 => some .s8
  | 6 => some .s16 | 7 => some .s32 | 8 => some .n8 | 9 => some .n16 | 10 => some .n32 | 11 => some .mxi8
  | 12 => some .bpn | _ => none

end Sys2Proof.Machine
end

