-- ==== Sys2Proof/Machine/Control.lean ====
section
/-!
DEFINITION. Control: jumps, branches and hardware loops (R72 to R79).
-/

namespace Sys2Proof.Machine

/-- J (R72). -/
def execJ (off : BitVec 25) (s : State) : Result := .next (s.jump (relTarget s.me.pc off))

/-- CALL (R72): the link goes to g31. -/
def execCall (off : BitVec 25) (s : State) : Result :=
  .next ((s.setG 31 (linkOf s.me.pc)).jump (relTarget s.me.pc off))

/-- A conditional branch: taken, it transfers control; not taken, the next word follows (R73, R77). -/
def State.branch (s : State) (taken : Bool) (off : BitVec 16) : Result :=
  .next (if taken then s.jump (relTarget s.me.pc off) else s.advance)

/-- BEQZ (R73). -/
def execBeqz (d : Reg) (off : BitVec 16) (s : State) : Result := s.branch (s.g d == 0) off
/-- BNEZ (R73). -/
def execBnez (d : Reg) (off : BitVec 16) (s : State) : Result := s.branch (s.g d != 0) off
/-- BLTZ (R73). -/
def execBltz (d : Reg) (off : BitVec 16) (s : State) : Result := s.branch ((s.g d).slt 0) off
/-- BGEZ (R73). -/
def execBgez (d : Reg) (off : BitVec 16) (s : State) : Result := s.branch (!(s.g d).slt 0) off
/-- BGTZ (R73). -/
def execBgtz (d : Reg) (off : BitVec 16) (s : State) : Result := s.branch ((0 : Word).slt (s.g d)) off
/-- BLEZ (R73). -/
def execBlez (d : Reg) (off : BitVec 16) (s : State) : Result := s.branch (!(0 : Word).slt (s.g d)) off

/-- JR (R74). -/
def execJr (a : Reg) (s : State) : Result :=
  .next (if bits (s.g a) 0 2 ≠ 0 then s.trap .aln (s.g a) else s.jump (regTarget (s.g a)))

/-- CALLR (R74): gA is read before the link is written. -/
def execCallr (d a : Reg) (s : State) : Result :=
  .next (if bits (s.g a) 0 2 ≠ 0 then s.trap .aln (s.g a)
    else (s.setG d (linkOf s.me.pc)).jump (regTarget (s.g a)))

/-- LOOPS (R76).  Its own address is never the END of an enclosing loop, so R77 has nothing to do for it; a trip count of
zero takes control past the body. -/
def execLoops (a b : Reg) (s : State) : Result :=
  let c := s.me
  let count : W32 := (s.g a).setWidth 32
  let stop : PC := (s.g b).setWidth 18
  .next (
    if c.mode = .handler ∨ c.loops.depth = 4 then s.trap .udi 2
    else if stop ≤ c.pc ∨ (0 < c.loops.depth ∧ c.loops.stop[0] < stop) then s.trap .udi 3
    else if bits (s.g b) 0 2 ≠ 0 then s.trap .aln (stop.setWidth 64)
    else if count = 0 then s.jump (stop + 4)
    else { s.modMe (fun c => { c.jump (c.pc + 4) with loops := c.loops.push count (c.pc + 4) stop }) with note := .done })

/-- LOOPX (R78). -/
def execLoopx (s : State) : Result :=
  let c := s.me
  .next (
    if c.mode = .handler ∨ c.loops.depth = 0 then s.trap .udi 4
    else { s.modMe (fun c => { c.jump (c.loops.stop[0] + 4) with loops := c.loops.pop }) with note := .done })

end Sys2Proof.Machine
end

