-- ==== Sys2Proof/Machine/Float.lean ====
section
/-!
DEFINITION. Float: the number formats, the one rounding of R105 with its flags, exact sums and products, conversions and
functions (spec/05_formats.md, R80 to R82, R147, R148).
-/

namespace Sys2Proof.Machine

/-- The five flags NV DZ OF UF NX in bits 4 to 0 (R127). -/
abbrev Flags := BitVec 5

/-- Invalid operation. -/
def flagNV : Flags := 16
/-- Division by zero. -/
def flagDZ : Flags := 8
/-- Overflow. -/
def flagOF : Flags := 4
/-- Underflow. -/
def flagUF : Flags := 2
/-- Inexact. -/
def flagNX : Flags := 1

/-- A flag when a condition holds. -/
def flagIf (b : Bool) (f : Flags) : Flags := if b then f else 0

/-- A float format: exponent bits w, fraction bits m; `e4m3` marks the one without infinity (R102). -/
structure Fmt where
  w : Nat
  m : Nat
  e4m3 : Bool
  deriving DecidableEq, Repr

/-- binary32. -/
def fmtF32 : Fmt := ⟨8, 23, false⟩
/-- BF16. -/
def fmtBF16 : Fmt := ⟨8, 7, false⟩
/-- binary16. -/
def fmtF16 : Fmt := ⟨5, 10, false⟩
/-- E4M3. -/
def fmtE4M3 : Fmt := ⟨4, 3, true⟩
/-- E5M2. -/
def fmtE5M2 : Fmt := ⟨5, 2, false⟩

/-- The bias b (R102). -/
def Fmt.bias (f : Fmt) : Nat := 2 ^ (f.w - 1) - 1
/-- Bits of a code. -/
def Fmt.size (f : Fmt) : Nat := 1 + f.w + f.m
/-- The sign bit of a code. -/
def Fmt.signBit (f : Fmt) (neg : Bool) : Nat := if neg then 2 ^ (f.w + f.m) else 0
/-- The code of +infinity; E4M3 has none and its greatest finite code stands in its place (R103, R105). -/
def Fmt.infCode (f : Fmt) : Nat := if f.e4m3 then 0x7E else (2 ^ f.w - 1) * 2 ^ f.m
/-- The greatest finite code (R103). -/
def Fmt.maxCode (f : Fmt) : Nat := if f.e4m3 then 0x7E else (2 ^ f.w - 1) * 2 ^ f.m - 1
/-- qnan(f): the canonical NaN (R103). -/
def Fmt.qnan (f : Fmt) : Nat := if f.e4m3 then 0x7F else (2 ^ f.w - 1) * 2 ^ f.m + 2 ^ (f.m - 1)
/-- The exponent of the grid step of subnormals: 1 - b - m (R105). -/
def Fmt.minExp (f : Fmt) : Int := 1 - (f.bias : Int) - f.m

/-- What a code stands for: a NaN, an infinity, or (-1)^neg * m * 2^e (R102). -/
inductive Num where
  | nan (signalling : Bool)
  | inf (neg : Bool)
  | fin (neg : Bool) (m : Nat) (e : Int)
  deriving DecidableEq, Repr

/-- A code read by the formulas of R102. -/
def Fmt.decode (f : Fmt) (c : Nat) : Num :=
  let neg := nbit c (f.w + f.m)
  let e := nbits c f.m f.w
  let x := nbits c 0 f.m
  if f.e4m3 ∧ e = 15 ∧ x = 7 then .nan false
  else if !f.e4m3 ∧ e = 2 ^ f.w - 1 then (if x = 0 then .inf neg else .nan (!nbit x (f.m - 1)))
  else if e = 0 then .fin neg x f.minExp
  else .fin neg (2 ^ f.m + x) (f.minExp + (e - 1))

/-- A code and the flags raised in making it. -/
structure Rounded where
  code : Nat
  flags : Flags
  deriving DecidableEq, Repr

/-- The canonical NaN with flags. -/
def Fmt.nanR (f : Fmt) (fl : Flags) : Rounded := ⟨f.qnan, fl⟩

/-- An infinity delivered without overflow; E4M3 saturates (R105, last row). -/
def Fmt.infR (f : Fmt) (neg : Bool) : Rounded :=
  ⟨f.signBit neg + f.infCode, if f.e4m3 then flagOF ||| flagNX else 0⟩

/-- An infinity delivered by a division by zero (R80, R148): the flags of the rounding and DZ. (DEDUCED, log 53) -/
def Fmt.poleR (f : Fmt) (neg : Bool) : Rounded := ⟨(f.infR neg).code, (f.infR neg).flags ||| flagDZ⟩

/-- Bits of the binary expansion of a number. -/
def bitLen (m : Nat) : Nat := if m = 0 then 0 else m.log2 + 1

/-- The rounding of R105: the value is (-1)^neg * (m + t) * 2^e with t in [0, 1), not zero exactly when `sticky`.  The
exponent of the grid is that of the value's leading bit less m, and no lower than the subnormal grid, where zero lies; a magnitude code
above the greatest finite one overflows.  Flags as R106: tininess is detected after rounding. -/
def Fmt.round (f : Fmt) (rtz neg : Bool) (m : Nat) (e : Int) (sticky : Bool := false) : Rounded :=
  let q : Int := if m = 0 then f.minExp else max ((bitLen m : Int) - 1 + e - f.m) f.minExp
  let n0 := if q ≤ e then m * 2 ^ (e - q).toNat else m / 2 ^ (q - e).toNat
  let r := if q ≤ e then 0 else m % 2 ^ (q - e).toNat
  let half := if q ≤ e then 1 else 2 ^ ((q - e).toNat - 1)
  let inexact := r != 0 || sticky
  let up := !rtz && (r > half || (r == half && (sticky || n0 % 2 == 1)))
  let n := n0 + flagNat up
  let code := (q - f.minExp).toNat * 2 ^ f.m + n
  if f.maxCode < code then
    ⟨f.signBit neg + (if rtz then f.maxCode else f.infCode), flagOF ||| flagNX⟩
  else ⟨f.signBit neg + code, flagIf inexact flagNX ||| flagIf (inexact && code < 2 ^ f.m) flagUF⟩

/-- A quotient n / d * 2^e, d not zero, rounded once. -/
def Fmt.roundQuot (f : Fmt) (rtz neg : Bool) (n d : Nat) (e : Int) (sticky : Bool := false) : Rounded :=
  let k := f.m + 4 + bitLen d - bitLen n
  let x := n * 2 ^ k
  f.round rtz neg (x / d) (e - k) (sticky || x % d != 0)

/-- A number rounded into a format; a NaN becomes canonical, and a signalling one raises invalid (R104, R112). -/
def Fmt.ofNum (f : Fmt) (rtz : Bool) : Num → Rounded
  | .nan sig => f.nanR (flagIf sig flagNV)
  | .inf neg => f.infR neg
  | .fin neg m e => f.round rtz neg m e

/-! ### Exact dyadic numbers -/

/-- The exact number i * 2^e. -/
structure Dyadic where
  i : Int
  e : Int
  deriving DecidableEq, Repr

/-- A finite number as a dyadic; the sign of zero is lost. -/
def dyadicOf (neg : Bool) (m : Nat) (e : Int) : Dyadic := ⟨if neg then -(m : Int) else m, e⟩

/-- An exact sum. -/
def Dyadic.add (x y : Dyadic) : Dyadic :=
  if x.i = 0 then y else if y.i = 0 then x
  else
    let e := min x.e y.e
    ⟨x.i * 2 ^ (x.e - e).toNat + y.i * 2 ^ (y.e - e).toNat, e⟩

/-- An exact product. -/
def Dyadic.mul (x y : Dyadic) : Dyadic := ⟨x.i * y.i, x.e + y.e⟩

/-- The exact value zero. -/
def Dyadic.zero : Dyadic := ⟨0, 0⟩

/-- A dyadic rounded; `negZero` is the sign a zero takes. -/
def Fmt.ofDyadic (f : Fmt) (x : Dyadic) (negZero : Bool := false) (rtz : Bool := false) : Rounded :=
  if x.i = 0 then ⟨f.signBit negZero, 0⟩ else f.round rtz (x.i < 0) x.i.natAbs x.e

/-! ### Sums, products, quotients and roots on numbers (R80, R104) -/

/-- A signalling NaN (R104). -/
def Num.signals : Num → Bool
  | .nan s => s
  | _ => false

/-- Any NaN. -/
def Num.isNan : Num → Bool
  | .nan _ => true
  | _ => false

/-- Not a NaN and not infinite. -/
def Num.isFinite : Num → Bool
  | .fin _ _ _ => true
  | _ => false

/-- The number with the other sign. -/
def Num.neg : Num → Num
  | .nan s => .nan s
  | .inf n => .inf !n
  | .fin n m e => .fin (!n) m e

/-- The sign bit of a number; a NaN has none. -/
def Num.sign : Num → Bool
  | .nan _ => false
  | .inf n => n
  | .fin n _ _ => n

/-- A number is zero. -/
def Num.isZero : Num → Bool
  | .fin _ m _ => m == 0
  | _ => false

/-- The exact sum of two numbers, with its flags before rounding: an exact zero of operands with opposite signs is +0. -/
def Num.add (x y : Num) : Num × Flags :=
  match x, y with
  | .nan s, y => (.nan false, flagIf (s || y.signals) flagNV)
  | x, .nan s => (.nan false, flagIf (s || x.signals) flagNV)
  | .inf n, .inf n' => if n = n' then (.inf n, 0) else (.nan false, flagNV)
  | .inf n, _ => (.inf n, 0)
  | _, .inf n => (.inf n, 0)
  | .fin n m e, .fin n' m' e' =>
    let d := (dyadicOf n m e).add (dyadicOf n' m' e')
    (.fin (if d.i = 0 then (n && n') else d.i < 0) d.i.natAbs d.e, 0)

/-- The exact product of two numbers, with its flags before rounding. -/
def Num.mul (x y : Num) : Num × Flags :=
  match x, y with
  | .nan s, y => (.nan false, flagIf (s || y.signals) flagNV)
  | x, .nan s => (.nan false, flagIf (s || x.signals) flagNV)
  | .inf n, y => if y.isZero then (.nan false, flagNV) else (.inf (n != y.sign), 0)
  | x, .inf n => if x.isZero then (.nan false, flagNV) else (.inf (n != x.sign), 0)
  | .fin n m e, .fin n' m' e' => (.fin (n != n') (m * m') (e + e'), 0)

/-- A number with flags, rounded by RNE. -/
def Fmt.close (f : Fmt) (r : Num × Flags) : Rounded :=
  let x := f.ofNum false r.1
  ⟨x.code, x.flags ||| r.2⟩

/-- a + b, rounded once. -/
def Fmt.add (f : Fmt) (a b : Num) : Rounded := f.close (a.add b)

/-- a - b, rounded once. -/
def Fmt.sub (f : Fmt) (a b : Num) : Rounded := f.close (a.add b.neg)

/-- a x b, rounded once. -/
def Fmt.mul (f : Fmt) (a b : Num) : Rounded := f.close (a.mul b)

/-- a x b + d, rounded once. -/
def Fmt.fma (f : Fmt) (a b d : Num) : Rounded :=
  let p := a.mul b
  let s := p.1.add d
  f.close (s.1, s.2 ||| p.2)

/-- a / b, rounded once. -/
def Fmt.div (f : Fmt) (a b : Num) : Rounded :=
  match a, b with
  | .nan s, y => f.nanR (flagIf (s || y.signals) flagNV)
  | x, .nan s => f.nanR (flagIf (s || x.signals) flagNV)
  | .inf n, y => match y with
    | .inf _ => f.nanR flagNV
    | _ => f.infR (n != y.sign)
  | x, .inf n => ⟨f.signBit (x.sign != n), 0⟩
  | .fin n m e, .fin n' m' e' =>
    if m' = 0 then (if m = 0 then f.nanR flagNV else f.poleR (n != n'))
    else if m = 0 then ⟨f.signBit (n != n'), 0⟩
    else f.roundQuot false (n != n') m m' (e - e')

/-- The square root, rounded once. -/
def Fmt.sqrt (f : Fmt) (a : Num) : Rounded :=
  match a with
  | .nan s => f.nanR (flagIf s flagNV)
  | .inf n => if n then f.nanR flagNV else f.infR false
  | .fin n m e =>
    if m = 0 then ⟨f.signBit n, 0⟩
    else if n then f.nanR flagNV
    else
      let odd := e % 2 ≠ 0
      let m' := (if odd then 2 * m else m) * 2 ^ (2 * (f.m + 4))
      let e' := (if odd then e - 1 else e) / 2 - (f.m + 4)
      let r := isqrt m'
      f.round false false r e' (r * r != m')

/-! ### Comparison (R81, R147) -/

/-- a < b on numbers that are no NaN; zeros of either sign are equal. -/
def Num.lt (x y : Num) : Bool :=
  match x, y with
  | .nan _, _ | _, .nan _ => false
  | .inf n, .inf n' => n && !n'
  | .inf n, _ => n
  | _, .inf n => !n
  | .fin n m e, .fin n' m' e' => ((dyadicOf n m e).add (dyadicOf (!n') m' e')).i < 0

/-- a = b on numbers that are no NaN. -/
def Num.eq (x y : Num) : Bool := !x.isNan && !y.isNan && !x.lt y && !y.lt x

/-- The lesser or the greater of two numbers, by codes: a NaN gives the canonical NaN, and -0 is below +0 (R147). -/
def Fmt.minMax (f : Fmt) (wantMax : Bool) (a b : Nat) : Rounded :=
  let x := f.decode a
  let y := f.decode b
  if x.isNan || y.isNan then f.nanR (flagIf (x.signals || y.signals) flagNV)
  else
    let less := x.lt y || (x.eq y && x.sign && !y.sign)
    ⟨if less != wantMax then a else b, 0⟩

/-- A condition of FCMP with its invalid flag (R81). -/
def cmpFlags (ordered : Bool) (x y : Num) : Flags :=
  flagIf (x.signals || y.signals || (ordered && (x.isNan || y.isNan))) flagNV

/-! ### Conversions to and from integers (R82, R112) -/

/-- A finite number rounded to an integer, and whether it changed. -/
def roundInt (rtz neg : Bool) (m : Nat) (e : Int) : Int × Bool :=
  let n0 := if 0 ≤ e then m * 2 ^ e.toNat else m / 2 ^ (-e).toNat
  let r := if 0 ≤ e then 0 else m % 2 ^ (-e).toNat
  let half := if 0 ≤ e then 1 else 2 ^ ((-e).toNat - 1)
  let up := !rtz && (r > half || (r == half && n0 % 2 == 1))
  let n : Int := (n0 + flagNat up : Nat)
  (if neg then -n else n, r != 0)

/-- The least and greatest values of k-bit integers (R107). -/
def intRange (signed : Bool) (k : Nat) : Int × Int :=
  if signed then (-(2 ^ (k - 1)), 2 ^ (k - 1) - 1) else (0, 2 ^ k - 1)

/-- The nearest value in range. -/
def clampInt (r : Int × Int) (x : Int) : Int := max r.1 (min r.2 x)

/-- A number converted to an integer in range: a NaN gives 0, a value out of range the nearest limit, either with invalid;
otherwise inexact when it changed (R82, R112). -/
def Num.toInt (x : Num) (signed : Bool) (k : Nat) (rtz : Bool) : Int × Flags :=
  let r := intRange signed k
  match x with
  | .nan _ => (0, flagNV)
  | .inf n => (if n then r.1 else r.2, flagNV)
  | .fin n m e =>
    let v := roundInt rtz n m e
    if v.1 < r.1 ∨ r.2 < v.1 then (clampInt r v.1, flagNV) else (v.1, flagIf v.2 flagNX)

/-- An integer rounded into a format. -/
def Fmt.ofInt (f : Fmt) (rtz : Bool) (x : Int) : Rounded := f.round rtz (x < 0) x.natAbs 0

/-! ### Functions (R148): fixed-point with 400 fraction bits, far beyond what a rounding can turn on (DESIGN CHOICE, log 19) -/

/-- Fraction bits of the fixed-point numbers below. -/
def fixBits : Nat := 400

/-- floor(ln 2 * 2^400). -/
def ln2Fix : Nat := 0xb17217f7d1cf79abc9e3b39803f2f6af40f343267298b62d8a0d175b8baafa2be7b876206debac98559552fb4afa1b10ed2e

/-- The Taylor sum of e^r for 0 <= r < 1: terms n, n+1, ... while fuel lasts. -/
def expTerms : Nat → Nat → Nat → Nat → Nat → Nat
  | 0, _, _, _, acc => acc
  | k + 1, r, n, term, acc =>
    let t := term * r / 2 ^ fixBits / n
    expTerms k r (n + 1) t (acc + t)

/-- e^x for x = i * 2^-400: a fixed-point mantissa and a power of two. -/
def expFix (i : Int) : Nat × Int :=
  let k := i.fdiv ln2Fix
  let r := (i - k * ln2Fix).toNat
  (expTerms 110 r 1 (2 ^ fixBits) (2 ^ fixBits), k)

/-- The series z + z^3/3 + ... of atanh for |z| <= 1/3. -/
def atanhTerms : Nat → Int → Nat → Int → Int → Int
  | 0, _, _, _, acc => acc
  | k + 1, z2, n, p, acc =>
    atanhTerms k z2 (n + 2) (p * z2 / 2 ^ fixBits) (acc + p / n)

/-- ln of m * 2^e, m not zero, as a fixed-point number: 2 atanh((y-1)/(y+1)) + k ln 2 with y near 1. -/
def logFix (m : Nat) (e : Int) : Int :=
  let len := bitLen m
  let big := 3 * 2 ^ len ≤ 4 * m
  let k : Int := if big then len else len - 1
  let one : Int := if big then 2 ^ len else 2 ^ (len - 1)
  let z := ((m : Int) - one) * 2 ^ fixBits / (m + one)
  2 * atanhTerms 140 (z * z / 2 ^ fixBits) 1 z 0 + (k + e) * ln2Fix

/-- A finite number as a fixed-point integer, for |x| < 2^9. -/
def toFix (neg : Bool) (m : Nat) (e : Int) : Int :=
  let v : Nat := if 0 ≤ e + fixBits then m * 2 ^ (e + fixBits).toNat else m / 2 ^ (-(e + fixBits)).toNat
  if neg then -(v : Int) else v

/-- |x| is at least 2^8, where e^x, tanh and the sigmoid stand at a limit of every format. -/
def isHuge (m : Nat) (e : Int) : Bool := 8 < (bitLen m : Int) + e

/-- The functions of R148. -/
inductive FloatFn where
  | exp | log | rcp | rsqrt | tanh | sigm
  deriving DecidableEq, Repr

/-- The code of 1.0 or 0.5 with a sign. -/
def Fmt.oneTimes (f : Fmt) (neg : Bool) (e : Int) : Rounded := f.round false neg 1 e

/-- The value just below 1 in magnitude that a function reaches at a limit. -/
def Fmt.almostOne (f : Fmt) (neg : Bool) : Rounded := f.round false neg (2 ^ 64 - 1) (-64) true

/-- The exact function value at a finite x that is not zero, rounded once (R148). -/
def Fmt.fnFinite (f : Fmt) (fn : FloatFn) (neg : Bool) (m : Nat) (e : Int) : Rounded :=
  match fn with
  | .exp =>
    if isHuge m e then (if neg then f.round false false 1 (-1000) true else f.round false false 1 1000 true)
    else
      let r := expFix (toFix neg m e)
      f.round false false r.1 (r.2 - fixBits) true
  | .log =>
    if neg then f.nanR flagNV
    else if ((dyadicOf false m e).add ⟨-1, 0⟩).i = 0 then ⟨0, 0⟩
    else
      let r := logFix m e
      f.round false (r < 0) r.natAbs (-fixBits) true
  | .rcp => f.roundQuot false neg 1 m (-e)
  | .rsqrt =>
    if neg then f.nanR flagNV
    else
      let odd := e % 2 ≠ 0
      let m' := if odd then 2 * m else m
      let e' := if odd then e - 1 else e
      let k := bitLen m' + f.m + 4
      let r := isqrt (2 ^ (2 * k) / m')
      f.round false false r (-(e' / 2) - k) (r * r * m' != 2 ^ (2 * k))
  | .tanh =>
    if isHuge m e then f.almostOne neg
    else
      let r := expFix (2 * toFix false m e)
      let x := r.1 * 2 ^ r.2.toNat
      f.roundQuot false neg (x - 2 ^ fixBits) (x + 2 ^ fixBits) 0 true
  | .sigm =>
    if isHuge m e then (if neg then f.round false false 1 (-1000) true else f.almostOne false)
    else
      let r := expFix (toFix false m e)
      let x := r.1 * 2 ^ r.2.toNat
      f.roundQuot false false (if neg then 2 ^ fixBits else x) (x + 2 ^ fixBits) 0 true

/-- A function of R148 with its special cases. -/
def Fmt.fn (f : Fmt) (fn : FloatFn) (x : Num) : Rounded :=
  match x with
  | .nan s => f.nanR (flagIf s flagNV)
  | .inf n =>
    match fn with
    | .exp => if n then ⟨0, 0⟩ else f.infR false
    | .log => if n then f.nanR flagNV else f.infR false
    | .rcp => ⟨f.signBit n, 0⟩
    | .rsqrt => if n then f.nanR flagNV else ⟨0, 0⟩
    | .tanh => f.oneTimes n 0
    | .sigm => if n then ⟨0, 0⟩ else f.oneTimes false 0
  | .fin n m e =>
    if m = 0 then
      match fn with
      | .exp => f.oneTimes false 0
      | .log => f.poleR true
      | .rcp | .rsqrt => f.poleR n
      | .tanh => ⟨f.signBit n, 0⟩
      | .sigm => f.oneTimes false (-1)
    else f.fnFinite fn n m e

/-! ### F32 codes in words -/

/-- The number of an F32 code. -/
def numF32 (c : W32) : Num := fmtF32.decode c.toNat

/-- An F32 code from a rounding. -/
def Rounded.w32 (r : Rounded) : W32 := BitVec.ofNat 32 r.code

/-- a + b in F32, with its flags. -/
def addF32 (a b : W32) : W32 × Flags := let r := fmtF32.add (numF32 a) (numF32 b); (r.w32, r.flags)

/-- An F32 code is finite. -/
def finiteF32 (c : W32) : Bool := (numF32 c).isFinite

end Sys2Proof.Machine
end

