-- ==== Sys2Proof/Machine/Flags.lean ====
section
/-!
DEFINITION. Flags: how floating-point flags are accumulated and delivered (R127 to R129).
-/

namespace Sys2Proof.Machine

/-- Flags ORed into FPFLG (R128). -/
def Cluster.raise (c : Cluster) (f : Flags) : Cluster := { c with fpflg := c.fpflg ||| f }

/-- Flags of a command or macro with a number are merged into its cluster while its record runs, and discarded once the
record has retired (R128). -/
def State.mergeFlags (s : State) (c : CluIx) (seq : Nat) (f : Flags) : State :=
  s.modCluster c fun x => if x.runs seq then x.raise f else x

/-- A delivery point completes: enabled flags make FPX pending, with TVAL := FPFLG AND FPXEN; FPFLG is unchanged (R129). -/
def Cluster.deliver (c : Cluster) : Cluster :=
  let v := c.fpflg &&& c.fpxen
  if v = 0 then c else c.addPend .fpx (v.setWidth 64)

/-- The word that issues is a delivery point and completes (R129). -/
def State.advanceDeliver (s : State) : State := (s.advance).modMe Cluster.deliver

end Sys2Proof.Machine
end

