-- ==== Sys2Proof/Machine/Fp.lean ====
section
/-!
DEFINITION. Fp: the scalar FP32 instructions (R80 to R82).
-/

namespace Sys2Proof.Machine

/-- The F32 operand of a register: bits 31:0 (R80). -/
def fpArg (w : Word) : Num := fmtF32.decode (bits w 0 32)

/-- The word that issues writes a rounded result, zero-extended, and merges its flags (R80, R128). -/
def State.fpFinish (s : State) (d : Reg) (r : Rounded) : Result :=
  .next ((s.setG d (word r.code)).modMe (fun c => c.raise r.flags)).advance

/-- FADD (R80). -/
def execFadd (d a b : Reg) (s : State) : Result := s.fpFinish d (fmtF32.add (fpArg (s.g a)) (fpArg (s.g b)))
/-- FSUB (R80). -/
def execFsub (d a b : Reg) (s : State) : Result := s.fpFinish d (fmtF32.sub (fpArg (s.g a)) (fpArg (s.g b)))
/-- FMUL (R80). -/
def execFmul (d a b : Reg) (s : State) : Result := s.fpFinish d (fmtF32.mul (fpArg (s.g a)) (fpArg (s.g b)))
/-- FMAC (R80): it reads gD as the addend. -/
def execFmac (d a b : Reg) (s : State) : Result :=
  s.fpFinish d (fmtF32.fma (fpArg (s.g a)) (fpArg (s.g b)) (fpArg (s.g d)))
/-- FDIV (R80). -/
def execFdiv (d a b : Reg) (s : State) : Result := s.fpFinish d (fmtF32.div (fpArg (s.g a)) (fpArg (s.g b)))
/-- FSQRT (R80). -/
def execFsqrt (d a : Reg) (s : State) : Result := s.fpFinish d (fmtF32.sqrt (fpArg (s.g a)))

/-- A condition of FCMP and whether it is ordered (R81). -/
def fcmpHolds (cc : CmpCond) (x y : Num) : Bool :=
  match cc with
  | .eq => x.eq y
  | .lt => x.lt y
  | .le => x.lt y || x.eq y
  | .un => x.isNan || y.isNan

/-- LT and LE raise invalid on any NaN, EQ and UN on a signalling one (R81). -/
def fcmpOrdered : CmpCond → Bool
  | .lt | .le => true
  | .eq | .un => false

/-- FCMP (R81). -/
def execFcmp (cc : CmpCond) (d a b : Reg) (s : State) : Result :=
  let x := fpArg (s.g a)
  let y := fpArg (s.g b)
  s.fpFinish d ⟨flagNat (fcmpHolds cc x y), cmpFlags (fcmpOrdered cc) x y⟩

/-- A conversion of FCVT on the whole of gA (R82); an integer result fills 64 bits.  A .Z form that overflows BF16 or FP16 delivers the
greatest finite value, as R105's row of rounding toward zero gives it; the infinity of R80 is that of RNE (DEDUCED, log 61). -/
def fcvtResult (cv : CvtOp) (v : Word) : Rounded :=
  let z := cv.toZero
  let toI (signed : Bool) : Rounded :=
    let r := (fpArg v).toInt signed 64 z
    ⟨(BitVec.ofInt 64 r.1).toNat, r.2⟩
  match cv.kind with
  | .s64F => fmtF32.ofInt z v.toInt
  | .n64F => fmtF32.ofInt z v.toNat
  | .f32S => toI true
  | .f32N => toI false
  | .f32B => fmtBF16.ofNum z (fpArg v)
  | .f32H => fmtF16.ofNum z (fpArg v)
  | .bF32 => fmtF32.ofNum z (fmtBF16.decode (bits v 0 16))
  | .hF32 => fmtF32.ofNum z (fmtF16.decode (bits v 0 16))

/-- FCVT (R82). -/
def execFcvt (cv : CvtOp) (d a : Reg) (s : State) : Result := s.fpFinish d (fcvtResult cv (s.g a))

end Sys2Proof.Machine
end

