-- ==== Sys2Proof/Machine/Layout.lean ====
section
/-!
DEFINITION. Layout: how the units of a core stand in the words of sections 5 to 10 of a context image (R331).  The manual gives what
these sections hold, in a layout fixed by VER: this one is the model's (DESIGN CHOICE, log 16).
-/

namespace Sys2Proof.Machine

/-! ### Layouts and their combinations -/

/-- A layout of the values of a type in words: the words of a value, and the value at the head of a list of words, with what follows. -/
structure Codec (α : Type) where
  put : α → List Word
  get : List Word → Option (α × List Word)

/-- A layout of one type by that of another. -/
def Codec.map {α β : Type} (c : Codec α) (out : β → α) (back : α → Option β) : Codec β :=
  ⟨fun x => c.put (out x), fun ws => (c.get ws).bind fun r => (back r.1).map fun y => (y, r.2)⟩

/-- Two values, one after the other. -/
def Codec.pair {α β : Type} (c : Codec α) (d : Codec β) : Codec (α × β) :=
  ⟨fun x => c.put x.1 ++ d.put x.2, fun ws => (c.get ws).bind fun r => (d.get r.2).map fun q => ((r.1, q.1), q.2)⟩

/-- One word. -/
def wordC : Codec Word := ⟨fun w => [w], fun ws => match ws with | w :: ws => some (w, ws) | [] => none⟩

/-- The words of a number: 63 bits each, the low ones first; bit 63 says that more follow. -/
def natWords : Nat → Nat → List Word
  | 0, n => [word n]
  | fuel + 1, n => if n < 2 ^ 63 then [word n] else word (2 ^ 63 + n % 2 ^ 63) :: natWords fuel (n / 2 ^ 63)

/-- The number at the head of a list of words. -/
def natGet : List Word → Option (Nat × List Word)
  | [] => none
  | w :: ws => if bit w 63 then (natGet ws).map fun r => (bits w 0 63 + 2 ^ 63 * r.1, r.2) else some (w.toNat, ws)

/-- A number. -/
def natC : Codec Nat := ⟨fun n => natWords (n.log2 / 63) n, natGet⟩

/-- A flag. -/
def boolC : Codec Bool := natC.map flagNat fun n => if n = 0 then some false else if n = 1 then some true else none

/-- A bit vector. -/
def bitsC {w : Nat} : Codec (BitVec w) := natC.map BitVec.toNat fun n => if n < 2 ^ w then some (BitVec.ofNat w n) else none

/-- An index below n. -/
def finC {n : Nat} : Codec (Fin n) := natC.map Fin.val fun i => if h : i < n then some ⟨i, h⟩ else none

/-- An integer: its size, and whether it is negative. -/
def intC : Codec Int := (natC.pair boolC).map (fun i => (i.natAbs, decide (i < 0))) fun p => some (if p.2 then -p.1 else p.1)

/-- One of a list of values, by its place. -/
def enumC {α : Type} [DecidableEq α] (xs : List α) : Codec α :=
  natC.map (fun x => (xs.findIdx? (· == x)).getD xs.length) fun i => xs[i]?

/-- n values, one after another. -/
def Codec.getN {α : Type} (c : Codec α) : Nat → List Word → Option (List α × List Word)
  | 0, ws => some ([], ws)
  | n + 1, ws => (c.get ws).bind fun r => (c.getN n r.2).map fun q => (r.1 :: q.1, q.2)

/-- A list: its length, then its members. -/
def Codec.list {α : Type} (c : Codec α) : Codec (List α) :=
  ⟨fun xs => natC.put xs.length ++ xs.flatMap c.put, fun ws => (natC.get ws).bind fun r => c.getN r.1 r.2⟩

/-- A value that may be absent. -/
def Codec.option {α : Type} (c : Codec α) : Codec (Option α) :=
  c.list.map Option.toList fun xs => match xs with | [] => some none | [x] => some (some x) | _ => none

/-- n values as a vector. -/
def Codec.vector {α : Type} (c : Codec α) (n : Nat) : Codec (Vector α n) :=
  ⟨fun v => v.toList.flatMap c.put, fun ws =>
    (c.getN n ws).bind fun r => if h : r.1.length = n then some (⟨r.1.toArray, by simpa using h⟩, r.2) else none⟩

/-- Bytes: how many, then eight to a word. -/
def bytesC : Codec (List Byte) :=
  ⟨fun bs => natC.put bs.length ++ (chunks 8 (bs.length / 8 + 1) bs).map fun c => word (leNat c),
   fun ws => (natC.get ws).bind fun r =>
     let n := ceilDiv r.1 8
     if r.2.length < n then none else some (((r.2.take n).flatMap fun w => leBytes 8 w.toNat).take r.1, r.2.drop n)⟩

/-- The bytes of a memory from address p up to the last that it lists. -/
def Mem.denseFrom : Nat → Mem → List Byte
  | _, [] => []
  | p, (a, b) :: m => List.replicate (a - p) Mem.blank ++ b :: Mem.denseFrom (a + 1) m

/-- A memory: its bytes up to the last that is not blank. -/
def memC : Codec Mem := bytesC.map (Mem.denseFrom 0) fun bs => some (Mem.ofDense 0 bs)

/-! ### Section 5: per-core registers, rings and barriers, and what else a record takes with it -/

/-- Engines that wait for a slot; the waits of clusters begin afresh (R93). -/
def engineWaits (r : Ring) : List Nat := r.waiters.filterMap fun w => match w with | .cluster _ _ => none | .engine e => some e

/-- A ring. -/
def ringC : Codec Ring :=
  (wordC.pair <| bitsC.pair <| bitsC.pair <| bitsC.pair <| bitsC.pair <| bitsC.pair natC.list).map
    (fun r => (r.cfg, r.clm, r.head, r.tail, r.fill, r.rel, engineWaits r))
    fun (cfg, clm, head, tail, fill, rel, es) => some ⟨cfg, clm, head, tail, fill, rel, es.map .engine⟩

/-- A barrier. -/
def barrierC : Codec Barrier :=
  (bitsC.pair <| finC.list.pair <| finC.list.pair finC.list).map (fun b => (b.phase, b.members, b.arrived, b.leaving))
    fun (phase, ms, as, ls) => some ⟨phase, ms, as, ls⟩

/-- Hardware loops. -/
def loopsC : Codec Loops :=
  ((bitsC.vector 4).pair <| (bitsC.vector 4).pair <| (bitsC.vector 4).pair natC).map (fun l => (l.cnt, l.start, l.stop, l.depth))
    fun (cnt, start, stop, depth) => some ⟨cnt, start, stop, depth⟩

/-- A fence. -/
def fenceC : Codec Fence :=
  (natC.pair <| (enumC [Scope.core, .die, .pkg, .dom, .sys]).pair <| bitsC.pair <| bitsC.pair <| bitsC.pair <| loopsC.pair <|
      boolC.pair (enumC [Mode.user, .handler])).map
    (fun f => (f.seq, f.scope, f.paths, f.mask, f.pc, f.loops, f.passed, f.mode))
    fun (seq, scope, paths, mask, pc, loops, passed, mode) => some ⟨seq, scope, paths, mask, pc, loops, passed, mode⟩

/-- What a cluster has beside its 50 words: when its record began, its last tag, its open fences. -/
def clusterC : Codec Cluster :=
  (natC.pair <| bitsC.pair fenceC.list).map (fun c => (c.begun, c.atag, c.fences))
    fun (begun, atag, fences) => some { Cluster.reset with begun := begun, atag := atag, fences := fences }

/-- The per-core registers of R40 that SETC or the host writes, but for PREQ and CXCFG, which belong to the operation and to the handler
area (R329), and OWNTAG, which the header holds (R335). -/
def coreRegsC : Codec Core :=
  (wordC.pair <| boolC.pair <| bitsC.pair <| wordC.pair <| wordC.pair <| wordC.pair <| wordC.pair wordC).map
    (fun x => (x.syncwd, x.dbgStep, x.schen, x.ptroot, x.htcfg, x.pitcfg, x.xfqb, x.xfresp))
    fun (syncwd, step, schen, ptroot, htcfg, pitcfg, xfqb, xfresp) => some { Core.reset with
      syncwd := syncwd, dbgStep := step, schen := schen, ptroot := ptroot, htcfg := htcfg, pitcfg := pitcfg, xfqb := xfqb, xfresp := xfresp }

/-- Section 5: the core that was saved, its registers, rings and barriers, and its clusters. -/
def coreC : Codec (CoreIx × Core × List Cluster) :=
  (finC.pair <| coreRegsC.pair <| (ringC.vector 64).pair <| (barrierC.vector 96).pair clusterC.list).map
    (fun (k, x, cs) => (k, x, x.rings, x.bars, cs)) fun (k, x, rings, bars, cs) => some (k, { x with rings := rings, bars := bars }, cs)

/-! ### Sections 6 and 7: the vector queue and the Horizon slots -/

/-- The operations of vector commands, in the order of their declaration. -/
def vecOps : List VecOp :=
  [.add, .sub, .mul, .mac, .min, .max, .abs, .neg, .scale, .exp, .log, .rcp, .rsqrt, .tanh, .sigm] ++
  [.cvt, .cvtz, .sum, .rmax, .dot, .cmpeq, .cmplt, .cmple, .sel, .and, .or, .xor, .shl, .shr, .copy, .fill, .pred]

/-- Element types by their Q codes (R50). -/
def elemC : Codec ElemType :=
  enumC [.f32, .bf16, .f16, .e4m3, .e5m2, .s8, .s16, .s32, .n8, .n16, .n32, .mxi8, .bpn]

/-- What a queued command does: its kind, then its particulars. -/
def vecKindC : Codec VecKind :=
  (natC.pair <| (enumC vecOps).pair <| boolC.pair <| elemC.pair natC).map
    (fun k => match k with
      | .vec op imm t => (0, op, imm, t, 0)
      | .push k r => (1, .add, r, .f32, k)
      | .result k => (2, .add, false, .f32, k))
    fun (n, op, b, t, k) => match n with
      | 0 => some (.vec op b t)
      | 1 => some (.push k b)
      | 2 => some (.result k)
      | _ => none

/-- A ring slot. -/
def ringRefC : Codec RingRef := (natC.pair bitsC).map (fun r => (r.k, r.s)) fun (k, s) => some ⟨k, s⟩

/-- Ring sources that were unfilled. -/
def exemptC : Codec Exempt := (natC.pair boolC).list

/-- A queued command of the vector unit that has not started (R145). -/
def vcmdC : Codec VCmd :=
  (natC.pair <| finC.pair <| bitsC.pair <| vecKindC.pair <| wordC.pair <| wordC.pair <| natC.pair <| natC.pair <| natC.pair <|
      ringRefC.option.pair <| ringRefC.option.pair <| ringRefC.option.pair <| exemptC.pair bitsC).map
    (fun c => (c.seq, c.cl, c.cls, c.kind, c.ga, c.gb, c.dst, c.s1, c.s2, c.dring, c.aring, c.bring, c.exempt, c.value))
    fun (seq, cl, cls, kind, ga, gb, dst, s1, s2, dring, aring, bring, exempt, value) =>
      some ⟨seq, cl, cls, kind, ga, gb, dst, s1, s2, dring, aring, bring, exempt, false, [], 0, value⟩

/-- A series with its history (R131). -/
def seriesC : Codec Series :=
  (natC.pair <| boolC.pair <| boolC.pair <| boolC.pair <| boolC.pair <| bitsC.pair <| bitsC.pair bitsC.list).map
    (fun x => (x.n, x.lim, x.stag, x.nzd, x.conv, x.s, x.t, x.hist))
    fun (n, lim, stag, nzd, conv, s, t, hist) => some ⟨n, lim, stag, nzd, conv, s, t, hist⟩

/-- A Horizon slot. -/
def hzSlotC : Codec HzSlot :=
  (wordC.pair <| wordC.pair <| wordC.pair seriesC).map (fun x => (x.ctl, x.tol, x.lim, x.ser))
    fun (ctl, tol, lim, ser) => some ⟨ctl, tol, lim, ser⟩

/-! ### Section 8: the matrix engine, with the transfers of its MXDRAINs -/

/-- An object as a validation fixed it. -/
def objC : Codec Obj :=
  (finC.pair <| wordC.pair <| wordC.pair <| wordC.pair <| wordC.pair <| wordC.pair natC.list).map
    (fun o => (o.die, o.w0, o.w1, o.w2, o.w3, o.w4, o.ext))
    fun (die, w0, w1, w2, w3, w4, ext) => some ⟨die, w0, w1, w2, w3, w4, ext⟩

/-- A nest that runs or is armed. -/
def launchC : Codec Launch :=
  (natC.pair <| finC.pair <| bitsC.pair <| boolC.pair <| objC.option.pair exemptC).map
    (fun l => (l.seq, l.cl, l.cls, l.user, l.obj, l.exempt))
    fun (seq, cl, cls, user, obj, exempt) => some ⟨seq, cl, cls, user, obj, exempt⟩

/-- An SQLD. -/
def sqldC : Codec Sqld :=
  (natC.pair <| finC.pair <| bitsC.pair <| natC.pair natC).map (fun q => (q.seq, q.cl, q.cls, q.addr, q.left))
    fun (seq, cl, cls, addr, left) => some ⟨seq, cl, cls, addr, left⟩

/-- An MXIDX that waits. -/
def idxWaitC : Codec IdxWait :=
  (natC.pair <| finC.pair <| bitsC.pair <| natC.pair <| exemptC.pair boolC).map
    (fun q => (q.seq, q.cl, q.cls, q.addr, q.exempt, q.swapped))
    fun (seq, cl, cls, addr, exempt, swapped) => some ⟨seq, cl, cls, addr, exempt, swapped⟩

/-- Planes and index tables, accumulator and queue of scales. -/
def mxDataC : Codec Matrix :=
  ((wordC.vector 32).pair <| (wordC.vector 32).pair <| (bitsC.vector 128).pair <| (bitsC.vector 128).pair <| memC.pair <|
      natC.list.pair <| bitsC.list.pair <| sqldC.list.pair idxWaitC.option).map
    (fun m => (m.act, m.shd, m.iact, m.ishd, m.acc, m.accBad, m.sq, m.sqlds, m.idxq))
    fun (act, shd, iact, ishd, acc, bad, sq, sqlds, idxq) => some { Matrix.reset with
      act := act, shd := shd, iact := iact, ishd := ishd, acc := acc, accBad := bad, sq := sq, sqlds := sqlds, idxq := idxq }

/-- The progress of a nest, and the status of the engine. -/
def mxRunC : Codec Matrix :=
  (boolC.pair <| boolC.pair <| boolC.pair <| boolC.pair <| launchC.option.pair <| launchC.option.pair <| wordC.pair <| natC.pair <|
      (natC.vector 6).pair <| memC.pair <| bitsC.pair <| bitsC.list.pair <| bitsC.list.pair <| bitsC.pair boolC).map
    (fun m => (m.frozen, m.sqef, m.flt, m.fkind, m.run, m.armed, m.fa, m.chunk, m.idx, if m.chunk = 0 then [] else m.stepAcc, m.stepFlags, m.stepSq,
      m.undone, m.flags, m.cxFrz))
    fun (frozen, sqef, flt, fkind, run, armed, fa, chunk, idx, stepAcc, stepFlags, stepSq, undone, flags, cxFrz) => some { Matrix.reset with
      frozen := frozen, sqef := sqef, flt := flt, fkind := fkind, run := run, armed := armed, fa := fa, chunk := chunk, idx := idx
      stepAcc := stepAcc, stepFlags := stepFlags, stepSq := stepSq, undone := undone, flags := flags, cxFrz := cxFrz }

/-- The matrix engine. -/
def matrixC : Codec Matrix :=
  (mxDataC.pair mxRunC).map (fun m => (m, m)) fun (m, r) => some { r with
    act := m.act, shd := m.shd, iact := m.iact, ishd := m.ishd, acc := m.acc, accBad := m.accBad, sq := m.sq, sqlds := m.sqlds
    idxq := m.idxq }

/-- The transfer of an MXDRAIN that does not hold its banks yet. -/
def drainC : Codec Tile :=
  (natC.pair <| finC.pair <| bitsC.pair <| (natC.pair bytesC).list.pair <| exemptC.pair natC.option).map
    (fun t => (t.seq, (match t.owner with | .drain c _ => c | _ => 0), (match t.owner with | .drain _ o => o | _ => 0), t.writes, t.exempt,
      t.asked))
    fun (seq, cl, cls, writes, exempt, asked) => some ⟨seq, .drain cl cls, writes, false, exempt, asked⟩

/-- Section 8. -/
def mxSectionC : Codec (Matrix × List Tile) := matrixC.pair drainC.list

/-! ### Section 9: the copy engines (R192) -/

/-- The two ends of a checked nest. -/
def nestEndsC : Codec Nest :=
  (natC.pair <| natC.pair <| natC.pair <| natC.pair <| bitsC.pair <| bitsC.pair <| objC.option.pair <| objC.option.pair <|
      (natC.pair natC).option.pair <| (natC.pair natC).option.pair <| natC.pair natC).map
    (fun n => (n.skind, n.dkind, n.src, n.dst, n.sh, n.dh, n.sobj, n.dobj, n.sfar, n.dfar, n.dcore, n.deng))
    fun (skind, dkind, src, dst, sh, dh, sobj, dobj, sfar, dfar, dcore, deng) => some
      ⟨skind, dkind, src, dst, sh, dh, sobj, dobj, sfar, dfar, dcore, deng, [], [], [], 0, none, 0, 0, 0, 0, 0, 0, false, false, 0, 0⟩

/-- The loops, ring and narrowing of a checked nest. -/
def nestLoopsC : Codec Nest :=
  (natC.list.pair <| intC.list.pair <| intC.list.pair <| natC.pair <| natC.option.pair <| natC.pair <| natC.pair <| natC.pair <| natC.pair <|
      natC.pair <| natC.pair <| boolC.pair <| boolC.pair <| bitsC.pair natC).map
    (fun n => (n.trips, n.sstr, n.dstr, n.run, n.total, n.ring, n.rm, n.rlv, n.nar, n.stype, n.dtype, n.rot, n.smode, n.cscale, n.welem))
    fun (trips, sstr, dstr, run, total, ring, rm, rlv, nar, stype, dtype, rot, smode, cscale, welem) => some
      ⟨0, 0, 0, 0, 0, 0, none, none, none, none, 0, 0, trips, sstr, dstr, run, total, ring, rm, rlv, nar, stype, dtype, rot, smode, cscale,
        welem⟩

/-- A checked nest. -/
def nestC : Codec Nest :=
  (nestEndsC.pair nestLoopsC).map (fun n => (n, n)) fun (n, l) => some { l with
    skind := n.skind, dkind := n.dkind, src := n.src, dst := n.dst, sh := n.sh, dh := n.dh, sobj := n.sobj, dobj := n.dobj
    sfar := n.sfar, dfar := n.dfar, dcore := n.dcore, deng := n.deng }

/-- A copy command, none of whose innermost copies is on its way. -/
def copyCmdC : Codec CopyCmd :=
  (natC.pair <| finC.pair <| bitsC.pair <| (enumC [CopyKind.cpy, .cpyp, .cpinv, .cpnest]).pair <| wordC.pair <| wordC.pair <| boolC.pair <|
      bitsC.pair <| nestC.option.pair <| natC.list.pair <| ringRefC.option.pair <| boolC.pair <| boolC.pair exemptC).map
    (fun c => (c.seq, c.cl, c.cls, c.kind, c.ga, c.gb, c.user, c.tag, c.nest, c.idx, c.unit, c.fillDue, c.finished, c.exempt))
    fun (seq, cl, cls, kind, ga, gb, user, tag, nest, idx, unit, fillDue, finished, exempt) => some
      ⟨seq, cl, cls, kind, ga, gb, user, tag, nest, idx, unit, fillDue, finished, false, (0, 0, 0), exempt⟩

/-- The causes of R51 in the order of their numbers. -/
def causes : List Cause := [.udi, .aut, .aln, .xlt, .prm, .hdl, .lch, .fpx, .sqe, .rng, .bar, .ecu, .mck, .wdg, .pre, .dbg]

/-- A copy engine: its queue, with the fetched blocks, its registers and counters, and its command store; its cache comes back empty
(R188, R192). -/
def engineC : Codec Engine :=
  (copyCmdC.list.pair <| boolC.pair <| wordC.pair <| (enumC causes).option.pair <| bitsC.pair <| natC.pair <| wordC.pair <| natC.pair <|
      natC.pair <| natC.pair <| natC.pair <| natC.pair <| boolC.pair <| boolC.pair <| natC.pair memC).map
    (fun x => (x.queue, x.hold, x.fa, x.err, x.errVal, x.errClu, x.scfg, x.satt, x.nft, x.lowt, x.satw, x.loww, x.satev, x.lowev, x.winAge,
      x.store))
    fun (queue, hold, fa, err, errVal, errClu, scfg, satt, nft, lowt, satw, loww, satev, lowev, winAge, store) => some
      { Engine.reset with
        queue := queue, hold := hold, fa := fa, err := err, errVal := errVal, errClu := errClu, scfg := scfg, satt := satt, nft := nft
        lowt := lowt, satw := satw, loww := loww, satev := satev, lowev := lowev, winAge := winAge, store := store }

/-! ### Section 10: the lane unit (R275) -/

/-- An entry of the format table. -/
def fmtEntryC : Codec FmtEntry :=
  (wordC.pair <| wordC.pair wordC).map (fun e => (e.ctl, e.tol, e.lim)) fun (ctl, tol, lim) => some ⟨ctl, tol, lim⟩

/-- A macro in the issue buffer: it runs again, but for the results that it has delivered. -/
def macroC : Codec LMacro :=
  (natC.pair <| finC.pair <| bitsC.pair <| (enumC [LKind.lfmt, .lmcst, .ldot, .lhzc, .lrsync, .lsafe, .lrtgt]).pair <| wordC.pair <|
      wordC.pair <| wordC.pair <| fmtEntryC.pair <| wordC.pair <| natC.pair <| objC.option.pair <| ringRefC.option.pair <| natC.pair <|
      natC.pair <| boolC.pair <| natC.list.pair <| boolC.pair bitsC).map
    (fun m => (m.seq, m.cl, m.cls, m.kind, m.gd, m.ga, m.gb, m.entry, m.hzdef, m.rmode, m.obj, m.dring, m.dbase, m.fe, m.feBad, m.delivered,
      m.landed, m.flags))
    fun (seq, cl, cls, kind, gd, ga, gb, entry, hzdef, rmode, obj, dring, dbase, fe, feBad, delivered, landed, flags) => some
      ⟨seq, cl, cls, kind, gd, ga, gb, entry, hzdef, rmode, obj, dring, dbase, fe, feBad, [], delivered, landed, flags, []⟩

/-- The format table and the settings of the lanes, as the lanes and as the issue view hold them. -/
def laneTablesC : Codec Lanes :=
  (wordC.pair <| wordC.pair <| wordC.pair <| wordC.pair <| (fmtEntryC.vector 64).pair <| (fmtEntryC.vector 64).pair <| boolC.pair <|
      (fmtEntryC.vector 64).pair <| (fmtEntryC.vector 64).pair <| boolC.pair (natC.pair natC).list).map
    (fun x => (x.lhzdef, x.lrmode, x.issHzdef, x.issRmode, x.plane0, x.plane1, x.apl, x.iss0, x.iss1, x.issApl, x.fmtBad))
    fun (lhzdef, lrmode, issHzdef, issRmode, plane0, plane1, apl, iss0, iss1, issApl, bad) => some { Lanes.reset with
      lhzdef := lhzdef, lrmode := lrmode, issHzdef := issHzdef, issRmode := issRmode, plane0 := plane0, plane1 := plane1, apl := apl
      iss0 := iss0, iss1 := iss1, issApl := issApl, fmtBad := bad }

/-- The reports and counts of the lanes, and the macros to be broadcast again. -/
def laneWorkC : Codec Lanes :=
  (wordC.pair <| natC.pair <| wordC.pair <| natC.pair <| natC.pair <| natC.pair <| natC.pair <| (natC.vector 8).pair <| macroC.list.pair <|
      natC.pair <| natC.pair natC).map
    (fun x => (x.lctl, x.lpois, x.lpfirst, x.hzConv, x.hzStag, x.hzNzd, x.hzLim, x.lplh, x.buf, x.intv, x.syncn, x.safen))
    fun (lctl, lpois, lpfirst, conv, stag, nzd, lim, lplh, buf, intv, syncn, safen) => some { Lanes.reset with
      lctl := lctl, lpois := lpois, lpfirst := lpfirst, hzConv := conv, hzStag := stag, hzNzd := nzd, hzLim := lim, lplh := lplh
      buf := buf, intv := intv, syncn := syncn, safen := safen }

/-- The lane unit.  The activation buffers, 8 MiB in all, are no part of an image, which has 13 MiB at most (R331). -/
def lanesC : Codec Lanes :=
  (laneTablesC.pair laneWorkC).map (fun x => (x, x)) fun (t, x) => some { x with
    lhzdef := t.lhzdef, lrmode := t.lrmode, issHzdef := t.issHzdef, issRmode := t.issRmode, plane0 := t.plane0, plane1 := t.plane1
    apl := t.apl, iss0 := t.iss0, iss1 := t.iss1, issApl := t.issApl, fmtBad := t.fmtBad }

/-! ### The sections of a core -/

/-- Words that are one value and nothing else. -/
def Codec.whole {α : Type} (c : Codec α) (ws : List Word) : Option α :=
  match c.get ws with
  | some (x, []) => some x
  | _ => none

/-- A transfer of an MXDRAIN. -/
def Tile.isDrain (t : Tile) : Bool := match t.owner with | .drain _ _ => true | _ => false

/-- The numbers and words of sections 5 to 9 of a core, and 10 on a stack core. -/
def UnitSave.words (u : UnitSave) (hub : Bool) : List (Nat × List Word) :=
  [(5, coreC.put (u.ix, u.core, u.clusters)), (6, vcmdC.list.put u.core.vq), (7, (hzSlotC.vector 16).put u.core.hz),
   (8, mxSectionC.put (u.core.mx, u.core.tiles.filter Tile.isDrain)), (9, (engineC.vector 20).put u.core.ce)] ++
  if hub then [] else [(10, lanesC.put u.lanes)]

/-- The units of a core from the words of its sections, on lanes whose activation buffers stay as they are; nothing where a section is
missing or malformed (R331, R335). -/
def readUnits (hub : Bool) (abuf : Mem) (secs : List (Nat × List Word)) : Option UnitSave :=
  let part {α : Type} (c : Codec α) (n : Nat) : Option α := (lookupNat n secs).bind c.whole
  let lanes : Option Lanes := if hub then some Lanes.reset else part lanesC 10
  match part coreC 5, part vcmdC.list 6, part (hzSlotC.vector 16) 7, part mxSectionC 8, part (engineC.vector 20) 9, lanes with
  | some (ix, x, cs), some vq, some hz, some (mx, tiles), some ce, some l =>
    some ⟨ix, { x with vq := vq, hz := hz, mx := mx, tiles := tiles, ce := ce }, { l with abuf := abuf }, cs⟩
  | _, _, _, _, _, _ => none

end Sys2Proof.Machine
end

