-- ==== Sys2Proof/Machine/Access.lean ====
section
/-!
DEFINITION. Access: worlds, the page walk and its caches, handles and imports, host windows, and the checks an access
passes before it is made (spec/18_isolation.md, R84, R205, R230).
-/

namespace Sys2Proof.Machine

/-! ### Table memory (R297) -/

/-- An 8-byte word of table memory: hub SRAM on a hub die, lane regions on a stack die; poison for an uncorrectable one (R318). -/
def State.tableWord (s : State) (d : DieIx) (pa : Nat) : Option Word :=
  match s.physLoc d pa with
  | some (.hub d a) => some (word (leNat (s.peekPoisoned (.hub d a) 8)))
  | some (.dram d a) => some (word (leNat (s.peekPoisoned (.dram d a) 8)))
  | _ => none

/-- What a read of a table does beside its data: the uncorrectable words that it meets are counted and logged, and what the bus of a stack
die's lane memory corrupts is corrected and counted (R319, R320, R325). -/
def State.noteTable (s : State) (d : DieIx) (pa n : Nat) : State :=
  match s.physLoc d pa with
  | some l => (s.noteUnc l n).readDram l n
  | none => s

/-! ### Worlds (R312) -/

/-- The world-map bit of a 64 KiB region, read through the world-map cache. -/
def State.secureRegion (s : State) (d : DieIx) (region : Nat) : Bool × State :=
  let x := s.die d
  if !bit x.wmapb 0 then (false, s)
  else match lookupNat region x.wcache with
    | some b => (b, s)
    | none =>
      let pa := bits x.wmapb 16 32 * 2 ^ 16 + region / 8
      let b := match s.physLoc d pa with
        | some l => nbit (leNat (s.peekPoisoned l 1)) (region % 8)
        | none => false
      (b, (s.noteTable d pa 1).modDie d fun x => { x with wcache := (region, b) :: x.wcache })

/-- Some region of the bytes lo to hi - 1 is secure. -/
def State.secureRange (s : State) (d : DieIx) (lo hi : Nat) : Bool × State :=
  (unitsOf (2 ^ 16) lo (hi - lo)).foldl (fun acc r =>
    let q := acc.2.secureRegion d r
    (acc.1 || q.1, q.2)) (false, s)

/-- The world of a requester permits the bytes at a die physical address (R300, R312). -/
def State.worldOk (s : State) (d : DieIx) (secure : Bool) (pa n : Nat) : Bool × State :=
  if secure then (true, s) else
    let r := s.secureRange d pa (pa + n)
    (!r.1, r.2)

/-- The first of the scratchpad bytes that a list of ranges covers, from lo up to hi, that lies in a region closed to the world of
core k (R300, R312). -/
def State.spadBarred (s : State) (k : CoreIx) (rs : List (Nat × Nat)) : Option Nat × State :=
  let d := dieOf k
  if (s.core k).secure || !bit (s.die d).wmapb 0 then (none, s)
  else rs.foldl (fun acc r => (unitsOf (2 ^ 16) r.1 (r.2 - r.1)).foldl (fun acc u =>
    let q := acc.2.secureRegion d (s.physAddr (.spad k 0) / 2 ^ 16 + u)
    let a := max r.1 (u * 2 ^ 16)
    (if q.1 then some (match acc.1 with | some b => min a b | none => a) else acc.1, q.2)) acc) (none, s)

/-! ### Kinds of access -/

/-- What an access does to its location (R205, R300). -/
inductive Acc where
  | read | write
  /-- a scalar atomic, or the join block of JSET, JDEC and EXIT -/
  | atomic
  | vatomic
  | red
  deriving DecidableEq, Repr

/-- The leaf bits an access needs: every atomic needs R and W (R205, R300). -/
def Acc.needsRead : Acc → Bool
  | .write => false
  | _ => true
/-- See `needsRead`. -/
def Acc.needsWrite : Acc → Bool
  | .read => false
  | _ => true

/-- What the checks of R84 answer. -/
inductive Xlate where
  | ok (loc : Loc)
  /-- the address does not map -/
  | xlt
  /-- the walk found V = 0 at this level: does not map, and an engine's access may be replayed (R305) -/
  | hole (level : Nat)
  | prm
  /-- the import refuses: PRM, and a store is dropped and logged, on the exporter too where it is known (R310) -/
  | refused (exporter : Option DieIx)
  deriving DecidableEq, Repr

/-- What the rest of an address means (R296). -/
inductive Range where
  | window | pages (kind : Nat) | nothing
  deriving DecidableEq, Repr

/-- The range of a virtual address on a die (R296); nothing for an address in no listed range. -/
def rangeOf (d : DieIx) (va : Nat) : Range :=
  if 2 ^ 48 ≤ va then .nothing
  else if va < 0x100_0000 then .window
  else if 0x1_0000_0000 ≤ va ∧ va < 0x2_0000_0000 ∧ isHub d then .pages 0
  else if 0x2000_0000_0000 ≤ va ∧ va < 0x2000_0100_0000 ∧ isHub d then .pages 3
  else if 0x4000_0000_0000 ≤ va ∧ va < 0x8000_0000_0000 then .pages 1
  else if 0x8000_0000_0000 ≤ va then .pages 2
  else .nothing

/-- An access by any path to a host aperture lies on the path H (R202). -/
def pathOf (p : Path) (va : Nat) : Path := if 0x8000_0000_0000 ≤ va ∧ va < 2 ^ 48 then .h else p

/-! ### Imports (R310, R311) -/

/-- Bytes of a table's base, and its number of entries; no table when LOGN is 0 (R306). -/
def tableBase (cfg : Word) : Nat := bits cfg 12 36 * 2 ^ 12
/-- See `tableBase`.  XFQB's table gives LOGN 4 to 12, and UDI above; of 1 to 3, on which it is silent, the ring has 2^LOGN records
(DESIGN CHOICE, log 79). -/
def tableSize (cfg : Word) : Nat := if bits cfg 0 5 = 0 then 0 else 2 ^ bits cfg 0 5

/-- Word 0 of a valid import entry, through the import cache of 64 entries. (DEDUCED, log 27) -/
def State.importEntry (s : State) (k : CoreIx) (x : Nat) : Option Word × State :=
  let d := dieOf k
  let cfg := (s.core k).pitcfg
  if tableSize cfg ≤ x then (none, s)
  else match lookupNat x (s.die d).icache with
    | some w => (some w, s)
    | none =>
      match s.tableWord d (tableBase cfg + 16 * x), s.tableWord d (tableBase cfg + 16 * x + 8) with
      | some w, some w1 =>
        let ok := bit w 63 && bits w 58 3 == 0 && bits w 40 5 == 0 && w1 == 0 && !bit w 23 && bits w 45 3 ≤ 5 &&
          bits w 48 10 < 640 && !(bits w 48 10 == (s.die d).spnum.toNat && bits w 45 3 == d.val)
        let s := s.noteTable d (tableBase cfg + 16 * x) 16
        if ok then (some w, s.modDie d fun y => { y with icache := ((x, w) :: y.icache).take 64 }) else (none, s)
      | _, _ => (none, s)

/-- An import permits an access: RD for a read, W for a write, both for an atomic (R310). (DEDUCED, log 27) -/
def importAllows (w : Word) (acc : Acc) : Bool := (!acc.needsRead || bit w 61) && (!acc.needsWrite || bit w 62)

/-- The place an import names, for a die of this package or a device of another (R310). -/
def State.importLoc (s : State) (d : DieIx) (w : Word) (off : Nat) : Loc :=
  let rh : W32 := w.setWidth 32
  match dieAt (bits w 45 3) with
  | some e => if bits w 48 10 = (s.die d).spnum.toNat then .peer e rh off else .span (bits w 48 10) (bits w 45 3) rh off
  | none => .span (bits w 48 10) (bits w 45 3) rh off

/-! ### The page walk (R298, R299, R300) -/

/-- What a walk finds. -/
inductive Walked where
  | leaf (big : Bool) (w : Word)
  | hole (level : Nat)
  | malformed
  deriving DecidableEq, Repr

/-- The index of a level's entry (R298). -/
def levelIndex (level va : Nat) : Nat :=
  match level with
  | 3 => nbits va 39 9 | 2 => nbits va 30 9 | 1 => nbits va 21 9 | _ => nbits va 16 5

/-- A leaf whose own bits are malformed: reserved bits, a level above 1, TGT[20:16] of a 2 MiB leaf, ATOM 3 (R300). -/
def leafBad (level : Nat) (e : Word) : Bool :=
  level ≥ 2 || outside e (maskAt 16 40 + maskAt 3 7 + 3) || (level == 1 && bits e 16 5 != 0) || bits e 8 2 == 3

/-- A table pointer that is malformed: reserved bits, level 0, a 4 KiB table at a wrong alignment (R299, R300). -/
def pointerBad (level : Nat) (e : Word) : Bool :=
  level == 0 || outside e (maskAt 8 40 + 1) || (level ≥ 2 && bits e 8 4 != 0)

/-- The walk of R298 from a table, level by level. -/
def State.walkFrom (s : State) (d : DieIx) (secure : Bool) (va : Nat) : Nat → Nat → Nat → Walked × State
  | 0, _, _ => (.malformed, s)
  | fuel + 1, level, table =>
    let a := table + 8 * levelIndex level va
    let w := s.worldOk d secure a 8
    if !w.1 then (.malformed, w.2)
    else match w.2.tableWord d a with
      | none => (.malformed, w.2)
      | some e =>
        let s' := w.2.noteTable d a 8
        if !bit e 0 then (.hole level, s')
        else if bit e 1 then (if leafBad level e then (.malformed, s') else (.leaf (level == 1) e, s'))
        else if pointerBad level e then (.malformed, s')
        else s'.walkFrom d secure va fuel (level - 1) (bits e 8 40 * 2 ^ 8)

/-- The walk from PTROOT of a core; EN = 0 fails translation (R300). -/
def State.walk (s : State) (k : CoreIx) (secure : Bool) (va : Nat) : Walked × State :=
  let root := (s.core k).ptroot
  if !bit root 0 then (.malformed, s) else s.walkFrom (dieOf k) secure va 4 3 (bits root 12 36 * 2 ^ 12)

/-- A cached translation covers an address (R304). -/
def TlbEntry.covers (e : TlbEntry) (va : Nat) : Bool := e.vpn == va / (if e.big then 2 ^ 21 else 2 ^ 16)

/-- The cached translation of an address. -/
def Core.tlbFind (k : Core) (va : Nat) : Option TlbEntry := k.tlb.find? fun e => e.covers va

/-- A translation put into the TLB of 128 entries (R304). -/
def Core.tlbFill (k : Core) (va : Nat) (big : Bool) (leaf : Word) : Core :=
  { k with tlb := (⟨va / (if big then 2 ^ 21 else 2 ^ 16), big, leaf⟩ :: k.tlb).take 128 }

/-- The checks that a leaf's page passes or fails for one access, in the order of R84 and R300: the mapping first, then
the leaf bits, the user bit, the world and the atomics attribute. -/
def State.leafCheck (s : State) (k : CoreIx) (user secure : Bool) (acc : Acc) (want : Nat) (va : Nat) (big : Bool)
    (e : Word) : Xlate × State :=
  let d := dieOf k
  let atom := bits e 8 2
  let off := nbits va 0 (if big then 21 else 16)
  let tgt := bits e 16 40 * 2 ^ 16
  let barred := (acc.needsRead && !bit e 3) || (acc.needsWrite && !bit e 4) || (user && !bit e 5)
  if bits e 6 2 ≠ want then (.xlt, s)
  else match want with
    | 0 =>
      match s.physLoc d (tgt + off) with
      | some (.dram _ _) | none => (.xlt, s)
      | some l =>
        if atom = 1 then (.xlt, s)
        else if barred then (.prm, s)
        else
          let w := s.worldOk d secure (tgt + off) 1
          (if w.1 then .ok l else .prm, w.2)
    | 3 =>
      let port := bits e 16 3
      if bits e 19 37 ≠ 0 ∨ port / 3 ≠ d.val - 4 ∨ 6 ≤ port ∨ atom = 1 ∨ atom = 2 then (.xlt, s)
      else if barred ∨ acc = .atomic ∨ acc = .vatomic ∨ acc = .red then (.prm, s)
      else (.ok (.send d (port % 3) off), s)
    | 2 =>
      if atom = 1 then (.xlt, s)
      else if barred then (.prm, s)
      else if (acc = .atomic ∧ atom ≠ 2) ∨ acc = .vatomic ∨ acc = .red then (.prm, s)
      else (.ok (.host d (tgt + off)), s)
    | _ =>
      let q := s.importEntry k (bits e 32 23)
      let far := match q.1 with | some w => bits w 48 10 != (s.die d).spnum.toNat | none => false
      if atom = 2 ∨ (atom = 1 ∧ !far) then (.xlt, q.2)
      else if barred then (.prm, q.2)
      else if atom = 1 ∧ (acc = .atomic ∨ acc = .vatomic) then (.prm, q.2)
      else match q.1 with
        | none => (.refused none, q.2)
        | some w =>
          if !importAllows w acc then (.refused (q.2.importLoc d w 0).homeDie, q.2)
          else
            let page := bits e 16 16 + (if big then nbits va 16 5 else 0)
            (.ok (q.2.importLoc d w (page * 2 ^ 16 + nbits va 0 16)), q.2)

/-- The translation of an address for one access; the page walk, where one is needed, ends at once (R84, R296 to R300;
DESIGN CHOICE, log 7).  With PTROOT.EN = 0 no page translates, cached or not (R300).  The access lies within one page. -/
def State.xlate (s : State) (k : CoreIx) (user secure : Bool) (acc : Acc) (va : Nat) : Xlate × State :=
  match rangeOf (dieOf k) va with
  | .nothing => (.xlt, s)
  | .window =>
    if spadBytes k ≤ va then (.xlt, s)
    else
      let w := s.worldOk (dieOf k) secure (s.physAddr (.spad k va)) 1
      (if w.1 then .ok (.spad k va) else .prm, w.2)
  | .pages want =>
    if !bit (s.core k).ptroot 0 then (.xlt, s)
    else match (s.core k).tlbFind va with
    | some t => s.leafCheck k user secure acc want va t.big t.leaf
    | none =>
      match s.walk k secure va with
      | (.leaf big e, s) => (s.modCore k fun x => x.tlbFill va big e).leafCheck k user secure acc want va big e
      | (.hole level, s) => (.hole level, s)
      | (.malformed, s) => (.xlt, s)

/-- The translation of an access by the cluster that issues. -/
def State.myXlate (s : State) (acc : Acc) (va : Nat) : Xlate × State :=
  s.xlate s.myCoreIx (s.me.mode == .user) s.myCore.secure acc va

/-! ### Handles (R307, R309) -/

/-- CLS of an object (R307). -/
def Obj.cls (o : Obj) : Nat := bits o.w0 61 2
/-- NPL, the planes of a BPN object. -/
def Obj.npl (o : Obj) : Nat := bits o.w0 53 4
/-- log2 of the span. -/
def Obj.spl (o : Obj) : Nat := bits o.w0 49 4
/-- Lane base. -/
def Obj.lb (o : Obj) : Nat := bits o.w0 39 10
/-- PW: peers may write. -/
def Obj.pw (o : Obj) : Bool := bit o.w0 38
/-- PR: peers may read. -/
def Obj.pr (o : Obj) : Bool := bit o.w0 37
/-- Dimension d3, the innermost. -/
def Obj.d3 (o : Obj) : Nat := bits o.w2 32 32
/-- The number of rows d0 * d1 * d2. -/
def Obj.rows (o : Obj) : Nat := bits o.w1 0 32 * bits o.w1 32 32 * bits o.w2 0 32
/-- The element type, where the code is one of R101. -/
def Obj.elem (o : Obj) : Option ElemType := elemOfCode (bits o.w0 57 4)
/-- Weights of one slice of a compute-region row, L. -/
def Obj.sliceLen (o : Obj) : Nat := o.d3 / 2 ^ o.spl

/-- Bytes of a slice of L weights in n planes, padded to 32 bytes: Rs of R268. -/
def sliceBytes (len npl : Nat) : Nat := alignUp (32 * ceilDiv len 1024 + npl * len / 8) 32

/-- Bytes of one row of the byte image, or of one slice of a compute region (R183, R268). -/
def Obj.rowBytes (o : Obj) : Nat :=
  if o.cls = 1 then sliceBytes o.sliceLen o.npl
  else match o.elem with
    | some .bpn => sliceBytes o.d3 o.npl
    | some .mxi8 => 33 * o.d3 / 32
    | some t => o.d3 * elemBytes t
    | none => 0

/-- Bytes of an object's byte image (R183), or of a memory region. -/
def Obj.imageBytes (o : Obj) : Nat :=
  if o.cls = 2 then o.w4.toNat else if o.cls = 1 then o.rows * 2 ^ o.spl * o.rowBytes else o.rows * o.rowBytes

/-- Check 3 of R309: the entry is consistent. -/
def State.objOk (s : State) (o : Obj) (extWords : List Word) : Bool :=
  let m := (s.die o.die).lanesN
  let bpn := o.elem == some .bpn
  let plain := match s.physLoc o.die o.w3.toNat, s.physLoc o.die (o.w3.toNat + max 1 o.w4.toNat - 1) with
    | some (.hub _ _), some (.hub _ _) => true
    | some (.spad k _), some (.spad k' _) => k = k'
    | _, _ => false
  !outside o.w0 (2 ^ 64 - 1 - maskAt 32 5 - maskAt 7 17) && o.cls != 3 && o.elem.isSome && ((o.npl != 0) == bpn) &&
  (!bpn || (2 ≤ o.npl && o.npl ≤ 8)) && (o.cls != 1 || bpn) && (o.elem != some .mxi8 || (o.cls == 0 && o.d3 % 32 == 0)) &&
  bits o.w1 0 32 != 0 && bits o.w1 32 32 != 0 && bits o.w2 0 32 != 0 && o.d3 != 0 && bits o.w0 0 7 ≤ 64 &&
  extWords.all (fun w => w.toNat < 64) &&
  (match o.cls with
    | 0 => o.w4 == 0 && m != 0 && (!bpn || o.d3 % 64 == 0) && o.imageBytes ≤ o.ext.length * m * 2 ^ 20
    | 1 => o.w4 == 0 && o.d3 % 2 ^ o.spl == 0 && o.spl ≤ 10 && o.lb % 2 ^ o.spl == 0 && o.lb + 2 ^ o.spl ≤ m &&
        64 ≤ o.sliceLen && o.sliceLen ≤ 4096 && o.sliceLen % 64 == 0 && o.rows * o.rowBytes ≤ o.ext.length * 2 ^ 20
    | _ => bits o.w3 0 16 == 0 && bits o.w4 0 16 == 0 && plain)

/-- Bytes of a lane's share of an object in m lanes (R308). -/
def Obj.shareBytes (o : Obj) (m l : Nat) : Nat :=
  if o.cls = 1 then o.rows * o.rowBytes
  else
    let rest := o.imageBytes % (m * 2 ^ 20)
    o.imageBytes / (m * 2 ^ 20) * 2 ^ 20 + 2048 * (rest / (2048 * m)) + min 2048 (rest % (2048 * m) - 2048 * l)

/-- The physical ranges that the bytes of an object take, for check 5 of R309 (R308). -/
def State.objRanges (s : State) (o : Obj) : List (Nat × Nat) :=
  match o.cls with
  | 2 => [(o.w3.toNat, o.w3.toNat + o.w4.toNat)]
  | c =>
    let m := (s.die o.die).lanesN
    let lanes := if c = 1 then iota o.lb (2 ^ o.spl) else List.range m
    lanes.flatMap fun l =>
      let n := o.shareBytes m l
      (List.zip (List.range (ceilDiv n (2 ^ 20))) o.ext).map fun e =>
        let a := Config.lanePhysBase + Config.laneBytes * l + e.2 * 2 ^ 20
        (a, a + min (2 ^ 20) (n - e.1 * 2 ^ 20))

/-- The requester's world permits every region of an object (R309 check 5). -/
def State.objWorldOk (s : State) (o : Obj) (secure : Bool) : Bool × State :=
  if secure || !bit (s.die o.die).wmapb 0 then (true, s)
  else (s.objRanges o).foldl (fun acc r =>
    let q := acc.2.secureRange o.die r.1 r.2
    (acc.1 && !q.1, q.2)) (true, s)

/-- A handle entry of a die, through the cache of 64 entries: its eight words and its extent words (R307, R311). -/
def State.handleEntry (s : State) (k : CoreIx) (slot : Nat) : Option HEntry × State :=
  let d := dieOf k
  match (s.die d).hcache.find? fun e => e.slot = slot with
  | some e => (some e, s)
  | none =>
    let a := tableBase (s.core k).htcfg + 64 * slot
    let ws := (iota 0 8).filterMap fun i => s.tableWord d (a + 8 * i)
    if ws.length ≠ 8 then (none, s)
    else
      let n := if bits (ws.getD 0 0) 61 2 = 2 then 0 else min (bits (ws.getD 0 0) 0 7) 64
      let es := (iota 0 n).filterMap fun j => s.tableWord d ((ws.getD 3 0).toNat + 8 * j)
      let e : HEntry := ⟨slot, ws, es.map (·.toNat)⟩
      let s := (s.noteTable d a 64).noteTable d (ws.getD 3 0).toNat (8 * n)
      (some e, s.modDie d fun y => { y with hcache := (e :: y.hcache).take 64 })

/-- Checks 2, 3 and 5 of R309 for a handle, against the tables of a core's die. -/
def State.localHandle (s : State) (k : CoreIx) (h : W32) (secure : Bool) : Option Obj × State :=
  let slot := nbits h.toNat 0 24
  if tableSize (s.core k).htcfg ≤ slot then (none, s)
  else match s.handleEntry k slot with
    | (none, s) => (none, s)
    | (some e, s) =>
      let w (i : Nat) : Word := e.words.getD i 0
      let o : Obj := ⟨dieOf k, w 0, w 1, w 2, w 3, w 4, e.ext⟩
      if !bit o.w0 63 ∨ bits o.w0 24 8 ≠ nbits h.toNat 24 8 ∨ w 5 ≠ 0 ∨ w 6 ≠ 0 ∨ w 7 ≠ 0
          ∨ e.ext.length ≠ (if o.cls = 2 then 0 else bits o.w0 0 7) ∨ !s.objOk o (e.ext.map word) then (none, s)
      else
        let q := s.objWorldOk o secure
        (if q.1 then some o else none, q.2)

/-- The first working core of a die: system software gives every core the same tables (R306). -/
def State.tableCore (s : State) (d : DieIx) : Option CoreIx := s.coreAt d 0

/-- The exporter's check of a peer-page access on its arrival: the place it reaches, or nothing when it is refused (R310). -/
def State.exportCheck (s : State) (d : DieIx) (rh : W32) (off n : Nat) (acc : Acc) (secure : Bool) : Option Loc × State :=
  match s.tableCore d with
  | none => (none, s)
  | some k =>
    match s.localHandle k rh secure with
    | (none, s) => (none, s)
    | (some o, s) =>
      if o.cls = 2 ∧ (!acc.needsRead || o.pr) ∧ (!acc.needsWrite || o.pw) ∧ off + n ≤ o.w4.toNat then
        (s.physLoc d (o.w3.toNat + off), s)
      else (none, s)

/-! ### Host windows (R315) -/

/-- The hub whose link carries a device's host accesses (R315). -/
def hubFor (d : DieIx) : DieIx := if d.val = 0 ∨ d.val = 3 ∨ d.val = 4 then 4 else 5

/-- A window table permits n bytes at a host physical address to a device. (DEDUCED, log 28) -/
def State.windowOk (s : State) (d : DieIx) (pa n : Nat) (wr : Bool) : Bool :=
  (List.range 64).any fun w =>
    let lo := vget (s.die (hubFor d)).mwin (2 * w) 0
    let hi := vget (s.die (hubFor d)).mwin (2 * w + 1) 0
    bit lo (2 + d.val) && bit lo (if wr then 0 else 1) && bits lo 12 44 * 2 ^ 12 ≤ pa &&
      pa + n ≤ bits hi 12 44 * 2 ^ 12 + 4096

/-- A device access the window table refused is counted in MWDROP (R315). (DEDUCED, log 28) -/
def State.countWindow (s : State) (d : DieIx) : State :=
  s.modDie (hubFor d) fun x => { x with mwdrop := heldAt (2 ^ 64 - 1) (x.mwdrop + 1) }

/-! ### Bank locks of tile transfers (R227, R230) -/

/-- The scratchpad bank of a byte (R227). -/
def bankOf (a : Nat) : Nat := a / 64 % 96

/-- The banks that hold a byte of a tile. -/
def Tile.banks (t : Tile) : List Nat :=
  t.writes.foldl (fun acc w => insertAll ((unitsOf 64 w.1 w.2.length).map (· % 96)) acc) []

/-- A bank that n bytes at a scratchpad address touch is locked by a tile transfer. -/
def Core.locked (k : Core) (a n : Nat) : Bool :=
  k.tiles.any fun t => t.locked && (unitsOf 64 a n).any fun u => t.banks.contains (u % 96)

/-- A tile transfer of the matrix engine, whose own other accesses do not wait for it (R230). -/
def Tile.byMatrix (t : Tile) : Bool := match t.owner with | .copy _ _ => false | _ => true

/-- A bank that n bytes touch is locked by a tile transfer other than those that a test names as the agent's own (R230). -/
def Core.lockedBut (k : Core) (own : Tile → Bool) (a n : Nat) : Bool :=
  { k with tiles := k.tiles.filter fun t => !own t }.locked a n

/-- A bank that n bytes touch is locked against the matrix engine (R230). -/
def Core.lockedMx (k : Core) (a n : Nat) : Bool := k.lockedBut Tile.byMatrix a n

/-- A tile transfer of copy engine e, whose own other accesses do not wait for it (R230). -/
def Tile.byEngine (e : Nat) (t : Tile) : Bool := match t.owner with | .copy f _ => f == e | _ => false

/-- An access to a place must wait for a tile transfer (R230, R233). -/
def State.bankWait (s : State) (l : Loc) (n : Nat) : Bool :=
  match l with
  | .spad k a => (s.core k).locked a n
  | _ => false

/-- An access of an engine of core k to a place must wait for a tile transfer that is not the engine's own (R230, R233). -/
def State.engBankWait (s : State) (k : CoreIx) (own : Tile → Bool) (l : Loc) (n : Nat) : Bool :=
  match l with
  | .spad q a => if q = k then (s.core q).lockedBut own a n else (s.core q).locked a n
  | _ => false

/-! ### Fences, classes and the flits of a cluster (R216, R222, R223) -/

/-- The bit of a path in a fence's path mask; H has none (R49). -/
def Path.bitIx : Path → Option Nat
  | .s => some 0 | .v => some 1 | .m => some 2 | .c => some 3 | .l => some 4 | .a => some 5 | .h => none

/-- A fence names a path and class; the host path exactly at SYS, unless its path mask is zero: it then orders nothing (R49, R216,
R219). -/
def Fence.names (f : Fence) (p : Path) (o : Cls) : Bool :=
  f.mask.getLsbD o.toNat && (match p.bitIx with | some i => f.paths.getLsbD i | none => f.scope == .sys && f.paths != 0)

/-- An access or command of a path and class waits at issue for a fence before it (R216). -/
def Cluster.gated (c : Cluster) (p : Path) (o : Cls) : Bool := c.fences.any fun f => f.names p o

/-- An act that covers what earlier FENCEs naming some paths cover waits until they have completed: a ring fill or release for V, M and C,
an arrival at a barrier for L too (R94, R98, R216).  Bits 0 to 5 are S V M C L A. -/
def Cluster.fenceOpen (c : Cluster) (paths : BitVec 6) : Bool := c.fences.any fun f => f.paths &&& paths != 0 && f.mask != 0
/-- A flit is an access of the cluster itself, not of an engine. -/
def Flit.ownOf (f : Flit) (c : CluIx) : Bool := f.cl == c && f.agent == 0

/-- Two byte ranges at places share a byte. -/
def Loc.overlaps (l : Loc) (n : Nat) (l' : Loc) (n' : Nat) : Bool :=
  l.withAddr 0 == l'.withAddr 0 && l.addr < l'.addr + n' && l'.addr < l.addr + n

/-- The memory that a peer page's place is, by the exporter's tables as they stand (R310). -/
def State.placeOf (s : State) (l : Loc) : Loc :=
  match l with
  | .peer d rh off => match s.tableCore d with
    | some k => match (s.localHandle k rh true).1 with
      | some o => if o.cls = 2 then (s.physLoc d (o.w3.toNat + off)).getD l else l
      | none => l
    | none => l
  | _ => l

/-- Two byte ranges share a byte, whichever peer pages name them. -/
def State.sharesByte (s : State) (l : Loc) (n : Nat) (l' : Loc) (n' : Nat) : Bool :=
  l.overlaps n l' n' || (s.placeOf l).overlaps n (s.placeOf l') n'

/-- A cluster's S or A access must wait for one of its earlier posted accesses that has not been applied: the same path and
class, or a shared byte (R222, R223).  A plain load or store is carried past the merge entries of a switch (R244). -/
def State.ownPending (s : State) (c : CluIx) (p : Path) (o : Cls) (l : Loc) (n : Nat) : Bool :=
  s.flits.any (fun f => f.ownOf c && ((f.path == p && f.cls == o) || s.sharesByte f.dst f.bytes.length l n)) ||
  (p == .a && s.merges.any fun m => m.from_.any fun x => x.1 == c && (x.2.1 == o || s.sharesByte m.dst 32 l n))

/-- A write to another die that a port of this cluster's die has accepted has performed at CORE and DIE: no agent of the die reads
its bytes before its home has applied it (R201, R226, R239). -/
def State.dieAccepted (s : State) (c : CluIx) (l : Loc) (n : Nat) : Bool :=
  s.flits.any fun f => dieOf (coreOf f.cl) == dieOf (coreOf c) && f.red.isNone && s.sharesByte f.dst f.bytes.length l n

/-- A scope reaches beyond the die. -/
def scopeWide : Scope → Bool
  | .core | .die => false
  | _ => true

/-- Some posted S or A access of a cluster has not performed at a scope: a peer write performs at CORE and DIE when the port
accepts it and at PKG when it is applied; a reduction store performs when it is applied (R209, R239).  Beyond the die the accepted
writes of all other clusters count with the cluster's own, since it may have synchronised with them, or with a cluster that has
(R237). (DEDUCED, log 43) -/
def State.postedAt (s : State) (c : CluIx) (wide : Bool) : Bool :=
  s.flits.any (fun f => (f.ownOf c && (wide || f.red.isSome)) || (wide && f.agent == 0 && f.red.isNone)) ||
  s.merges.any fun m => m.from_.any (fun x => x.1 == c)

/-- The release scope of a place reaches beyond the die (R234). -/
def Loc.wideRelease : Loc → Bool
  | .peer _ _ _ | .tensor _ _ _ | .span _ _ _ _ | .host _ _ => true
  | _ => false

/-! ### Send windows (R301) -/

/-- A port of a hub die changed. -/
def State.modPort (s : State) (d : DieIx) (p : Nat) (f : EthPort → EthPort) : State :=
  s.modDie d fun x => { x with eth := vset x.eth p (f (vget x.eth p EthPort.reset)) }

/-- A port of a hub die. -/
def State.port (s : State) (d : DieIx) (p : Nat) : EthPort := vget (s.die d).eth p EthPort.reset


/-- A write to a send window performs at SYS when the port takes its frame, so that the port keeps whose it is (R240). -/
def EthPort.wroteBy (x : EthPort) (who : Option Writer) : EthPort :=
  match who with
  | some w => { x with writers := addOnce x.writers w }
  | none => x

/-- The doorbell of a send window: a length from 60 to 9,216 asks the port to send a frame; anything else is dropped and
logged with kind 16 (R301, R325). -/
def State.doorbell (s : State) (d : DieIx) (p : Nat) (v : Word) (who : Option Writer) : State :=
  if bits v 14 50 = 0 ∧ 60 ≤ bits v 0 14 ∧ bits v 0 14 ≤ 9216 then
    s.modPort d p fun x => { x.wroteBy who with txLen := some (bits v 0 14) }
  else s.log d 16 0 v 0

/-- An 8-byte write at offset 0xFFF8 of a send window waits while the port still holds the previous frame (R301). -/
def State.sendWait (s : State) (l : Loc) (n : Nat) : Bool :=
  match l with
  | .send d p off => off == 0xFFF8 && n == 8 && (s.port d p).txLen.isSome
  | _ => false

/-- Bytes written to a place of this die, a send window's buffer and doorbell included: of a write that passes the end of the
buffer, the bytes inside it are kept (R301). -/
def State.perform (s : State) (l : Loc) (bs : List Byte) (lid : Nat) (who : Option Writer := none) : State :=
  match l with
  | .send d p off =>
    if off = 0xFFF8 ∧ bs.length = 8 then s.doorbell d p (word (leNat bs)) who
    else s.modPort d p fun x => { (if off < 9216 then x.wroteBy who else x) with buf := x.buf.writeN off (bs.take (9216 - off)) }
  | _ => s.store l bs lid

/-- A write to a send window of the kind that a test names, whose frame its port has not taken (R217, R240, R301; DEDUCED, log 72). -/
def State.windowWrites (s : State) (named : Writer → Bool) : Bool :=
  allDies.any fun d => (s.die d).eth.toList.any fun p => p.writers.any named

/-- The scalar paths. -/
def Path.scalar (p : Path) : Bool := p == .s || p == .a

/-- A release of the cluster, or another's that synchronises with it, follows a write of a send window: one of the scalar paths, or one
that a fence has put before them (R86, R236). -/
def Writer.placed (w : Writer) : Bool := w.path.scalar || w.fenced

/-- A frame that some cluster has asked a port to send, up to a moment, by writes that another may have synchronised with (R237, R240). -/
def State.framesAsked (s : State) (upTo : Nat) : Bool :=
  allDies.any fun d => (s.die d).eth.toList.any fun p => p.txLen.isSome && p.writers.any fun w => w.placed && decide (w.num ≤ upTo)

/-- A release to a place waits for what R86, R206 and the cluster's fences place before it to perform at its release scope (R234, R236):
at SYS, the scope of a host aperture, for writes to send windows too. -/
def State.releaseWaits (s : State) (c : CluIx) (l : Loc) : Bool :=
  s.postedAt c l.wideRelease || (match l with
    | .host _ _ => s.windowWrites (fun w => w.cl == c && w.placed) || s.framesAsked s.serial
    | _ => false)

/-- A posted S-path access of a cluster has not been applied: GETC and SETC follow every earlier one (R225). -/
def State.postedScalar (s : State) (c : CluIx) : Bool := s.flits.any fun f => f.ownOf c && f.path == .s

end Sys2Proof.Machine
end

