-- ==== Sys2Proof/Machine/Fabric.lean ====
section
/-!
DEFINITION. Fabric: flits on Dowel links and over Span, their numbers and send logs, and the accesses a cluster has carried
to another home (R11, R213, R238 to R240, R310, R340).
-/

namespace Sys2Proof.Machine

/-- Ends A and B of a link (R11). -/
def linkEnds (l : LinkIx) : DieIx × DieIx :=
  match l.val with
  | 0 => (0, 1) | 1 => (1, 2) | 2 => (2, 3) | 3 => (0, 3) | 4 => (0, 4) | 5 => (3, 4) | 6 => (1, 5) | 7 => (2, 5) | _ => (4, 5)

/-- A die is an end of a link. -/
def onLink (l : LinkIx) (d : DieIx) : Bool := (linkEnds l).1 == d || (linkEnds l).2 == d

/-- A place is reached beyond the issuing die. -/
def Loc.isRemote : Loc → Bool
  | .peer _ _ _ | .tensor _ _ _ | .span _ _ _ _ | .host _ _ => true
  | _ => false

/-- The die across a link from die d. -/
def acrossFrom (l : LinkIx) (d : DieIx) : DieIx := if (linkEnds l).1 = d then (linkEnds l).2 else (linkEnds l).1

/-- The link between two dies, where there is one (R11). -/
def linkBetween (a b : DieIx) : Option LinkIx := allLinks.find? fun l => onLink l a && onLink l b && a != b

/-- The links of the way from a die to another, each with the die it leads into: the direct link, or else two, of which the second is
the lowest-numbered link into the destination from a neighbour.  Hardware chooses the route, and the choice changes no rule (R238;
DESIGN CHOICE, log 20). -/
def route (a b : DieIx) : List (LinkIx × DieIx) :=
  if a = b then []
  else match linkBetween a b with
    | some l => [(l, b)]
    | none => (allLinks.findSome? fun l =>
        if onLink l b then (linkBetween a (acrossFrom l b)).map fun m => [(m, acrossFrom l b), (l, b)] else none).getD []

/-- The die of the package to which an access is carried: its home, or the hub whose port or Morile link leads out of the package
(R238, R315; DESIGN CHOICE, log 20). -/
def Loc.gate (l : Loc) (src : DieIx) : DieIx :=
  match l.homeDie with
  | some d => d
  | none => hubFor src

/-- The end of a link that is not die d. -/
def Link.farEnd (x : Link) (l : LinkIx) (d : DieIx) : LinkEnd := if (linkEnds l).1 = d then x.endB else x.endA

/-- The end of a link at die d. -/
def Link.nearEnd (x : Link) (l : LinkIx) (d : DieIx) : LinkEnd := if (linkEnds l).1 = d then x.endA else x.endB

/-- The end at die d changed. -/
def Link.modNear (x : Link) (l : LinkIx) (d : DieIx) (f : LinkEnd → LinkEnd) : Link :=
  if (linkEnds l).1 = d then { x with endA := f x.endA } else { x with endB := f x.endB }

/-- The end across from die d changed. -/
def Link.modFar (x : Link) (l : LinkIx) (d : DieIx) (f : LinkEnd → LinkEnd) : Link :=
  if (linkEnds l).1 = d then { x with endB := f x.endB } else { x with endA := f x.endA }

/-- Flits of 256 B that a send log holds: 64 MiB on a stack die, 4 MiB on a hub die (R318, R340). -/
def logFlits (d : DieIx) : Nat := if isHub d then 4 * 2 ^ 20 / 256 else 64 * 2 ^ 20 / 256

/-- The die of a cluster. -/
def dieOfClu (c : CluIx) : DieIx := dieOf (coreOf c)

/-- The flits that a log holds. -/
def LinkEnd.logged (e : LinkEnd) : Nat := e.log.foldl (fun n f => n + f.nums) 0

/-- Flits of 256 B that some bytes take (R318). -/
def flitsFor (bytes : Nat) : Nat := max 1 (ceilDiv bytes 256)

/-- Some send log on a way that starts at a die is full (R340). -/
def State.wayFull (s : State) (src : DieIx) : List (LinkIx × DieIx) → Bool
  | [] => false
  | (l, next) :: rest => decide (logFlits src ≤ ((s.link l).nearEnd l src).logged) || s.wayFull next rest

/-- An access to a place would find the send log of its first link full, and waits (R340). -/
def State.logFull (s : State) (c : CluIx) (l : Loc) : Bool :=
  s.wayFull (dieOfClu c) ((route (dieOfClu c) (l.gate (dieOfClu c))).take 1)

/-- A lane group of some link of a way retrains, so that flits have still to be sent again on it (R318). -/
def State.wayHeld (s : State) (way : List (LinkIx × DieIx)) : Bool := way.any fun h => (s.link h.1).retraining

/-- The number that a warm reset gives again to a flit: the die's own flits take their old numbers in order, and one that the die
carries on takes the number it had (R342). -/
def LinkEnd.oldNumber (e : LinkEnd) (f : Flit) (sender : DieIx) : Option Sent :=
  e.again.find? fun x => x.source == f.source && x.nums == f.nums && (f.source == sender || x.first == f.first)

/-- A flit sent on a link by a die: numbered there, and kept in the send log of that end; one that is sent again after a warm reset
carries its old number (R340, R342). -/
def State.sendOn (s : State) (f : Flit) (l : LinkIx) (sender : DieIx) : Flit × State :=
  let e := (s.link l).nearEnd l sender
  let mark (n : Nat) : Flit := { f with link := some l, sender := sender, num := n, first := if f.source = sender then n else f.first }
  match e.oldNumber f sender with
  | some x => (mark x.num, s.modLink l fun y => y.modNear l sender fun e => { e with again := dropFirst (· == x) e.again })
  | none =>
    let g := mark (e.sent + f.nums)
    (g, s.modLink l fun y => y.modNear l sender fun e =>
      { e with sent := g.num, log := e.log ++ [g], since := e.since ++ [⟨g.num, g.nums, g.source, g.first⟩] })

/-- The numbers from one on that have been applied in a row. -/
def LinkEnd.runOn : Nat → LinkEnd → LinkEnd
  | 0, e => e
  | n + 1, e =>
    if e.early.contains (e.applied + 1) then
      LinkEnd.runOn n { e with applied := e.applied + 1, early := e.early.filter (· != e.applied + 1) }
    else e

/-- The number of an applied flit recorded at its home (R340). -/
def LinkEnd.record (e : LinkEnd) (n : Nat) : LinkEnd :=
  if n ≤ e.applied ∨ e.early.contains n then e else LinkEnd.runOn (e.early.length + 1) { e with early := n :: e.early }

/-- The numbers of an access that takes several flits, recorded at its home. -/
def LinkEnd.recordRun (e : LinkEnd) (num nums : Nat) : LinkEnd :=
  (List.range nums).foldl (fun acc i => acc.record (num + 1 - nums + i)) e

/-- A flit's number has already been applied at its home, so that it is discarded unapplied (R340). -/
def LinkEnd.hasApplied (e : LinkEnd) (n : Nat) : Bool := n ≤ e.applied || e.early.contains n

/-- The die that a flit's link leads into. -/
def Flit.stop (f : Flit) : Option DieIx := f.link.map fun l => acrossFrom l f.sender

/-- A flit's numbers are recorded at the die that its link leads into (R340). -/
def State.recordFlit (s : State) (f : Flit) : State :=
  match f.link with
  | some l => s.modLink l fun x =>
      { x.modNear l (acrossFrom l f.sender) fun e => e.recordRun f.num f.nums with retries := 0 }
  | none => s

/-- A flit carried along a way from a die: numbered and logged on each link, and recorded at each die but the last. -/
def State.carry : List (LinkIx × DieIx) → DieIx → Flit → State → Flit × State
  | [], _, f, s => (f, s)
  | (l, next) :: rest, sender, f, s =>
    let r := s.sendOn f l sender
    if rest.isEmpty then r else State.carry rest next r.1 (r.2.recordFlit r.1)

/-- A flit of an agent, not yet on a link. -/
def newFlit (seq : Nat) (c : CluIx) (agent : Nat) (p : Path) (o : Cls) (va : Nat) (dst : Loc) (bs : List Byte) (bytes : Nat)
    (source : DieIx) (msg : FlitMsg) : Flit :=
  ⟨seq, c, agent, p, o, va, dst, bs, none, none, none, source, 0, source, 0, flitsFor bytes, msg, 0, false⟩

/-- The first link of the way from a die to the gate of a place. -/
def firstWay (src : DieIx) (l : Loc) : List (LinkIx × DieIx) := (route src (l.gate src)).take 1

/-- A posted access leaves its agent for its home, on the first link of its way (R238, R340). -/
def State.sendFlit (s : State) (c : CluIx) (agent : Nat) (p : Path) (o : Cls) (va : Nat) (dst : Loc)
    (bs : List Byte) (red : Option (Nat × AtomType) := none) (tag : Option (BitVec 16) := none) : State :=
  let here := dieOfClu c
  let r := State.carry (firstWay here dst) here
    { newFlit s.serial c agent p o va dst bs bs.length here .write with red := red, tag := tag } s
  { r.2 with flits := r.2.flits ++ [r.1] }.tick

/-- An access that acts at once at a place beyond the die is carried there, numbered and logged on its way (R238, R315, R340). -/
def State.carriedOut (s : State) (c : CluIx) (agent : Nat) (p : Path) (o : Cls) (va : Nat) (dst : Loc) (bs : List Byte) : State :=
  let here := dieOfClu c
  let r := State.carry (route here (dst.gate here)) here (newFlit s.serial c agent p o va dst bs bs.length here .write) s
  r.2.recordFlit r.1

/-- A lane group of the flit's link retrains, so that the flit has still to be sent again (R318). -/
def State.flitHeld (s : State) (f : Flit) : Bool :=
  match f.link with
  | some l => (s.link l).retraining
  | none => false

/-- A flit g of the same agent comes before f: it has f's path and class, or shares a byte with it (R222, R223). -/
def State.flitBefore (s : State) (g f : Flit) : Bool :=
  decide (g.seq < f.seq) && g.cl == f.cl && g.agent == f.agent &&
  ((g.path == f.path && g.cls == f.cls) || (f.agent == 0 && s.sharesByte g.dst g.bytes.length f.dst f.bytes.length))

/-- A store that a merge entry holds comes before an A-path access of its cluster: it has the class, or shares a byte (R222, R223). -/
def State.mergedBefore (s : State) (m : MergeEntry) (c : CluIx) (o : Cls) (seq : Nat) (l : Loc) (n : Nat) : Bool :=
  m.from_.any fun x => x.1 == c && decide (x.2.2 < seq) && (x.2.1 == o || s.sharesByte m.dst 32 l n)

/-- A write that a port has accepted before a reduction store issued has performed at CORE and DIE, so that the store, which reads the
location, is not applied before it; only writes to the same bytes count (R226, R235, R239). -/
def State.acceptedBefore (s : State) (f : Flit) : Bool :=
  f.red.isSome && s.flits.any fun g =>
    g.red.isNone && g.msg == .write && decide (g.seq < f.seq) && dieOfClu g.cl == dieOfClu f.cl &&
      s.sharesByte g.dst g.bytes.length f.dst f.bytes.length

/-- A flit may be applied: nothing that comes before it is still to be applied, no switch holds a reduction store that comes before it
(R222, R223, R226, R238, R244); replayed flits are applied in order (R342). -/
def State.flitReady (s : State) (f : Flit) : Bool :=
  !s.flitHeld f && !s.acceptedBefore f && (!f.replay || s.flits.all fun g =>
    !(g.replay && g.link == f.link && g.sender == f.sender && decide (g.num < f.num))) && s.flits.all (fun g => !s.flitBefore g f) &&
  (f.path != .a || f.agent != 0 || s.merges.all fun m => !s.mergedBefore m f.cl f.cls f.seq f.dst f.bytes.length)

/-- A merge entry may be applied: no earlier flit or entry holds an access of one of its clusters that comes before its store, and no
port of their dies has accepted a write to its bytes, of whatever cluster or engine: such a write has performed at CORE, so that a
read-modify-write after it reads it; a plain store of a cluster may overtake its reduction store (R222, R223, R226, R238, R244). -/
def State.mergeReady (s : State) (m : MergeEntry) : Bool :=
  m.from_.all fun x =>
    s.flits.all (fun g => !(g.agent == 0 && g.cl == x.1 && decide (g.seq < x.2.2) &&
      ((g.path == .a && g.cls == x.2.1) || s.sharesByte g.dst g.bytes.length m.dst 32))) &&
    s.flits.all (fun g => !(g.red.isNone && g.msg == .write && dieOfClu g.cl == dieOfClu x.1 &&
      s.sharesByte g.dst g.bytes.length m.dst 32)) &&
    s.merges.all fun n => n.seq == m.seq || !s.mergedBefore n x.1 x.2.1 x.2.2 m.dst 32

/-- A write to bytes of a reduction store that is still to be applied is not accepted: it would have performed at CORE while the store
could read the older value (R226, R239; DEDUCED, log 43). -/
def State.reductionOpen (s : State) (c : CluIx) (l : Loc) (n : Nat) : Bool :=
  l.isRemote && s.flits.any fun f => f.red.isSome && dieOfClu f.cl == dieOfClu c && s.sharesByte f.dst f.bytes.length l n

/-- A flit sent again whose number the die it reaches has already applied (R340, R342). -/
def State.isRepeat (s : State) (f : Flit) : Bool :=
  match f.link with
  | some l => ((s.link l).nearEnd l (acrossFrom l f.sender)).hasApplied f.num
  | none => false

/-- A flit has been applied: it leaves the fabric, and its number is recorded at its home (R340). (DEDUCED, log 43) -/
def State.dropFlit (s : State) (f : Flit) : State :=
  { s with flits := dropFirst (fun g => g.seq == f.seq) s.flits }.recordFlit f

/-- The way that a flit has still to go beyond the die its link leads into. -/
def Flit.onward (f : Flit) : List (LinkIx × DieIx) :=
  match f.stop with
  | some d => route d (f.dst.gate f.source)
  | none => []

/-- A flit has reached a die on its way that is not its home: it goes on from there, numbered on the next link, or over a port of the
package (R238, R340). -/
def State.flitOnward (s : State) (f : Flit) : State :=
  match f.stop with
  | some d =>
    let s := s.recordFlit f
    let r := match f.onward with
      | (l, _) :: _ => s.sendOn f l d
      | [] => ({ f with link := none }, s)
    { r.2 with flits := updFirst (fun g => g.seq == f.seq) (fun _ => r.1) r.2.flits }
  | none => s

/-- The send log of the next link of a flit's way is full (R340). -/
def State.onwardFull (s : State) (f : Flit) : Bool :=
  match f.stop with
  | some d => s.wayFull d (f.onward.take 1)
  | none => false

/-- A flit stands at a die from which it has still to be carried on: to its home, or out of the package. -/
def Flit.underway (f : Flit) : Bool := f.link.isSome && (!f.onward.isEmpty || f.dst.homeDie.isNone)

/-- A refused store is dropped and both dies log it (R310, R325 kind 12). -/
def State.logRefused (s : State) (here : DieIx) (home : Option DieIx) (addr : Nat) (lid : Nat) : State :=
  let s := s.log here 12 Cause.prm.code (word addr) lid
  match home with
  | some h => s.log h 12 Cause.prm.code (word addr) lid
  | none => s

/-- A cluster's load or atomic leaves for a home beyond the die: the word has issued, an earlier FENCE is passed, and the cluster waits
for the data (R213, R218, R310). -/
def State.issueRemote (s : State) (kind : RemoteKind) (d : Reg) (va : Word) (l : Loc) (o : Cls) : State :=
  let here := s.myDieIx
  let p : Path := match kind with | .load _ _ => pathOf .s va.toNat | _ => pathOf .a va.toNat
  let r := State.carry (firstWay here l) here (newFlit s.serial s.focus 0 p o va.toNat l [] 1 here (.request kind s.me.atag)) s
  { r.2.modMe (fun c => { c.behindFences with
      waiting := false, syncWait := false, syncAge := 0
      remote := some ⟨s.serial, kind, d, va, l, o, c.atag, false, [], none, false, 0, va, r.1.link, r.1.num, none⟩ })
    with note := .done }.tick

/-- The way of a cluster's request, and the way back of its response. -/
def Remote.way (r : Remote) (c : CluIx) : List (LinkIx × DieIx) := route (dieOfClu c) (r.loc.gate (dieOfClu c))
/-- See `way`. -/
def Remote.wayBack (r : Remote) (c : CluIx) : List (LinkIx × DieIx) := route (r.loc.gate (dieOfClu c)) (dieOfClu c)

/-- A request or its response waits for a link of its way: one that retrains, or one whose send log is full (R318, R340). -/
def State.wayWaits (s : State) (c : CluIx) (r : Remote) : Bool :=
  let home := r.loc.gate (dieOfClu c)
  s.wayHeld (r.way c) || s.wayHeld (r.wayBack c) || s.wayFull home (r.wayBack c) ||
  match r.way c with
  | (_, d) :: rest => s.wayFull d rest
  | [] => false

/-- The answer to a request that the next die has already applied, from a send log towards the cluster's die (R340, R342). -/
def State.loggedAnswer (s : State) (r : Remote) (c : CluIx) : Option Flit :=
  let here := dieOfClu c
  match r.link with
  | some l =>
    if ((s.link l).farEnd l here).hasApplied r.num then
      (allLinks.filter fun m => onLink m here).findSome? fun m =>
        ((s.link m).farEnd m here).log.find? fun f => f.msg == .response l r.num && f.cl == c
    else none
  | none => none

/-- The response of a die to the request of a cluster that had a number on a link: numbered, and kept in the send logs of the way back
(R340).  Answers the link and number on which it arrives. -/
def State.respond (s : State) (c : CluIx) (p : Path) (o : Cls) (va : Nat) (home : DieIx) (l : LinkIx) (num : Nat) (bs : List Byte) :
    Option (LinkIx × Nat) × State :=
  let back := State.carry (route home (dieOfClu c)) home
    (newFlit s.serial c 0 p o va (.spad (coreOf c) 0) bs bs.length home (.response l num)) s
  (back.1.link.map fun m => (m, back.1.num), back.2.tick)

/-- A request has been carried out at its home: its numbers are recorded on its way, and the response is sent (R340). -/
def State.answerSent (s : State) (c : CluIx) (r : Remote) (bs : List Byte) : Option (LinkIx × Nat) × State :=
  match r.link with
  | none => (none, s)
  | some l =>
    let here := dieOfClu c
    let home := r.loc.gate here
    let p : Path := match r.kind with | .load _ _ => pathOf .s r.va.toNat | _ => pathOf .a r.va.toNat
    let req : Flit := { newFlit r.seq c 0 p r.cls r.va.toNat r.loc [] 1 here (.request r.kind r.tag) with
      link := some l, sender := here, num := r.num, first := r.num }
    let s := s.recordFlit req
    let s := match r.way c with
      | (_, d) :: rest => if rest.isEmpty then s else (let x := State.carry rest d req s; x.2.recordFlit x.1)
      | [] => s
    s.respond c p r.cls r.va.toNat home l r.num bs

/-- A response has arrived: its numbers are recorded at the die that asked (R340). -/
def State.answerTaken (s : State) (c : CluIx) (resp : Option (LinkIx × Nat)) (bytes : Nat) : State :=
  match resp with
  | some (m, num) => s.modLink m fun x => { x.modNear m (dieOfClu c) fun e => e.recordRun num (flitsFor bytes) with retries := 0 }
  | none => s

/-- The ways on which an engine of a die reads n bytes of a place, and the wait for them (R318, R340). -/
def State.readWaits (s : State) (src : DieIx) (l : Loc) : Bool :=
  let home := l.gate src
  s.wayHeld (route src home) || s.wayHeld (route home src) || s.wayFull src (route src home) || s.wayFull home (route home src)

/-- A read of an engine beyond its die: the request and the data are numbered and logged on each link (R238, R340). -/
def State.readCarried (s : State) (c : CluIx) (agent : Nat) (p : Path) (o : Cls) (va : Nat) (l : Loc) (n : Nat) : State :=
  let src := dieOfClu c
  let home := l.gate src
  if src = home then s
  else
    let a := State.carry (route src home) src (newFlit s.serial c agent p o va l [] 1 src (.read n)) s
    let s := (a.2.recordFlit a.1).tick
    let req := (route src home).head?.map (·.1) |>.getD 0
    let b := State.carry (route home src) home
      (newFlit s.serial c agent p o va (.spad (coreOf c) 0) [] n home (.response req a.1.first)) s
    (b.2.recordFlit b.1).tick

/-- Cycles that a flit waits for a die below READY (R347). -/
def sendTimeout : Nat := 3200000

/-- The home of an access can take it: its die has set READY (R347). -/
def State.homeReady (s : State) (l : Loc) : Bool :=
  match l.homeDie with
  | some d => (s.die d).ready
  | none => true

end Sys2Proof.Machine
end

