-- ==== Sys2Proof/Machine/Barriers.lean ====
section
/-!
DEFINITION. Barriers: the named barriers of a core and the barrier instructions (R95 to R100).
-/

namespace Sys2Proof.Machine

/-- Barrier k of a core. -/
def Core.bar (x : Core) (k : Nat) : Barrier := vget x.bars k Barrier.reset

/-- Barrier k of a core changed. -/
def Core.modBar (x : Core) (k : Nat) (f : Barrier → Barrier) : Core := { x with bars := vset x.bars k (f (x.bar k)) }

/-- The phase completes when every member has arrived: PHASE advances, arrivals clear and leavers are removed (R95). -/
def Barrier.settle (b : Barrier) : Barrier :=
  if b.members.length ≠ 0 ∧ b.arrived.length = b.members.length then
    { b with phase := b.phase + 1, members := b.members.filter (fun c => !b.leaving.contains c), arrived := [], leaving := [] }
  else b

/-- A cluster counted as arrived, once. -/
def Barrier.arrive (b : Barrier) (c : CluIx) : Barrier :=
  if b.arrived.contains c then b else { b with arrived := b.arrived ++ [c] }

/-- The home core: the issuing core when the A field is 0, else the core of the die that gA[4:0] names (R95). -/
def State.homeCore (s : State) (a : Reg) : Option CoreIx :=
  if a = 0 then some s.myCoreIx else s.coreAt s.myDieIx (bits (s.g a) 0 5)

/-- BAR with a reason of R97. -/
def State.trapBar (s : State) (reason : Word) : State := s.trap .bar reason

/-- A barrier instruction on the barrier it names; no home core is reason 5 (R97). -/
def State.onBarrier (s : State) (k : BitVec 7) (a : Reg) (f : CoreIx → Barrier → State) : Result :=
  .next (match s.homeCore a with
    | none => s.trapBar 5
    | some h => f h ((s.core h).bar k.toNat))

/-- BJOIN (R96). -/
def execBjoin (k : BitVec 7) (a : Reg) (s : State) : Result :=
  s.onBarrier k a fun h b =>
    if b.members.contains s.focus then s.trapBar 3
    else (s.modCore h fun x => x.modBar k.toNat fun b => { b with members := b.members ++ [s.focus] }).advanceDeliver

/-- An arrival waits until the cluster's S and A accesses have performed at DIE, and for the FENCEs that cover its vector, matrix, copy and
lane commands (R98). -/
def State.arrivalWaits (s : State) : Bool := s.postedAt s.focus false || s.me.fenceOpen 0b011110
/-- BLEAVE (R96, R98). -/
def execBleave (k : BitVec 7) (a : Reg) (s : State) : Result :=
  s.onBarrier k a fun h b =>
    if !b.members.contains s.focus then s.trapBar 1
    else if b.leaving.contains s.focus then s.trapBar 4
    else if s.arrivalWaits then s.stall
    else (s.modCore h fun x => x.modBar k.toNat fun b =>
      ({ b with leaving := b.leaving ++ [s.focus] }.arrive s.focus).settle).advanceDeliver

/-- BARA (R96). -/
def execBara (d : Reg) (k : BitVec 7) (a : Reg) (s : State) : Result :=
  s.onBarrier k a fun h b =>
    if !b.members.contains s.focus then s.trapBar 1
    else if b.arrived.contains s.focus then s.trapBar 2
    else if s.arrivalWaits then s.stall
    else ((s.modCore h fun x => x.modBar k.toNat fun b => (b.arrive s.focus).settle).setG d
      (b.phase.setWidth 64)).advanceDeliver

/-- The wait that a BARV of the present mode has begun at this PC (R100). -/
def Cluster.barvWait (c : Cluster) : Option BarvWait :=
  let w := match c.mode with | .user => c.barv | .handler => c.hbarv
  match w with
  | some x => if x.pc = c.pc then some x else none
  | none => none

/-- The wait of a BARV recorded for the present mode. -/
def Cluster.setBarv (c : Cluster) (w : BarvWait) : Cluster :=
  match c.mode with | .user => { c with barv := some w } | .handler => { c with hbarv := some w }

/-- BARV (R96): it sets gD and arrives as BARA does, once, and then only the wait remains; the flags are delivered after the wait (R99,
R100).  A BARV whose arrival is made has issued, in a bundle too, whose other words then take effect while it waits (R32; DEDUCED,
log 25). -/
def execBarv (d : Reg) (k : BitVec 7) (a : Reg) (s : State) : Result :=
  match s.me.barvWait with
  | some w => .next (if ((s.core w.core).bar w.k).phase = w.phase then s.stall else s.advanceDeliver)
  | none =>
    s.onBarrier k a fun h b =>
      if !b.members.contains s.focus then s.trapBar 1
      else if b.arrived.contains s.focus then s.trapBar 2
      else if s.arrivalWaits then s.stall
      else
        let s' := (s.modCore h fun x => x.modBar k.toNat fun b => (b.arrive s.focus).settle).setG d (b.phase.setWidth 64)
        if ((s'.core h).bar k.toNat).phase = b.phase then
          (s'.modMe fun c => c.setBarv ⟨h, k.toNat, b.phase, c.pc⟩).beginWait
        else s'.advanceDeliver

/-- BWAIT (R96): a wait that has begun is released by the completion, which may remove the cluster (R95). (DEDUCED, log 54) -/
def execBwait (k : BitVec 7) (a b : Reg) (s : State) : Result :=
  s.onBarrier k a fun _ x =>
    if !x.members.contains s.focus && !s.me.waiting then s.trapBar 1
    else if x.phase = (s.g b).setWidth 16 then s.stall
    else s.advanceDeliver

end Sys2Proof.Machine
end

