-- ==== Sys2Proof/Machine/LoadStore.lean ====
section
/-!
DEFINITION. LoadStore: the scalar loads and stores (R83 to R86), and the return of data from beyond the die.
-/

namespace Sys2Proof.Machine

/-- Bytes at a virtual address with a DUAL copy's own buffered stores laid over them (R338). -/
def Cluster.overlay (c : Cluster) (va : Nat) (bs : List Byte) : List Byte :=
  match c.dual with
  | some r => r.stores.foldl (fun acc st =>
      (List.zip (iota va acc.length) acc).map fun p =>
        if st.va.toNat ≤ p.1 ∧ p.1 < st.va.toNat + st.bytes.length then st.bytes.getD (p.1 - st.va.toNat) p.2 else p.2) bs
  | none => bs

/-- A cluster runs a DUAL copy whose stores are buffered (R338). -/
def Cluster.buffers (c : Cluster) : Bool :=
  match c.dual with
  | some r => c.mode == .user && !r.ended
  | none => false

/-- A store put into a DUAL copy's buffer (R338). -/
def Cluster.buffer (c : Cluster) (va : Word) (bs : List Byte) (o : Cls) (rel : Bool) : Cluster :=
  { c with dual := c.dual.map fun r => { r with stores := r.stores ++ [⟨va, bs, o, rel⟩] } }
/-- A checked store of a DUAL copy goes into its buffer, whatever the home would make of it; the 257th raises LCH 0x530 (R338). -/
def State.dualStore (s : State) (va : Word) (bs : List Byte) (o : Cls) (rel : Bool) : State :=
  if 256 ≤ (match s.me.dual with | some r => r.stores.length | none => 0) then s.trap .lch 0x530
  else (s.modMe fun c => c.buffer va bs o rel).advance

/-- The first uncorrectable 64-bit word that a read meets, by its address within its memory. -/
def State.firstBad (s : State) (l : Loc) (n : Nat) : Nat :=
  let bad := s.badWords l n
  bad.foldl min (bad.headD 0) * 8

/-- The word that issues met uncorrectable data: ECU, counted and logged, with the address of the uncorrectable word (R320, R323).  `late`
says that it met it when the data or response of a load or atomic returned: the other words of its bundle stand, and SOLO is set
(R33). -/
def State.trapEcu (s : State) (l : Loc) (n : Nat) (va : Nat) (p : Path) (late : Bool) : State :=
  let tval := word (va + s.firstBad l n - l.addr)
  let s := s.noteUnc l n s.me.lid
  if late && s.bundling then { s.takeTrap s.focus false true true p.code .ecu tval with note := .late }
  else s.trap .ecu tval p.code

/-- A failed check of R84 as a trap of the word that issues. -/
def State.trapXlate (s : State) (x : Xlate) (va : Word) (p : Path) : State :=
  match x with
  | .xlt | .hole _ => s.trap .xlt va p.code
  | _ => s.trap .prm va p.code

/-- A scalar load of `size` bytes (R83 to R86): the checks of R84 in order, then the waits of fences, of the cluster's own
posted accesses and of tile transfers, then the data, at once from this die and later from beyond it. -/
def State.load (s : State) (d : Reg) (va : Word) (size : Nat) (signed : Bool) (o : Cls) : Result :=
  let a := va.toNat
  let p := pathOf .s a
  .next (
    if a % size ≠ 0 then s.trap .aln va p.code
    else match s.myXlate .read a with
      | (.ok l, s') =>
        if s.me.gated p o || s.ownPending s.focus p o l size || s.bankWait l size || s.logFull s.focus l then s.stall
        else if l.isRemote then s'.issueRemote (.load size signed) d va l o
        else if (s.badUnits l size).isEmpty then
          (s'.readDram l size).finish d (extend signed size (leNat (s.me.overlay a (s'.peek l size))))
        else s'.trapEcu l size a p true
      | (x, s') => s'.trapXlate x va p)

/-- A checked store of the cluster that issues reaches a place (R301, R310, R315, R338). -/
def State.storeAt (s : State) (va : Word) (l : Loc) (bs : List Byte) (o : Cls) (p : Path) : State :=
  match l with
  | .peer _ _ _ | .span _ _ _ _ => s.sendFlit s.focus 0 p o va.toNat l bs
  | .host d a =>
    if s.windowOk d a bs.length true then (s.carriedOut s.focus 0 p o va.toNat l bs).store l bs
    else (s.countWindow d).logRefused d none va.toNat s.me.lid
  | _ => s.perform l bs s.me.lid (some ⟨s.focus, p, o, s.serial, false⟩)

/-- A scalar store of the low `size` bytes of a value (R83 to R86).  A release waits for every earlier S and A access of the
cluster to perform at its release scope (R86, R234). -/
def State.storeWord (s : State) (v va : Word) (size : Nat) (o : Cls) (rel : Bool) : Result :=
  let a := va.toNat
  let p := pathOf .s a
  let bs := leBytes size v.toNat
  .next (
    if a % size ≠ 0 then s.trap .aln va p.code
    else match s.myXlate .write a with
      | (.ok l, s') =>
        if s.me.buffers then s'.dualStore va bs o rel
        else if s.me.gated p o || s.bankWait l size || s.sendWait l size || s.logFull s.focus l || s.reductionOpen s.focus l size
            || (!l.isRemote && s.ownPending s.focus p o l size) || (rel && s.releaseWaits s.focus l) then s.stall
        else (s'.storeAt va l bs o p).advance
      | (.refused e, s') =>
        if s.me.buffers then s'.dualStore va bs o rel else (s'.logRefused s.myDieIx e a s.me.lid).advance
      | (x, s') => s'.trapXlate x va p)

/-- LD (R83). -/
def execLd (d a : Reg) (imm : BitVec 11) (o : Cls) (s : State) : Result := s.load d (addrM (s.g a) imm 8) 8 false o
/-- LD.S32 (R83). -/
def execLdS32 (d a : Reg) (imm : BitVec 11) (o : Cls) (s : State) : Result := s.load d (addrM (s.g a) imm 4) 4 true o
/-- ST (R83). -/
def execSt (d a : Reg) (imm : BitVec 11) (o : Cls) (s : State) : Result :=
  s.storeWord (s.g d) (addrM (s.g a) imm 8) 8 o false
/-- ST.N32 (R83). -/
def execStN32 (d a : Reg) (imm : BitVec 11) (o : Cls) (s : State) : Result :=
  s.storeWord (s.g d) (addrM (s.g a) imm 4) 4 o false
/-- LD.S8 (R83). -/
def execLdS8 (d a b : Reg) (o : Cls) (s : State) : Result := s.load d (addrR (s.g a) (s.g b) 1) 1 true o
/-- LD.N8 (R83). -/
def execLdN8 (d a b : Reg) (o : Cls) (s : State) : Result := s.load d (addrR (s.g a) (s.g b) 1) 1 false o
/-- LD.S16 (R83). -/
def execLdS16 (d a b : Reg) (o : Cls) (s : State) : Result := s.load d (addrR (s.g a) (s.g b) 2) 2 true o
/-- LD.N16 (R83). -/
def execLdN16 (d a b : Reg) (o : Cls) (s : State) : Result := s.load d (addrR (s.g a) (s.g b) 2) 2 false o
/-- LD.N32 (R83). -/
def execLdN32 (d a b : Reg) (o : Cls) (s : State) : Result := s.load d (addrR (s.g a) (s.g b) 4) 4 false o
/-- LDX (R83). -/
def execLdx (d a b : Reg) (o : Cls) (s : State) : Result := s.load d (addrR (s.g a) (s.g b) 8) 8 false o
/-- ST.N8 (R83). -/
def execStN8 (d a b : Reg) (o : Cls) (s : State) : Result := s.storeWord (s.g d) (addrR (s.g a) (s.g b) 1) 1 o false
/-- ST.N16 (R83). -/
def execStN16 (d a b : Reg) (o : Cls) (s : State) : Result := s.storeWord (s.g d) (addrR (s.g a) (s.g b) 2) 2 o false
/-- STX (R83). -/
def execStx (d a b : Reg) (o : Cls) (s : State) : Result := s.storeWord (s.g d) (addrR (s.g a) (s.g b) 8) 8 o false
/-- LD.ACQ (R86): no later word issues before it has its value. -/
def execLdAcq (d a : Reg) (o : Cls) (s : State) : Result := s.load d (s.g a) 8 false o
/-- ST.REL (R86). -/
def execStRel (d a : Reg) (o : Cls) (s : State) : Result := s.storeWord (s.g d) (s.g a) 8 o true

end Sys2Proof.Machine
end

