-- ==== Sys2Proof/Machine/Atomics.lean ====
section
/-!
DEFINITION. Atomics: scalar and vector atomics and reduction stores, where they execute, and how each is applied once
(R201 to R214, R244).
-/

namespace Sys2Proof.Machine

/-- The value a scalar atomic stores, on k-bit old, b and c; nothing for an ACAS that fails (R204). -/
def atomNew (op : AtomOp) (k old b c : Nat) : Option Nat :=
  match op with
  | .add => some ((old + b) % 2 ^ k)
  | .and => some (old &&& b)
  | .or => some (old ||| b)
  | .xor => some (old ^^^ b)
  | .min => some (if sextNat old k ≤ sextNat b k then old else b)
  | .max => some (if sextNat b k ≤ sextNat old k then old else b)
  | .swp => some b
  | .cas => if old = c then some b else none

/-- Bytes of an element of a vector atomic (R207). -/
def atomBytes : AtomType → Nat
  | .bf16 => 2
  | _ => 4

/-- One element of a vector atomic or reduction store: VOP 0 add, 1 min, 2 max (R207). -/
def atomElem (vop : Nat) (t : AtomType) (old b : Nat) : Nat :=
  match t, vop with
  | .s32, 0 | .n32, 0 => (old + b) % 2 ^ 32
  | .f32, 0 => (fmtF32.add (fmtF32.decode old) (fmtF32.decode b)).code
  | .bf16, 0 => (fmtBF16.add (fmtBF16.decode old) (fmtBF16.decode b)).code
  | .s32, 1 => if sextNat old 32 ≤ sextNat b 32 then old else b
  | .s32, _ => if sextNat b 32 ≤ sextNat old 32 then old else b
  | .n32, 1 => min old b
  | .n32, _ => max old b
  | .f32, v => (fmtF32.minMax (v == 2) old b).code
  | .bf16, v => (fmtBF16.minMax (v == 2) old b).code

/-- The 32 bytes after a vector atomic (R207). -/
def atomVector (vop : Nat) (t : AtomType) (old b : List Byte) : List Byte :=
  let e := atomBytes t
  (List.zip (chunks e 32 old) (chunks e 32 b)).flatMap fun p => leBytes e (atomElem vop t (leNat p.1) (leNat p.2))

/-! ### Execution at a point (R210, R213) -/

/-- What an atomic met at its execution point. -/
inductive AtomMet where
  /-- applied, with these old bytes -/
  | old (bs : List Byte)
  | prm
  | ecu
  deriving DecidableEq, Repr

/-- An atomic applied whole at a place of memory: uncorrectable data leaves it unapplied and is counted (R213, R323). -/
def State.atomApply (s : State) (l : Loc) (kind : RemoteKind) : AtomMet × State :=
  let n := match kind with | .atomic _ size _ _ => size | .load size _ => size | .vatomic _ _ _ _ => 32
  if !(s.badUnits l n).isEmpty then (.ecu, s.noteUnc l n)
  else
    let old := s.peek l n
    let new := match kind with
      | .load _ _ => none
      | .atomic op size b c =>
        (atomNew op (8 * size) (leNat old) (b.toNat % 2 ^ (8 * size)) (c.toNat % 2 ^ (8 * size))).map (leBytes size)
      | .vatomic vop t b _ => some (atomVector vop t old b)
    (.old old, match new with | some bs => s.store l bs | none => s)

/-- The kind of access a request makes. -/
def RemoteKind.acc : RemoteKind → Acc
  | .load _ _ => .read
  | .atomic _ _ _ _ => .atomic
  | .vatomic _ _ _ _ => .vatomic

/-- Bytes a request reads. -/
def RemoteKind.bytes : RemoteKind → Nat
  | .load size _ | .atomic _ size _ _ => size
  | .vatomic _ _ _ _ => 32

/-- The die whose atomics unit, or whose link, is the execution point of a place (R210). -/
def Loc.point (l : Loc) : DieIx :=
  match l with
  | .host d _ => hubFor d
  | .span _ _ _ _ => 4
  | _ => (l.homeDie).getD 0

/-- The answered tag of a cluster at a point (R213). -/
def Die.tagOf (x : Die) (c : CluIx) (tag : BitVec 6) : Option TagRec := x.tags.find? fun t => t.cl == c && t.tag == tag

/-- An answer put into the record of a point, which keeps the last eight of each cluster (R213). -/
def Die.answer (x : Die) (t : TagRec) : Die :=
  let mine := (x.tags.filter fun u => u.cl == t.cl).take 7
  { x with tags := t :: mine ++ x.tags.filter fun u => u.cl != t.cl }

/-- A tag that the point does not hold for the cluster, from one on (R213). -/
def freshTag (x : Die) (c : CluIx) : Nat → BitVec 6 → BitVec 6
  | 0, t => t
  | n + 1, t => if (x.tagOf c t).isSome then freshTag x c n (t + 1) else t

/-! ### Scalar atomics (R204 to R206) -/

/-- The atomic releases (R206). -/
def semReleases : Sem → Bool
  | .rel | .acqRel => true
  | _ => false

/-- gD of a scalar atomic: the old value, sign-extended when it is 32 bits (R204). -/
def atomResult (size : Nat) (old : List Byte) : Word := if size = 4 then sext (leNat old) 32 else word (leNat old)

/-- The waits of an atomic that has passed its checks. -/
def State.atomWaits (s : State) (l : Loc) (n : Nat) (p : Path) (o : Cls) (rel : Bool) : Bool :=
  s.me.gated p o || s.bankWait l n || s.ownPending s.focus .a o l n || s.logFull s.focus l ||
  (rel && s.releaseWaits s.focus l)

/-- A scratchpad operand of a vector atomic or reduction store waits as an A-path access of its class (R214, R222, R223, R230). -/
def State.operandWaits (s : State) (o : Cls) (a : Nat) : Bool :=
  s.bankWait (.spad s.myCoreIx a) 32 || s.ownPending s.focus .a o (.spad s.myCoreIx a) 32

/-- The tag of an atomic that leaves: a replayed one keeps its own, one that a third detection dropped and that issues again keeps
it too, and any other takes one that its execution point does not hold (R213, R321). -/
def State.atomTag (s : State) (l : Loc) : BitVec 6 :=
  if s.me.replays ≠ 0 then s.me.atag
  else match s.me.retag with
    | some (pc, tag) => if s.me.mode = .user ∧ pc = s.me.pc then tag else freshTag (s.die l.point) s.focus 8 s.me.atag
    | none => freshTag (s.die l.point) s.focus 8 s.me.atag

/-- An atomic leaves for an execution point beyond the die (R213). -/
def State.atomLeave (s : State) (kind : RemoteKind) (d : Reg) (va : Word) (l : Loc) (o : Cls) : State :=
  (s.modMe fun c => { c with atag := s.atomTag l }).issueRemote kind d va l o

/-- A scalar atomic (R204 to R206, R210). -/
def State.atomic (s : State) (op : AtomOp) (d a b : Reg) (sem : Sem) (w : Bool) (o : Cls) : Result :=
  let va := s.g a
  let size := if w then 4 else 8
  let p := pathOf .a va.toNat
  let kind : RemoteKind := .atomic op size (s.g b) (s.g d)
  .next (
    if va.toNat % size ≠ 0 then s.trap .aln va p.code
    else match s.myXlate .atomic va.toNat with
      | (.ok l, s') =>
        if s.atomWaits l size p o (semReleases sem) then s.stall
        else if l.isRemote then s'.atomLeave kind d va l o
        else match s'.atomApply l kind with
          | (.old bs, s'') => s''.finish d (atomResult size bs)
          | (_, _) => s'.trapEcu l size va.toNat p true
      | (x, s') => s'.trapXlate x va p)

/-- AADD (R204). -/
def execAadd (d a b : Reg) (sem : Sem) (w : Bool) (o : Cls) (s : State) : Result := s.atomic .add d a b sem w o
/-- AAND (R204). -/
def execAand (d a b : Reg) (sem : Sem) (w : Bool) (o : Cls) (s : State) : Result := s.atomic .and d a b sem w o
/-- AOR (R204). -/
def execAor (d a b : Reg) (sem : Sem) (w : Bool) (o : Cls) (s : State) : Result := s.atomic .or d a b sem w o
/-- AXOR (R204). -/
def execAxor (d a b : Reg) (sem : Sem) (w : Bool) (o : Cls) (s : State) : Result := s.atomic .xor d a b sem w o
/-- AMIN (R204). -/
def execAmin (d a b : Reg) (sem : Sem) (w : Bool) (o : Cls) (s : State) : Result := s.atomic .min d a b sem w o
/-- AMAX (R204). -/
def execAmax (d a b : Reg) (sem : Sem) (w : Bool) (o : Cls) (s : State) : Result := s.atomic .max d a b sem w o
/-- ASWP (R204). -/
def execAswp (d a b : Reg) (sem : Sem) (w : Bool) (o : Cls) (s : State) : Result := s.atomic .swp d a b sem w o
/-- ACAS (R204): it reads gD as the value compared. -/
def execAcas (d a b : Reg) (sem : Sem) (w : Bool) (o : Cls) (s : State) : Result := s.atomic .cas d a b sem w o

/-! ### Vector atomics and reduction stores (R207 to R209, R212) -/

/-- The least address of those that fail one test (R52). -/
def leastBad (xs : List (Nat × Bool)) : Option Nat :=
  let bad := (xs.filter (·.2)).map (·.1)
  if bad.isEmpty then none else some (bad.foldl min (bad.headD 0))

/-- The scratchpad operands of a vector atomic are in the window and below the capacity (R208). -/
def State.ownSpadBad (s : State) (a : Nat) : Bool := spadBytes s.myCoreIx ≤ a

/-- The checks of R208 on the target and the operands at gB, and gD when it is used; the first failure decides, and of several
addresses that fail one cause the lowest is its TVAL (R52).  A passed check answers the target's place. -/
def State.vatomCheck (s : State) (acc : Acc) (va vb : Word) (vd : Option Word) : Except State (Loc × State) :=
  let a := va.toNat
  let ops := vb.toNat :: (match vd with | some x => [x.toNat] | none => [])
  let p := pathOf .a a
  match leastBad ((a :: ops).map fun x => (x, x % 32 != 0)) with
  | some x => .error (s.trap .aln (word x) p.code)
  | none =>
    let r := s.myXlate acc a
    let unmapped := match r.1 with | .xlt | .hole _ => true | _ => false
    match leastBad ((a, unmapped) :: ops.map fun x => (x, s.ownSpadBad x)) with
    | some x => .error (r.2.trap .xlt (word x) p.code)
    | none =>
      let w := ops.map fun x => (x, !(r.2.worldOk s.myDieIx s.myCore.secure (r.2.physAddr (.spad s.myCoreIx x)) 32).1)
      match r.1 with
      | .ok l => match leastBad w with
        | some x => .error (r.2.trap .prm (word x) p.code)
        | none => .ok (l, r.2)
      | .prm | .refused _ => .error (match leastBad ((a, true) :: w) with
        | some x => r.2.trap .prm (word x) p.code
        | none => r.2)
      | x => .error (r.2.trapXlate x va p)

/-- A vector atomic (R207, R208). -/
def State.vatomic (s : State) (vop : Nat) (d a b : Reg) (sem : Sem) (t : AtomType) (o : Cls) : Result :=
  let va := s.g a
  let vb := (s.g b).toNat
  let vd := if d = 0 then none else some (s.g d)
  let own (x : Nat) : Loc := .spad s.myCoreIx x
  .next (match s.vatomCheck .vatomic va (s.g b) vd with
    | .error s' => s'
    | .ok (l, s') =>
      if s.atomWaits l 32 .a o (semReleases sem) || s.operandWaits o vb ||
          (match vd with | some x => s.operandWaits o x.toNat | none => false) then s.stall
      else if !(s.badUnits (own vb) 32).isEmpty then s'.trapEcu (own vb) 32 vb .a false
      else
        let kind : RemoteKind := .vatomic vop t (s.peek (own vb) 32) (vd.map (·.toNat))
        if l.isRemote then s'.atomLeave kind d va l o
        else match s'.atomApply l kind with
          | (.old bs, s'') =>
            (match vd with | some x => s''.store (own x.toNat) bs s.me.lid | none => s'').advance
          | (_, _) => s'.trapEcu l 32 va.toNat .a true)

/-- VAADD (R207). -/
def execVaadd (d a b : Reg) (sem : Sem) (t : AtomType) (o : Cls) (s : State) : Result := s.vatomic 0 d a b sem t o
/-- VAMIN (R207). -/
def execVamin (d a b : Reg) (sem : Sem) (t : AtomType) (o : Cls) (s : State) : Result := s.vatomic 1 d a b sem t o
/-- VAMAX (R207). -/
def execVamax (d a b : Reg) (sem : Sem) (t : AtomType) (o : Cls) (s : State) : Result := s.vatomic 2 d a b sem t o

/-- The page of an address, which has just been translated, is a Span reduction window: in-fabric (R210, R299). (DEDUCED, log 26) -/
def State.inFabric (s : State) (va : Nat) : Bool :=
  match s.myCore.tlbFind va with
  | some e => bits e.leaf 8 2 == 1
  | none => false

/-- Nothing but the store that merge entry m holds comes before a new reduction store of the cluster that issues, so that merging the two
keeps the order of R222 and R223. -/
def State.mayMerge (s : State) (m : MergeEntry) (o : Cls) : Bool :=
  s.merges.all (fun n => n.seq == m.seq || !s.mergedBefore n s.focus o s.serial m.dst 32) &&
  s.flits.all fun g => !(g.ownOf s.focus && ((g.path == .a && g.cls == o) || s.sharesByte g.dst g.bytes.length m.dst 32))

/-- A reduction store into a Span reduction window: a switch that holds one of the same address, operation and type merges
the two, where that keeps the order of the cluster's accesses (R212, R222, R223). (DEDUCED, log 26) -/
def State.mergeRed (s : State) (vop : Nat) (t : AtomType) (dst : Loc) (bs : List Byte) (va : Nat) (o : Cls) : State :=
  let me := (s.focus, o, s.serial)
  let fits (m : MergeEntry) : Bool := m.dst == dst && m.vop == vop && m.t == t && !m.forwarded && s.mayMerge m o
  let ms := if s.merges.any fits then
      updFirst fits (fun m => { m with bytes := atomVector vop t m.bytes bs, from_ := m.from_ ++ [me] }) s.merges
    else s.merges ++ [⟨s.serial, dst, vop, t, bs, [me], 0, false⟩]
  { s.carriedOut s.focus 0 .a o va dst bs with merges := ms }.tick

/-- A reduction store (R209): its operand is read as it issues, after the cluster's earlier A-path accesses of its class
(R214, R222), and it is posted. -/
def State.reduce (s : State) (vop : Nat) (a b : Reg) (t : AtomType) (o : Cls) : Result :=
  let va := s.g a
  let vb := (s.g b).toNat
  let own : Loc := .spad s.myCoreIx vb
  .next (match s.vatomCheck .red va (s.g b) none with
    | .error s' => match s.myXlate .red va.toNat with
      | (.refused e, s2) =>
        if va.toNat % 32 = 0 ∧ vb % 32 = 0 ∧ !s.ownSpadBad vb ∧
            (s2.worldOk s.myDieIx s.myCore.secure (s2.physAddr own) 32).1 then
          (s2.logRefused s.myDieIx e va.toNat s.me.lid).advance
        else s'
      | _ => s'
    | .ok (l, s') =>
      if s.me.gated .a o || s.operandWaits o vb || s.logFull s.focus l then s.stall
      else if !(s.badUnits own 32).isEmpty then s'.trapEcu own 32 vb .a false
      else
        let bs := s.peek own 32
        (match l with
          | .span _ _ _ _ =>
            if s'.inFabric va.toNat then s'.mergeRed vop t l bs va.toNat o
            else s'.sendFlit s.focus 0 .a o va.toNat l bs (some (vop, t))
          | _ => s'.sendFlit s.focus 0 .a o va.toNat l bs (some (vop, t))).advance)

/-- REDADD (R209). -/
def execRedadd (a b : Reg) (t : AtomType) (o : Cls) (s : State) : Result := s.reduce 0 a b t o
/-- REDMIN (R209). -/
def execRedmin (a b : Reg) (t : AtomType) (o : Cls) (s : State) : Result := s.reduce 1 a b t o
/-- REDMAX (R209). -/
def execRedmax (a b : Reg) (t : AtomType) (o : Cls) (s : State) : Result := s.reduce 2 a b t o

/-! ### Arrival at a home -/

/-- The answer of another package's exporter to an access over Span: its tables are not this part's, so that it may take the access
or refuse it (R310; DESIGN CHOICE, log 17). -/
def State.spanAnswer (s : State) : Bool × State := (Config.freeBool s.freeCtr, { s with freeCtr := s.freeCtr + 1 })

/-- The place a request reaches when it arrives at its home, or its refusal (R310, R315). (DEDUCED, log 28) -/
def State.arrive (s : State) (l : Loc) (n : Nat) (acc : Acc) (secure : Bool) : Option Loc × State :=
  match l with
  | .peer d rh off => s.exportCheck d rh off n acc secure
  | .host d a => if s.windowOk d a n acc.needsWrite then (some l, s) else (none, s.countWindow d)
  | .span _ _ _ _ => (if s.spanAnswer.1 then some l else none, s.spanAnswer.2)
  | _ => (some l, s)

/-- The world of a cluster's accesses. -/
def State.secureOf (s : State) (c : CluIx) : Bool := (s.core (coreOf c)).secure

/-- A request waits: for earlier posted accesses of its cluster (R222, R223), for accepted writes of its die to the same bytes
(R201, R239), for a tile transfer (R233), and for the links of its way and of its response (R318, R340). -/
def State.requestHeld (s : State) (c : CluIx) (r : Remote) : Bool :=
  let p := match r.kind with | .load _ _ => pathOf .s r.va.toNat | _ => .a
  s.ownPending c p r.cls r.loc r.kind.bytes || s.dieAccepted c r.loc r.kind.bytes ||
  s.bankWait (s.placeOf r.loc) r.kind.bytes || s.wayWaits c r

/-- The cluster's request changed. -/
def State.modRemote (s : State) (c : CluIx) (f : Remote → Remote) : State :=
  s.modCluster c fun x => { x with remote := x.remote.map f }

/-- A request has been answered with some bytes: the response is on its way (R340). -/
def State.answered (s : State) (c : CluIx) (r : Remote) (bs : List Byte) : State :=
  let a := s.answerSent c r bs
  a.2.modRemote c fun r => { r with executed := true, old := bs, resp := a.1 }

/-- A request has been refused, or met uncorrectable data: the response says so (R310, R323, R340). -/
def State.answeredBad (s : State) (c : CluIx) (r : Remote) (cause : Cause) (tval : Word) : State :=
  let a := s.answerSent c r []
  a.2.modRemote c fun r => { r with executed := true, failed := some cause, tval := tval, resp := a.1 }

/-- ATOMIC_EXECUTE (R210, R213): a request is applied once at its execution point, or answered from the tag record, or, where its
number has already been applied, from the send log (R340, R342). -/
def execAtomicExecute (c : CluIx) (s : State) : Result :=
  match (s.cluster c).remote with
  | none => s.stutter
  | some r =>
    match r.kind with
    | .load _ _ => s.stutter
    | _ =>
      if r.executed || s.requestHeld c r || !s.homeReady r.loc then s.stutter
      else .next (match s.loggedAnswer r c with
        | some f => s.modRemote c fun r => { r with executed := true, old := f.bytes, resp := f.link.map fun m => (m, f.num) }
        | none =>
          match (s.die r.loc.point).tagOf c r.tag with
          | some t => s.answered c r t.old
          | none =>
            match s.arrive r.loc r.kind.bytes r.kind.acc (s.secureOf c) with
            | (none, s') => s'.answeredBad c r .prm r.va
            | (some l, s') =>
              match s'.atomApply l r.kind with
              | (.old bs, s'') => (s''.modDie r.loc.point fun x => x.answer ⟨c, r.tag, bs⟩).answered c r bs
              | (.prm, s'') => s''.answeredBad c r .prm r.va
              | (.ecu, s'') => s''.answeredBad c r .ecu (word (r.va.toNat + s'.firstBad l r.kind.bytes - l.addr)))

/-- A cause met when data returns: the word has no effect, and within a bundle SOLO is set (R33, R323). -/
def State.lateTrap (s : State) (c : CluIx) (r : Remote) (cause : Cause) (p : Path) : State :=
  { (s.modCluster c fun x => { x with remote := none }).takeTrap c false r.bundled r.bundled p.code cause r.tval with
    note := .late }

/-- A response cannot yet arrive: its link retrains, or the banks that take a vector atomic's old values are locked by a tile transfer
(R230, R318). -/
def State.responseHeld (s : State) (c : CluIx) (r : Remote) : Bool :=
  (match r.resp with | some (m, _) => (s.link m).retraining | none => false) ||
  match r.kind with
  | .vatomic _ _ _ (some x) => r.failed.isNone && s.bankWait (.spad (coreOf c) x) 32
  | _ => false

/-- ATOMIC_RESPONSE (R213): the response arrives and the atomic commits in its cluster, or its cause is taken. -/
def execAtomicResponse (c : CluIx) (s : State) : Result :=
  match (s.cluster c).remote with
  | none => s.stutter
  | some r =>
    if !r.executed || s.responseHeld c r then s.stutter
    else match r.kind with
      | .load _ _ => s.stutter
      | .atomic _ size _ _ =>
        .next (let s := s.answerTaken c r.resp r.old.length
          match r.failed with
          | some cause => s.lateTrap c r cause (pathOf .a r.va.toNat)
          | none => s.modCluster c fun x =>
            ({ x with remote := none, atag := x.atag + 1 }.setG r.d (atomResult size r.old)).advance)
      | .vatomic _ _ _ old =>
        .next (let s := s.answerTaken c r.resp r.old.length
          match r.failed with
          | some cause => s.lateTrap c r cause .a
          | none =>
            let s' := match old with
              | some x => s.store (.spad (coreOf c) x) r.old (s.cluster c).lid
              | none => s
            s'.modCluster c fun x => { x with remote := none, atag := x.atag + 1 }.advance)

/-- The response of a load leaves its home and arrives (R340). -/
def State.returned (s : State) (c : CluIx) (r : Remote) (bs : List Byte) : State :=
  let a := s.answerSent c r bs
  a.2.answerTaken c a.1 bs.length

/-- LOAD_DATA_RETURN (R323, R310): the data of a load from beyond the die returns; gD is written, or a late cause taken. -/
def execLoadDataReturn (c : CluIx) (s : State) : Result :=
  match (s.cluster c).remote with
  | none => s.stutter
  | some r =>
    match r.kind with
    | .load size signed =>
      let p := pathOf .s r.va.toNat
      if s.requestHeld c r || !s.homeReady r.loc then s.stutter
      else .next (match s.loggedAnswer r c with
        | some f => (s.answerTaken c (f.link.map fun m => (m, f.num)) f.bytes.length).modCluster c fun x =>
            ({ x with remote := none }.setG r.d (extend signed size (leNat (x.overlay r.va.toNat f.bytes)))).advance
        | none =>
          match s.arrive r.loc size .read (s.secureOf c) with
          | (none, s') => (s'.returned c r []).lateTrap c r .prm p
          | (some l, s') =>
            if (s'.badUnits l size).isEmpty then
              ((s'.readDram l size).returned c r (s'.peek l size)).modCluster c fun x =>
                ({ x with remote := none }.setG r.d
                  (extend signed size (leNat (x.overlay r.va.toNat (s'.peek l size))))).advance
            else ((s'.noteUnc l size (s'.cluster c).lid).returned c r []).lateTrap c
              { r with tval := word (r.va.toNat + s'.firstBad l size - l.addr) } .ecu p)
    | _ => s.stutter

/-- A reduction store applied at home (R207, R209, R213, R323): refused, it is dropped and logged; on uncorrectable data
nothing is applied, and the event is counted and logged, with an ECU for a cluster whose record still runs. -/
def State.redHome (s : State) (dst : Loc) (vop : Nat) (t : AtomType) (bs : List Byte) (who : List (CluIx × Nat)) (va : Nat) :
    State :=
  let c := (who.headD (0, 0)).1
  match s.arrive dst 32 .red (s.secureOf c) with
  | (none, s') => s'.logRefused (dieOfClu c) dst.homeDie va (s.cluster c).lid
  | (some l, s') =>
    match s'.badUnits l 32 with
    | [] => s'.store l (atomVector vop t (s'.peek l 32) bs) (s.cluster c).lid
    | _ =>
      let s' := s'.noteUnc l 32 (s.cluster c).lid
      who.foldl (fun acc w =>
        if (acc.die (dieOfClu w.1)).ete ∧ (acc.cluster w.1).runs w.2 then
          acc.modCluster w.1 fun x => x.addPend .ecu (word va) (Path.code .a)
        else acc) s'

/-- What a home makes of a request that a neighbour sends again after a warm reset: an atomic is applied unless its tag is answered, and
a load reads (R213, R342). -/
def State.redo (s : State) (f : Flit) (kind : RemoteKind) (tag : BitVec 6) : List Byte × State :=
  match kind with
  | .load size _ =>
    (match s.arrive f.dst size .read (s.secureOf f.cl) with
      | (some l, s') => (s'.peekPoisoned l size, (s'.noteUnc l size).readDram l size)
      | (none, s') => ([], s'))
  | _ =>
    match (s.die f.dst.point).tagOf f.cl tag with
    | some t => (t.old, s)
    | none =>
      match s.arrive f.dst kind.bytes kind.acc (s.secureOf f.cl) with
      | (none, s') => ([], s')
      | (some l, s') =>
        match s'.atomApply l kind with
        | (.old bs, s'') => (bs, s''.modDie f.dst.point fun x => x.answer ⟨f.cl, tag, bs⟩)
        | (_, s'') => ([], s'')

/-- A replayed request is carried out and answered; its cluster has had the answer and keeps that one (R340, R342). -/
def State.replayRequest (s : State) (f : Flit) (kind : RemoteKind) (tag : BitVec 6) : State :=
  let a := s.redo f kind tag
  match (route f.source (f.dst.gate f.source)).head? with
  | some h =>
    let b := a.2.respond f.cl f.path f.cls f.va (f.dst.gate f.source) h.1 f.first a.1
    (b.2.answerTaken f.cl b.1 a.1.length).dropFlit f
  | none => a.2.dropFlit f

/-- REDUCTION_APPLY_HOME (R212): a reduction store, merged or not, is applied at its home port. -/
def execReductionApplyHome (n : Nat) (s : State) : Result :=
  match s.flits.find? fun f => f.seq = n with
  | some f =>
    match f.red with
    | some (vop, t) =>
      if s.isRepeat f then .next (s.dropFlit f)
      else if !s.flitReady f || !s.homeReady f.dst then s.stutter
      else if f.underway then (if s.onwardFull f then s.stutter else .next (s.flitOnward f))
      else if s.bankWait (s.placeOf f.dst) 32 then s.stutter
      else .next ((s.redHome f.dst vop t f.bytes [(f.cl, f.seq)] f.va).dropFlit f)
    | none => s.stutter
  | none =>
    match s.merges.find? fun m => m.seq = n ∧ m.forwarded with
    | some m =>
      if !s.mergeReady m || s.bankWait (s.placeOf m.dst) 32 then s.stutter
      else .next { s.redHome m.dst m.vop m.t m.bytes (m.from_.map fun x => (x.1, x.2.2)) m.dst.addr with
        merges := s.merges.filter fun x => x.seq != n }
    | none => s.stutter

/-- MERGE_ENTRY_FORWARD (R212): a switch forwards a merge entry to its home. (DEDUCED, log 26) -/
def execMergeEntryForward (n : Nat) (s : State) : Result :=
  .next { s with merges := updFirst (fun m => m.seq == n) (fun m => { m with forwarded := true }) s.merges }

end Sys2Proof.Machine
end

