-- ==== Sys2Proof/Machine/Rings.lean ====
section
/-!
DEFINITION. Rings: the ring objects of a core, the acts of clusters and engines on them, and the ring instructions
(R89 to R94).
-/

namespace Sys2Proof.Machine

/-- EN (R90). -/
def Ring.enabled (r : Ring) : Bool := bit r.cfg 0
/-- COUNT = 2^CNTL (R90). -/
def Ring.count (r : Ring) : Nat := 2 ^ bits r.cfg 23 4
/-- SIZE = 128 x SLOTS (R90). -/
def Ring.size (r : Ring) : Nat := 128 * bits r.cfg 27 13
/-- BASE (R90). -/
def Ring.base (r : Ring) : Nat := bits r.cfg 40 24
/-- The slot a sequence occupies (R89). -/
def Ring.slot (r : Ring) (n : BitVec 16) : Nat := n.toNat % r.count
/-- The byte address of a sequence's slot (R89). -/
def Ring.addr (r : Ring) (n : BitVec 16) : Nat := r.base + r.slot n * r.size

/-- The operand of RCFG obeys R90. -/
def ringCfgOk (cap : Nat) (w : Word) : Bool :=
  if bit w 0 then
    let r : Ring := { Ring.reset with cfg := w }
    bits w 1 22 == 0 && bits w 27 13 != 0 && bits w 23 4 ≤ 8 && r.base % 128 == 0 && r.base + r.size * r.count ≤ cap
  else w == 0

/-- A slot is free to be claimed: CLM - TAIL < COUNT (R91). -/
def Ring.hasFree (r : Ring) : Bool := (r.clm - r.tail).toNat < r.count

/-- A sequence lies in TAIL to TAIL + COUNT - 1 (R91 RAWAIT). -/
def Ring.inReach (r : Ring) (n : BitVec 16) : Bool := (n - r.tail).toNat < r.count

/-- A sequence in reach is filled: (HEAD - TAIL) > (n - TAIL) (R91). -/
def Ring.isFilled (r : Ring) (n : BitVec 16) : Bool := r.inReach n && (n - r.tail).toNat < (r.head - r.tail).toNat

/-- A sequence that a command's source names has been filled: it is filled now, or TAIL has passed it since (R142, R229; DEDUCED, log 54: a slot that another agent has released is still the slot the source took). -/
def Ring.wasFilled (r : Ring) (n : BitVec 16) : Bool := r.isFilled n || decide (0x8000 ≤ (n - r.tail).toNat)

/-- The next sequence is claimed. -/
def Ring.claim (r : Ring) : Ring := { r with clm := r.clm + 1 }

/-- HEAD advances over filled slots, at most COUNT of them. -/
def Ring.runHead : Nat → Ring → Ring
  | 0, r => r
  | n + 1, r =>
    if r.fill.getLsbD (r.slot r.head) then
      Ring.runHead n { r with fill := r.fill &&& ~~~(1#256 <<< r.slot r.head), head := r.head + 1 }
    else r

/-- TAIL advances over released slots. -/
def Ring.runTail : Nat → Ring → Ring
  | 0, r => r
  | n + 1, r =>
    if r.rel.getLsbD (r.slot r.tail) then
      Ring.runTail n { r with rel := r.rel &&& ~~~(1#256 <<< r.slot r.tail), tail := r.tail + 1 }
    else r

/-- A claimed, unfilled sequence may be filled (R91 RFILL). -/
def Ring.canFill (r : Ring) (n : BitVec 16) : Bool :=
  (n - r.head).toNat < (r.clm - r.head).toNat && !r.fill.getLsbD (r.slot n)

/-- A sequence is filled, and HEAD advances over the unbroken run (R91). -/
def Ring.doFill (r : Ring) (n : BitVec 16) : Ring := Ring.runHead 256 { r with fill := r.fill ||| 1#256 <<< r.slot n }

/-- A filled, unreleased sequence may be released (R91 RREL). -/
def Ring.canRelease (r : Ring) (n : BitVec 16) : Bool :=
  (n - r.tail).toNat < (r.head - r.tail).toNat && !r.rel.getLsbD (r.slot n)

/-- A sequence is released, and TAIL advances over the unbroken run (R91). -/
def Ring.doRelease (r : Ring) (n : BitVec 16) : Ring := Ring.runTail 256 { r with rel := r.rel ||| 1#256 <<< r.slot n }

/-- The sequence among `from_`, `from_` + 1, ..., n of them, whose slot lies at an address. -/
def Ring.seqAt (r : Ring) (a : Word) (from_ : BitVec 16) (n : Nat) : Option (BitVec 16) :=
  ((List.range n).map fun i => from_ + BitVec.ofNat 16 i).find? fun q => word (r.addr q) = a

/-! ### Rings of a core -/

/-- Ring k of a core. -/
def Core.ring (x : Core) (k : Nat) : Ring := vget x.rings k Ring.reset

/-- Ring k of a core changed. -/
def Core.modRing (x : Core) (k : Nat) (f : Ring → Ring) : Core := { x with rings := vset x.rings k (f (x.ring k)) }

/-- A waiter still waits: a cluster whose wait has not ended, or an engine with a command. -/
def State.stillWaits (s : State) (k : CoreIx) : RingWaiter → Bool
  | .cluster c n => (s.cluster c).since == n
  | .engine e => !(vget (s.core k).ce e Engine.reset).queue.isEmpty

/-- Ring r of core k has a free slot for a requester, behind which no earlier waiter stands (R93). -/
def State.ringGrants (s : State) (k : CoreIx) (r : Nat) (who : Option RingWaiter) : Bool :=
  let x := (s.core k).ring r
  x.hasFree && (match (x.waiters.filter (s.stillWaits k)).head? with
    | none => true
    | some w => some w == who)

/-- Ring r of core k has a free slot beyond those that its waiters are about to take (R91, R93). -/
def State.ringSpare (s : State) (k : CoreIx) (r : Nat) : Bool :=
  let x := (s.core k).ring r
  decide ((x.clm - x.tail).toNat + (x.waiters.filter (s.stillWaits k)).length < x.count)

/-- The next slot of a ring claimed for a requester; answers its sequence (R91). -/
def State.ringClaim (s : State) (k : CoreIx) (r : Nat) (who : Option RingWaiter) : BitVec 16 × State :=
  (((s.core k).ring r).clm, s.modCore k fun x => x.modRing r fun q =>
    { q.claim with waiters := q.waiters.filter fun w => some w != who && s.stillWaits k w })

/-- A slot is filled by an engine (R142, R190); a sequence that cannot be filled is left alone. -/
def State.ringFill (s : State) (k : CoreIx) (r : Nat) (n : BitVec 16) : State :=
  s.modCore k fun x => x.modRing r fun q => if q.canFill n then q.doFill n else q

/-- A slot is released by an engine; a sequence no longer filled and unreleased is ignored (R142). -/
def State.ringRelease (s : State) (k : CoreIx) (r : Nat) (n : BitVec 16) : State :=
  s.modCore k fun x => x.modRing r fun q => if q.canRelease n then q.doRelease n else q

/-- The number of the wait of the cluster that issues, which begins now where it has none yet. -/
def State.waitNumber (s : State) : Nat × State :=
  if s.me.since ≠ 0 then (s.me.since, s)
  else
    let n := s.serial + 1
    (n, (s.modMe fun c => { c with since := n }).tick)

/-- The cluster that issues enters a ring's queue of waiters, once, and waits (R93). -/
def State.ringWait (s : State) (r : Nat) : State :=
  let w := s.waitNumber
  let me : RingWaiter := .cluster s.focus w.1
  let ahead := (s.myCore.ring r).waiters.filter (s.stillWaits s.myCoreIx)
  if ahead.contains me then s.stall
  else (w.2.modMyCore fun x => x.modRing r fun q => { q with waiters := ahead ++ [me] }).stall

/-- The waiter that stands for the cluster that issues. -/
def State.myWaiter (s : State) : Option RingWaiter :=
  if s.me.since = 0 then none else some (.cluster s.focus s.me.since)

/-- A queued engine command of the core names ring r (R91 RCFG). -/
def State.ringNamed (s : State) (k : CoreIx) (r : Nat) : Bool :=
  let names (q : Option RingRef) : Bool := match q with | some x => x.k == r | none => false
  let x := s.core k
  x.vq.any (fun c => names c.dring || names c.aring || names c.bring) ||
  x.ce.toList.any (fun e => e.queue.any fun c =>
    match c.nest with | some n => n.rm != 0 && n.ring == r && !c.finished | none => false) ||
  (let l := (s.die (dieOf k)).lanes
   !isHub (dieOf k) && (l.buf ++ l.live ++ l.tail).any fun m => names m.dring)

/-! ### The instructions (R91, R92) -/

/-- The paths whose data ring instructions cover after a FENCE: V, M and C (R94). -/
def ringPaths : BitVec 6 := 0b001110
/-- RNG with a reason of R92. -/
def State.trapRng (s : State) (reason : Word) : State := s.trap .rng reason

/-- RCFG (R91). -/
def execRcfg (k : BitVec 6) (a : Reg) (s : State) : Result :=
  let w := s.g a
  let r := s.myCore.ring k.toNat
  .next (
    if !ringCfgOk (spadBytes s.myCoreIx) w then s.trapRng 2
    else if r.clm ≠ r.tail ∨ s.ringNamed s.myCoreIx k.toNat then s.trapRng 3
    else (s.modMyCore fun x => x.modRing k.toNat fun q => { Ring.reset with cfg := w, waiters := q.waiters }).advance)

/-- RSTAT (R91): CLM, HEAD, TAIL and EN; it works on a disabled ring. -/
def execRstat (d : Reg) (k : BitVec 6) (s : State) : Result :=
  let r := s.myCore.ring k.toNat
  .next (s.finish d (packWord [(48, r.clm.toNat), (32, r.head.toNat), (16, r.tail.toNat), (0, flagNat r.enabled)]))

/-- A slot claimed for the cluster that issues, its address in gD (R91). -/
def State.claimSlot (s : State) (d : Reg) (k : Nat) : State :=
  let r := s.myCore.ring k
  (s.ringClaim s.myCoreIx k s.myWaiter).2.finish d (word (r.addr r.clm))

/-- RCLAIM (R91, R93). -/
def execRclaim (d : Reg) (k : BitVec 6) (s : State) : Result :=
  .next (
    if !(s.myCore.ring k.toNat).enabled then s.trapRng 1
    else if s.ringGrants s.myCoreIx k.toNat s.myWaiter then s.claimSlot d k.toNat
    else s.ringWait k.toNat)

/-- RCLAIMT (R91): all ones when no slot is free, those that earlier waiters take apart (R93). -/
def execRclaimt (d : Reg) (k : BitVec 6) (s : State) : Result :=
  .next (
    if !(s.myCore.ring k.toNat).enabled then s.trapRng 1
    else if s.ringSpare s.myCoreIx k.toNat then s.claimSlot d k.toNat
    else s.finish d allOnes)

/-- RFILL (R91, R94): it performs after every earlier S and A access of the cluster has performed at CORE, and after what earlier
FENCEs cover of its vector, matrix and copy commands. -/
def execRfill (k : BitVec 6) (a : Reg) (s : State) : Result :=
  let r := s.myCore.ring k.toNat
  .next (
    if !r.enabled then s.trapRng 1
    else match r.seqAt (s.g a) r.head (r.clm - r.head).toNat with
      | some n =>
        if !r.canFill n then s.trapRng 4
        else if s.postedAt s.focus false || s.me.fenceOpen ringPaths then s.stall
        else (s.modMyCore fun x => x.modRing k.toNat fun q => q.doFill n).advance
      | none => s.trapRng 4)

/-- RAWAIT and RAWAITT on a sequence that is filled, is not, or is out of reach (R91, R92).  A wait that has begun ends though the
sequence has been released since: it has been filled. -/
def State.awaitSlot (s : State) (d : Reg) (k : Nat) (n : BitVec 16) (otherwise : State) : State :=
  let r := s.myCore.ring k
  if !r.enabled then s.trapRng 1
  else if !r.inReach n then
    (if s.me.waiting && (r.tail - n).toNat < 2 ^ 15 then s.finish d (word (r.addr n)) else s.trapRng 5)
  else if r.isFilled n then s.finish d (word (r.addr n))
  else otherwise

/-- RAWAIT (R91). (DEDUCED, log 54) -/
def execRawait (d : Reg) (k : BitVec 6) (a : Reg) (s : State) : Result :=
  .next (s.awaitSlot d k.toNat ((s.g a).setWidth 16) s.stall)

/-- RAWAITT (R91): all ones instead of waiting. -/
def execRawaitt (d : Reg) (k : BitVec 6) (a : Reg) (s : State) : Result :=
  .next (s.awaitSlot d k.toNat ((s.g a).setWidth 16) (s.finish d allOnes))

/-- RREL (R91, R94): it performs after what earlier FENCEs cover of the cluster's vector, matrix and copy commands. -/
def execRrel (k : BitVec 6) (a : Reg) (s : State) : Result :=
  let r := s.myCore.ring k.toNat
  .next (
    if !r.enabled then s.trapRng 1
    else match r.seqAt (s.g a) r.tail (r.head - r.tail).toNat with
      | some n =>
        if !r.canRelease n then s.trapRng 6
        else if s.me.fenceOpen ringPaths then s.stall
        else (s.modMyCore fun x => x.modRing k.toNat fun q => q.doRelease n).advance
      | none => s.trapRng 6)

end Sys2Proof.Machine
end

