-- ==== Sys2Proof/Machine/VecArith.lean ====
section
/-!
DEFINITION. VecArith: element by element arithmetic of the vector unit, its conversions and its reductions (R101, R107 to R113,
R125, R147 to R152).
-/

namespace Sys2Proof.Machine

/-! ### Element types -/

/-- The float format of an element type (R101). -/
def elemFmt : ElemType → Option Fmt
  | .f32 => some fmtF32 | .bf16 => some fmtBF16 | .f16 => some fmtF16 | .e4m3 => some fmtE4M3 | .e5m2 => some fmtE5M2
  | _ => none

/-- Sign and bits of an integer element type (R107). -/
def elemInt : ElemType → Option (Bool × Nat)
  | .s8 => some (true, 8) | .s16 => some (true, 16) | .s32 => some (true, 32)
  | .n8 => some (false, 8) | .n16 => some (false, 16) | .n32 => some (false, 32)
  | _ => none

/-- An integer code's value. -/
def intValue (signed : Bool) (k c : Nat) : Int := if signed then sextNat c k else nbits c 0 k

/-- The code of an integer modulo 2^k (R107). -/
def intCode (k : Nat) (x : Int) : Nat := (x % 2 ^ k).toNat

/-- The value of an element as a number, float or integer. -/
def elemNum (t : ElemType) (c : Nat) : Num :=
  match elemFmt t, elemInt t with
  | some f, _ => f.decode c
  | none, some (sg, k) => let v := intValue sg k c; .fin (v < 0) v.natAbs 0
  | none, none => .nan false

/-- Element i of an immediate (R113). -/
def immElem (t : ElemType) (imm i : Nat) : Nat :=
  match t with
  | .f32 => imm * 2 ^ 16
  | .e4m3 | .e5m2 | .s8 | .n8 => if i % 2 = 0 then nbits imm 0 8 else nbits imm 8 8
  | .s32 => intCode 32 (sextNat imm 16)
  | _ => imm

/-! ### Elementwise operations (R147, R148, R151, R152) -/

/-- The least code of a float with its sign changed or cleared; a NaN becomes canonical (R147). -/
def signOp (f : Fmt) (op : VecOp) (a : Nat) : Rounded :=
  match f.decode a with
  | .nan s => f.nanR (flagIf s flagNV)
  | x => ⟨match op with
      | .abs => a % 2 ^ (f.w + f.m)
      | _ => if x.sign then a - f.signBit true else a + f.signBit true, 0⟩

/-- The function of R148 an operation names. -/
def VecOp.fn : VecOp → Option FloatFn
  | .exp => some .exp | .log => some .log | .rcp => some .rcp | .rsqrt => some .rsqrt | .tanh => some .tanh
  | .sigm => some .sigm | _ => none

/-- A number times 2^n. -/
def Num.scale (x : Num) (n : Int) : Num :=
  match x with
  | .fin g m e => .fin g m (e + n)
  | y => y

/-- A float element operation; for VSCALE, b holds the immediate (R147, R148). -/
def floatElem (f : Fmt) (op : VecOp) (a b d : Nat) : Rounded :=
  let x := f.decode a
  match op with
  | .add => f.add x (f.decode b)
  | .sub => f.sub x (f.decode b)
  | .mul => f.mul x (f.decode b)
  | .mac => f.fma x (f.decode b) (f.decode d)
  | .min => f.minMax false a b
  | .max => f.minMax true a b
  | .abs | .neg => signOp f op a
  | .scale => f.ofNum false (x.scale (sextNat b 8))
  | _ => match op.fn with
    | some fn => f.fn fn x
    | none => ⟨a, 0⟩

/-- An integer element operation, wrapping or saturating (R147, R107). -/
def intElem (sg : Bool) (k : Nat) (sat : Bool) (op : VecOp) (a b d : Nat) : Nat :=
  let x := intValue sg k a
  let y := intValue sg k b
  let r := match op with
    | .add => x + y
    | .sub => x - y
    | .mul => x * y
    | .mac => x * y + intValue sg k d
    | .min => min x y
    | .max => max x y
    | .abs => (x.natAbs : Int)
    | .neg => -x
    | _ => x
  intCode k (if sat then clampInt (intRange sg k) r else r)

/-- The order of two elements: whether a < b and whether a = b, with the invalid flag of a compare (R151, R81). -/
def elemCmp (t : ElemType) (ordered : Bool) (a b : Nat) : Bool × Bool × Flags :=
  let x := elemNum t a
  let y := elemNum t b
  (x.lt y, x.eq y, cmpFlags ordered x y)

/-- A mask element (R151). -/
def maskElem (size : Nat) (b : Bool) : Nat := if b then 2 ^ (8 * size) - 1 else 0

/-- A shift of an integer element (R151). -/
def shiftElem (sg : Bool) (k : Nat) (left : Bool) (a b : Nat) : Nat :=
  let c := nbits b 0 6
  if left then (if k ≤ c then 0 else intCode k ((a <<< c : Nat) : Int))
  else intCode k ((intValue sg k a).shiftRight c)

/-- One element of a vector command: destination code and flags (R147, R148, R151, R152). -/
def vecElem (op : VecOp) (t : ElemType) (sat : Bool) (a b d : Nat) : Rounded :=
  let size := elemBytes t
  match op with
  | .cmpeq => let r := elemCmp t false a b; ⟨maskElem size r.2.1, r.2.2⟩
  | .cmplt => let r := elemCmp t true a b; ⟨maskElem size r.1, r.2.2⟩
  | .cmple => let r := elemCmp t true a b; ⟨maskElem size (r.1 || r.2.1), r.2.2⟩
  | .sel => ⟨if d != 0 then a else b, 0⟩
  | .and => ⟨a &&& b, 0⟩
  | .or => ⟨a ||| b, 0⟩
  | .xor => ⟨a ^^^ b, 0⟩
  | .copy | .fill => ⟨a, 0⟩
  | _ =>
    match elemFmt t, elemInt t with
    | some f, _ => floatElem f op a b d
    | none, some (sg, k) =>
      (match op with
        | .shl => ⟨shiftElem sg k true a b, 0⟩
        | .shr => ⟨shiftElem sg k false a b, 0⟩
        | _ => ⟨intElem sg k sat op a b d, 0⟩)
    | none, none => ⟨a, 0⟩

/-! ### Conversions (R109, R112, R149) -/

/-- A number converted into an element type other than MXI8 and BPN (R112).  A conversion between integers raises no flags. -/
def convNum (t : ElemType) (rtz : Bool) (fromInt : Bool) (x : Num) : Rounded :=
  match elemFmt t, elemInt t with
  | some f, _ => f.ofNum rtz x
  | none, some (sg, k) =>
    let r := x.toInt sg k rtz
    ⟨intCode k r.1, if fromInt then 0 else r.2⟩
  | none, none => ⟨0, 0⟩

/-- Element values of an MXINT8 block of 32: scale byte last (R108). -/
def mxNums (block : List Byte) : List Num :=
  let x := (block.getD 32 0).toNat
  (block.take 32).map fun c =>
    if x = 255 then .nan false else let v := c.toInt; .fin (v < 0) v.natAbs ((x : Int) - 127 - 6)

/-- floor(log2 |x|) of a finite number that is not zero. -/
def Num.log2 : Num → Int
  | .fin _ m e => (m.log2 : Int) + e
  | _ => 0

/-- A block of numbers converted to MXINT8: element bytes, then the scale byte (R109). -/
def mxEncode (rtz : Bool) (xs : List Num) : List Byte × Flags :=
  if xs.any (fun x => !x.isFinite) then
    (xs.map (fun _ => 0) ++ [0xFF], flagIf (xs.any Num.signals) flagNV)
  else if xs.all Num.isZero then (xs.map (fun _ => 0) ++ [0x7F], 0)
  else
    let logs := (xs.filter fun x => !x.isZero).map Num.log2
    let e := clampInt (-127, 127) (logs.foldl max (logs.headD 0))
    let rs := xs.map fun x => match x with
      | .fin g m q => let r := roundInt rtz g m (q + 6 - e); (clampInt (-127, 127) r.1, r.2 || clampInt (-127, 127) r.1 != r.1)
      | _ => (0, false)
    (rs.map (fun r => BitVec.ofInt 8 r.1) ++ [BitVec.ofInt 8 (e + 127)], flagIf (rs.any (·.2)) flagNX)

/-! ### Reductions (R125, R150) -/

/-- One level of the tree: neighbours meet, and a single child passes. -/
def treeLevel (f : W32 → W32 → W32 × Flags) : List W32 → List W32 × Flags
  | a :: b :: rest =>
    let r := f a b
    let t := treeLevel f rest
    (r.1 :: t.1, r.2 ||| t.2)
  | xs => (xs, 0)

/-- The whole tree, at most `fuel` levels; no value gives +0. -/
def treeReduce (f : W32 → W32 → W32 × Flags) : Nat → List W32 → W32 × Flags
  | _, [] => (0, 0)
  | 0, x :: _ => (x, 0)
  | n + 1, x :: xs =>
    if xs.isEmpty then (x, 0)
    else
      let l := treeLevel f (x :: xs)
      let r := treeReduce f n l.1
      (r.1, l.2 ||| r.2)

/-- The F32 maximum of a tree node (R125). -/
def maxF32 (a b : W32) : W32 × Flags := let r := fmtF32.minMax true a.toNat b.toNat; (r.w32, r.flags)

/-- An element as an operand of a reduction: widened, or rounded from an integer (R125). -/
def redElem (t : ElemType) (c : Nat) : W32 × Flags := let r := fmtF32.ofNum false (elemNum t c); (r.w32, r.flags)

/-- An element of VDOT (R150). -/
def dotElem (t : ElemType) (a b : Nat) : W32 × Flags :=
  let r := fmtF32.close ((elemNum t a).mul (elemNum t b)); (r.w32, r.flags)

/-- OR of flags. -/
def orFlags (fs : List Flags) : Flags := fs.foldl (· ||| ·) 0

/-- The reduction of the active elements (R125, R150): the code written, 32 bits, and flags. -/
def vecReduce (op : VecOp) (t : ElemType) (as bs : List Nat) : Rounded :=
  match op, elemInt t with
  | .sum, some (sg, k) => ⟨intCode 32 ((as.map (intValue sg k)).foldl (· + ·) 0), 0⟩
  | _, _ =>
    let es : List (W32 × Flags) := match op with
      | .dot => (List.zip as bs).map fun p => dotElem t p.1 p.2
      | _ => as.map (redElem t)
    let r := treeReduce (match op with | .rmax => maxF32 | _ => addF32) 17 (es.map (·.1))
    ⟨r.1.toNat, r.2 ||| orFlags (es.map (·.2))⟩

end Sys2Proof.Machine
end

