-- ==== Sys2Proof/Machine/Ranges.lean ====
section
/-!
DEFINITION. Ranges: the bytes each engine command touches, and the range checker of a core (R136 to R143, R163 to R168,
R181 to R191, R228, R229).
-/

namespace Sys2Proof.Machine

/-! ### Shapes of vector operands (R136 to R138) -/

/-- n elements of `size` bytes, element i at base + i x step. -/
structure Shape where
  base : Int
  n : Nat
  step : Int
  size : Nat
  deriving DecidableEq, Repr

/-- The least and greatest offsets of i x step for i below n. -/
def spanOf (n : Nat) (step : Int) : Int × Int :=
  let e := ((n - 1 : Nat) : Int) * step
  (min 0 e, max 0 e)

/-- The lowest byte of a shape, and the byte after its highest. -/
def Shape.span (x : Shape) : Int × Int :=
  let r := spanOf x.n x.step
  (x.base + r.1, x.base + r.2 + x.size)

/-- The address of element i. -/
def Shape.at (x : Shape) (i : Nat) : Int := x.base + i * x.step

/-- Two shapes share a byte. -/
def Shape.meets (x y : Shape) : Bool :=
  let a := x.span
  let b := y.span
  a.1 < b.2 && b.1 < a.2 &&
    (List.range x.n).any fun i => (List.range y.n).any fun j =>
      x.at i < y.at j + y.size && y.at j < x.at i + x.size

/-- COUNT (R136). -/
def vCount (ga : Word) : Nat := bits ga 24 16
/-- STRIDE (R136). -/
def vStride (ga : Word) : Int := sextNat (bits ga 8 16) 16
/-- DBASE (R136). -/
def vDbase (ga : Word) : Nat := bits ga 40 24
/-- S1BASE (R136). -/
def vS1base (gb : Word) : Nat := bits gb 40 24
/-- S2BASE (R136). -/
def vS2base (gb : Word) : Nat := bits gb 16 24
/-- The flags RDST, RSA, RSB, REL, P, Z, SAT by bit (R136). -/
def vFlag (ga : Word) (i : Nat) : Bool := bit ga i

/-- A reduction (R150). -/
def VecOp.isRed : VecOp → Bool
  | .sum | .rmax | .dot => true
  | _ => false

/-- A conversion (R149). -/
def VecOp.isCvt : VecOp → Bool
  | .cvt | .cvtz => true
  | _ => false

/-- The operation has a second source, unless it takes an immediate. -/
def VecOp.hasTwo : VecOp → Bool
  | .add | .sub | .mul | .mac | .min | .max | .dot | .cmpeq | .cmplt | .cmple | .sel | .and | .or | .xor | .shl | .shr => true
  | _ => false

/-- The operation reads its destination (R143). -/
def VecOp.readsDst : VecOp → Bool
  | .mac | .sel => true
  | _ => false

/-- The first source is used: not by VFILL.I (R152). -/
def usesFirst (op : VecOp) (imm : Bool) : Bool := !(op == .fill && imm)

/-- The second source is used. -/
def usesSecond (op : VecOp) (imm : Bool) : Bool := op.hasTwo && !imm

/-- The destination type of a conversion, by its code in gB[19:16] (R149). -/
def cvtType (gb : Word) : Option ElemType := elemOfCode (bits gb 16 4)

/-- An operand of MXI8 is a run of blocks of 33 bytes (R149). -/
def operandShape (t : ElemType) (base : Int) (n : Nat) (stride : Int) : Shape :=
  match t with
  | .mxi8 => ⟨base, n / 32, 33, 33⟩
  | _ => ⟨base, n, stride * elemBytes t, elemBytes t⟩

/-- The shape of a destination at an address (R138, R149, R150, R152). -/
def dstShape (op : VecOp) (t : ElemType) (ga gb : Word) (base : Int) : Shape :=
  let n := vCount ga
  if op.isRed then ⟨base, 1, 0, 4⟩
  else match op with
    | .pred => ⟨base, 1, 0, ceilDiv n 8⟩
    | .cvt | .cvtz => operandShape ((cvtType gb).getD t) base n (vStride ga)
    | _ => operandShape t base n (vStride ga)

/-- The shape of a source at an address; VFILL reads element 0 alone (R152). -/
def srcShape (op : VecOp) (t : ElemType) (ga : Word) (base : Int) : Shape :=
  match op with
  | .fill => ⟨base, 1, 0, elemBytes t⟩
  | _ => operandShape t base (vCount ga) (vStride ga)

/-- The predicate mask (R138). -/
def maskShape (ga gb : Word) : Shape := ⟨(bits gb 0 16 * 256 : Nat), 1, 0, ceilDiv (vCount ga) 8⟩

/-! ### Envelopes -/

/-- A range of scratchpad bytes, from lo up to hi. -/
abbrev Env := Nat × Nat

/-- Two ranges share a byte. -/
def envMeets (x y : Env) : Bool := x.1 < y.2 && y.1 < x.2

/-- The envelope of a shape. -/
def Shape.env (x : Shape) : Env := (x.span.1.toNat, x.span.2.toNat)

/-- What a command presents to the range checker (R228): writes, reads, and ring sources with their ring, sequence and place. -/
structure Entry where
  seq : Nat
  writes : List Env
  reads : List Env
  rings : List (RingRef × Bool × Env)
  exempt : Exempt
  deriving DecidableEq, Repr

/-- The envelopes of a vector or Horizon command (R143, R158, R160). -/
def VCmd.entry (c : VCmd) : Entry :=
  match c.kind with
  | .vec op imm t =>
    let d := (dstShape op t c.ga c.gb c.dst).env
    let s1 := (srcShape op t c.ga c.s1).env
    let s2 := (srcShape op t c.ga c.s2).env
    { seq := c.seq, exempt := c.exempt, writes := [d]
      reads := (if usesFirst op imm && c.aring.isNone then [s1] else []) ++
        (if usesSecond op imm && c.bring.isNone then [s2] else []) ++
        (if vFlag c.ga 3 then [(maskShape c.ga c.gb).env] else []) ++ (if op.readsDst then [d] else [])
      rings := (match c.aring with | some r => [(r, false, s1)] | none => []) ++
        (match c.bring with | some r => [(r, true, s2)] | none => []) }
  | .push _ fromReg =>
    { seq := c.seq, exempt := c.exempt, writes := [], rings := []
      reads := if fromReg then [] else [(bits c.ga 0 24, bits c.ga 0 24 + 4)] }
  | .result _ => { seq := c.seq, exempt := c.exempt, writes := [(bits c.ga 0 24, bits c.ga 0 24 + 4)], reads := [], rings := [] }

/-! ### The planes of the matrix engine (R163, R164) -/

/-- Register i of a plane. -/
def planeReg (p : Vector Word 32) (i : Nat) : Word := vget p i 0

/-- A nest as a plane and an index table describe it (R163, R164). -/
structure MxNest where
  ctl : Word
  tm : Nat
  tn : Nat
  tk : Nat
  trips : List Nat
  astr : List Int
  bstr : List Int
  cstr : List Int
  abase : Nat
  bbase : Nat
  cbase : Nat
  arstr : Nat
  brstr : Nat
  crstr : Nat
  rows : List Nat
  deriving DecidableEq, Repr

/-- BSRC (R164). -/
def MxNest.bsrc (n : MxNest) : Bool := bit n.ctl 20
/-- SCL (R164). -/
def MxNest.scl (n : MxNest) : Nat := bits n.ctl 18 2
/-- INIT (R164). -/
def MxNest.init (n : MxNest) : Bool := bit n.ctl 16
/-- ST (R164). -/
def MxNest.st (n : MxNest) : Bool := bit n.ctl 15
/-- KL (R164). -/
def MxNest.kl (n : MxNest) : Nat := bits n.ctl 12 3
/-- ATYPE, BTYPE and CTYPE; a code of no type stands as S8 until MXGO refuses it. -/
def MxNest.atype (n : MxNest) : ElemType := (elemOfCode (bits n.ctl 0 4)).getD .s8
/-- See `atype`. -/
def MxNest.btype (n : MxNest) : ElemType := (elemOfCode (bits n.ctl 4 4)).getD .s8
/-- See `atype`. -/
def MxNest.ctype (n : MxNest) : ElemType := (elemOfCode (bits n.ctl 8 4)).getD .s8

/-- The row index m of an index table (R163). -/
def tableRow (t : Vector (BitVec 16) 128) (m : Nat) : Nat := (vget t m 0).toNat

/-- The nest of a plane (R163, R164). -/
def mxNest (p : Vector Word 32) (t : Vector (BitVec 16) 128) : MxNest :=
  let r := planeReg p
  let tm := bits (r 1) 0 8 + 1
  let steps (i : Nat) : List Int := (iota i 6).map fun j => sextNat (bits (r j) 0 32) 32
  { ctl := r 0, tm := tm, tn := bits (r 1) 8 8 + 1, tk := 32 * (bits (r 1) 16 4 + 1)
    trips := (iota 2 6).map fun i => bits (r i) 0 11
    astr := steps 8, bstr := steps 14, cstr := steps 20
    abase := bits (r 26) 0 48, bbase := bits (r 27) 0 (if bit (r 0) 20 then 32 else 48), cbase := bits (r 28) 0 48
    arstr := bits (r 29) 0 32, brstr := bits (r 29) 32 32, crstr := bits (r 30) 0 32
    rows := (List.range (min tm 128)).map fun m => if bit (r 0) 17 then tableRow t m else m }

/-- The offsets that steps over trip counts reach, least and greatest. -/
def stepSpan (steps : List Int) (trips : List Nat) : Int × Int :=
  (List.zip steps trips).foldl (fun acc p => let r := spanOf p.2 p.1; (acc.1 + r.1, acc.2 + r.2)) (0, 0)

/-- The bytes of an operand over the whole nest, from lo up to hi (R168). -/
def nestSpan (base : Nat) (steps : List Int) (trips : List Nat) (lo hi : Nat) : Int × Int :=
  let r := stepSpan steps trips
  ((base : Int) + r.1 + lo, (base : Int) + r.2 + hi)

/-- The envelope of A (R165, R168). -/
def MxNest.aSpan (n : MxNest) : Int × Int :=
  let lo := n.rows.foldl min (n.rows.headD 0)
  let hi := n.rows.foldl max 0
  nestSpan n.abase n.astr n.trips (lo * n.arstr) (hi * n.arstr + n.tk * elemBytes n.atype)

/-- The envelope of B, in bytes, or in elements with BSRC = 1 (R165, R168). -/
def MxNest.bSpan (n : MxNest) : Int × Int :=
  nestSpan n.bbase n.bstr n.trips 0 ((n.tk - 1) * n.brstr + n.tn * (if n.bsrc then 1 else elemBytes n.btype))

/-- The envelope of C (R165, R168). -/
def MxNest.cSpan (n : MxNest) : Int × Int :=
  nestSpan n.cbase n.cstr n.trips 0 ((n.tm - 1) * n.crstr + n.tn * elemBytes n.ctype)

/-- The part of a span that lies in the scratchpad window (R168, R191). -/
def windowEnv (r : Int × Int) : List Env :=
  let lo := r.1.toNat
  let hi := min r.2.toNat 0x100_0000
  if lo < hi then [(lo, hi)] else []

/-- The envelopes of a nest that runs or is armed (R168). -/
def nestEntry (l : Launch) (n : MxNest) : Entry where
  seq := l.seq
  exempt := l.exempt
  writes := if n.st then windowEnv n.cSpan else []
  reads := windowEnv n.aSpan ++ (if n.bsrc then [] else windowEnv n.bSpan) ++ (if n.init then windowEnv n.cSpan else [])
  rings := []

/-! ### Copy nests (R181, R182, R187, R191) -/

/-- Bytes written for one innermost copy that reads `run` bytes: narrowed blocks of 66 B, or widened elements (R194). -/
def Nest.outBytes (n : Nest) (run : Nat) : Nat :=
  match n.nar with
  | 1 => 66 * ceilDiv (run / elemBytes ((elemOfCode n.stype).getD .f32)) 64
  | 2 => n.welem * elemBytes ((elemOfCode n.dtype).getD .f32)
  | _ => run

/-- Bytes one innermost copy reaches over in all: the whole of a CPY. -/
def Nest.reach (n : Nest) : Nat := n.total.getD n.run

/-- The steps and trips that move an endpoint; those of a CPY are counted in its reach. -/
def Nest.moves (n : Nest) : List Nat := if n.total.isSome then [] else n.trips

/-- The bytes of the source over the nest (R182). -/
def Nest.srcSpan (n : Nest) : Int × Int := nestSpan n.src n.sstr n.moves 0 n.reach

/-- The bytes of the destination over the nest (R182); in claim mode, of one unit (R190). -/
def Nest.dstSpan (n : Nest) : Int × Int :=
  let steps := if n.rm = 2 then n.dstr.take n.rlv else n.dstr
  nestSpan n.dst steps n.moves 0 (n.outBytes n.reach)

/-- The envelopes of a copy command (R191, R198).  In claim mode it writes the ring's whole slot area until its first unit is
fixed, then the slot of the unit now fixed (R228), and none between a unit that has been filled and the claim of the next (DEDUCED,
log 30).  A block that has been refused leaves no envelope (R189). -/
def Core.copyEntry (k : Core) (cap : Nat) (c : CopyCmd) : Entry :=
  let base : Entry := ⟨c.seq, [], [], [], c.exempt⟩
  match c.nest with
  | some n =>
    let r := k.ring n.ring
    let slots : List Env := match c.unit with
      | some u => [(r.addr u.s, r.addr u.s + r.size)]
      | none => if c.idx.all (· == 0) && !c.finished then [(r.base, r.base + r.size * r.count)] else []
    { base with
      reads := if n.skind = 0 then windowEnv n.srcSpan else []
      writes := if n.dkind ≠ 0 then [] else if n.rm = 2 then slots else windowEnv n.dstSpan }
  | none =>
    match c.kind with
    | .cpyp => { base with writes := if c.finished then [] else [(0, cap)] }
    | .cpnest => { base with reads := [(c.ga.toNat, c.ga.toNat + 128)] }
    | _ => base

/-! ### The range checker (R228, R229) -/

/-- The entry of an MXIDX (R167, R228). -/
def IdxWait.entry (q : IdxWait) : Entry := ⟨q.seq, [], [(q.addr, q.addr + 256)], [], q.exempt⟩

/-- Every entry of a core's range checker. -/
def State.entries (s : State) (k : CoreIx) : List Entry :=
  let x := s.core k
  let m := x.mx
  x.vq.map VCmd.entry ++
  (match m.run with | some l => [nestEntry l (mxNest m.act m.iact)] | none => []) ++
  (match m.armed with | some l => [nestEntry l (mxNest m.shd m.ishd)] | none => []) ++
  m.sqlds.map (fun q => ⟨q.seq, [], [(q.addr, q.addr + 2 * q.left)], [], []⟩) ++
  (match m.idxq with | some q => [q.entry] | none => []) ++
  (x.tiles.filterMap fun t => match t.owner with
    | .drain _ _ => some ⟨t.seq, t.writes.map fun w => (w.1, w.1 + w.2.length), [], [], t.exempt⟩
    | _ => none) ++
  x.ce.toList.flatMap fun e => e.queue.map (x.copyEntry (spadBytes k))

/-- The envelopes of an earlier entry that a later one is judged against: a ring source that was unfilled when the later
entered, or has not been filled since, is left out (R229). -/
def State.liveReads (s : State) (k : CoreIx) (x y : Entry) : List Env :=
  x.reads ++ x.rings.filterMap fun r =>
    if y.exempt.contains (x.seq, r.2.1) || !((s.core k).ring r.1.k).wasFilled r.1.s then none else some r.2.2

/-- Two entries conflict, x the earlier: a shared byte, and one of the two envelopes a write (R228). -/
def State.conflict (s : State) (k : CoreIx) (x y : Entry) : Bool :=
  let ys := y.reads ++ y.rings.map (·.2.2)
  x.writes.any (fun a => y.writes.any (envMeets a) || ys.any (envMeets a)) ||
  (s.liveReads k x y).any fun a => y.writes.any (envMeets a)

/-- The range checker holds an entry: an earlier command that it conflicts with has not completed (R228). -/
def State.held (s : State) (k : CoreIx) (y : Entry) : Bool :=
  (s.entries k).any fun x => x.seq < y.seq && s.conflict k x y

/-- The ring sources of a core's commands that are unfilled now: a command that enters now is never held by them (R229). -/
def State.exemptNow (s : State) (k : CoreIx) : Exempt :=
  (s.core k).vq.flatMap fun c => c.entry.rings.filterMap fun r =>
    if ((s.core k).ring r.1.k).wasFilled r.1.s then none else some (c.seq, r.2.1)

end Sys2Proof.Machine
end

