-- ==== Sys2Proof/Machine/Engine.lean ====
section
/-!
DEFINITION. Engine: how the copy engines and the matrix engine translate and make their accesses, the bytes of tensor-store
objects, and replayable faults (R182, R183, R304, R305, R308 to R311).
-/

namespace Sys2Proof.Machine

/-! ### The bytes of an object (R183, R308) -/

/-- The die physical address of byte y of a lane's share of an object (R308). -/
def Obj.shareAddr (o : Obj) (lane y : Nat) : Nat :=
  Config.lanePhysBase + Config.laneBytes * lane + o.ext.getD (y / 2 ^ 20) 0 * 2 ^ 20 + y % 2 ^ 20

/-- The place of byte b of an object's byte image, and how many bytes follow it there; m lanes (R183, R308). -/
def Obj.piece (o : Obj) (m b : Nat) : Loc × Nat :=
  if o.cls = 1 then
    let rs := o.rowBytes
    let x := b % (rs * 2 ^ o.spl)
    let y := b / (rs * 2 ^ o.spl) * rs + x % rs
    (.dram o.die (o.shareAddr (o.lb + x / rs) y), min (rs - x % rs) (2 ^ 20 - y % 2 ^ 20))
  else
    let r := b % (m * 2 ^ 20)
    let off := 2048 * (r / (2048 * m)) + r % 2048
    (.dram o.die (o.shareAddr (r / 2048 % m) (b / (m * 2 ^ 20) * 2 ^ 20 + off)), 2048 - r % 2048)

/-- The pieces of n bytes of an object from position b, each with its position. -/
def Obj.pieces (o : Obj) (m : Nat) : Nat → Nat → Nat → List (Loc × Nat × Nat)
  | 0, _, _ => []
  | fuel + 1, b, n =>
    if n = 0 then []
    else
      let p := o.piece m b
      let k := max 1 (min n p.2)
      (p.1, k, b) :: o.pieces m fuel (b + k) (n - k)

/-- The exporter's check of a copy into or out of a tensor it exports: checks 2, 3 and 5, PR or PW, and CLS 0 or 1 (R310). -/
def State.exportTensor (s : State) (d : DieIx) (rh : W32) (pos n : Nat) (acc : Acc) (secure : Bool) :
    Option (List (Loc × Nat × Nat)) × State :=
  match s.tableCore d with
  | none => (none, s)
  | some k =>
    match s.localHandle k rh secure with
    | (none, s) => (none, s)
    | (some o, s) =>
      if o.cls ≤ 1 ∧ (!acc.needsRead || o.pr) ∧ (!acc.needsWrite || o.pw) ∧ pos + n ≤ o.imageBytes then
        (some (o.pieces (s.die d).lanesN n pos n), s)
      else (none, s)

/-! ### Reading and writing for a command -/

/-- Bytes read at a list of places for a command of a cluster (R323). -/
def State.readPieces (s : State) (c : CluIx) (seq : Nat) (ps : List (Loc × Nat × Nat)) (path : Path) : List Byte × State :=
  ps.foldl (fun acc p => let r := acc.2.readEngine c seq p.1 p.2.1 p.2.2 path; (acc.1 ++ r.1, r.2)) ([], s)

/-- n bytes of a place read for a copy command: at another home they are checked there (R310, R315). -/
def State.engRead (s : State) (c : CluIx) (seq : Nat) (secure : Bool) (l : Loc) (n va : Nat) : Option (List Byte) × State :=
  match l with
  | .peer d rh off =>
    match s.exportCheck d rh off n .read secure with
    | (some l', s) => let r := s.readEngine c seq l' n va .c; (some r.1, r.2)
    | (none, s) => (none, s)
  | .tensor d rh pos =>
    match s.exportTensor d rh pos n .read secure with
    | (some ps, s) => let r := s.readPieces c seq ps .c; (some r.1, r.2)
    | (none, s) => (none, s)
  | .host d a =>
    if s.windowOk d a n false then (some (s.peek l n), s) else (none, s.countWindow d)
  | .span _ _ _ _ => let r := s.spanAnswer; (if r.1 then some (s.peek l n) else none, r.2)
  | _ => let r := s.readEngine c seq l n va .c; (some r.1, r.2)

/-- The reads that an engine carries beyond its die, each numbered and logged on its way (R340). -/
def State.readsCarried (s : State) (c : CluIx) (agent : Nat) (p : Path) (o : Cls) (ps : List (Loc × Nat × Nat)) : State :=
  ps.foldl (fun acc x => if x.1.isRemote then acc.readCarried c agent p o x.2.2 x.1 x.2.1 else acc) s

/-- Some place of a list is read by a way that must wait (R318, R340). -/
def State.readsWait (s : State) (c : CluIx) (ps : List (Loc × Nat × Nat)) : Bool :=
  ps.any fun x => x.1.isRemote && s.readWaits (dieOfClu c) x.1

/-- Bytes read at a list of places, or the address of the first place that refuses them. -/
def State.engReadAll (s : State) (c : CluIx) (seq : Nat) (secure : Bool) : List (Loc × Nat × Nat) → Except Nat (List Byte) × State
  | [] => (.ok [], s)
  | (l, n, va) :: ps =>
    match s.engRead c seq secure l n va with
    | (none, s) => (.error va, s)
    | (some bs, s) =>
      match s.engReadAll c seq secure ps with
      | (.ok more, s) => (.ok (bs ++ more), s)
      | (.error a, s) => (.error a, s)

/-- A list of bytes cut to the lengths of a list of places. -/
def cutBytes : List (Loc × Nat × Nat) → List Byte → List (Loc × Nat × List Byte)
  | [], _ => []
  | (l, n, va) :: ps, bs => (l, va, bs.take n) :: cutBytes ps (bs.drop n)

/-! ### Translation of an engine's access (R84, R182, R304, R305) -/

/-- What an engine's translation answers. -/
inductive EngX where
  | ok (loc : Loc)
  /-- no cached translation: a walk is needed -/
  | miss
  | xlt
  | prm
  deriving DecidableEq, Repr

/-- The translation of one byte by a core's TLB, or by translations the engine holds; with PTROOT.EN = 0 none translates (R300). -/
def State.engXlate (s : State) (k : CoreIx) (held : List TlbEntry) (user : Bool) (acc : Acc) (va : Nat) : EngX × State :=
  let secure := (s.core k).secure
  let close (x : Xlate × State) : EngX × State :=
    match x with
    | (.ok l, s) => (.ok l, s)
    | (.xlt, s) | (.hole _, s) => (.xlt, s)
    | (.prm, s) | (.refused _, s) => (.prm, s)
  match rangeOf (dieOf k) va with
  | .pages want =>
    if !bit (s.core k).ptroot 0 then (.xlt, s)
    else match (held ++ (s.core k).tlb).find? fun e => e.covers va with
    | some e => close (s.leafCheck k user secure acc want va e.big e.leaf)
    | none => (.miss, s)
  | _ => close (s.xlate k user secure acc va)

/-- What the translation of a run of bytes answers: its pieces, or the first address that fails. -/
inductive EngRun where
  | ok (ps : List (Loc × Nat × Nat))
  | miss (va : Nat)
  | xlt (va : Nat)
  | prm (va : Nat)
  deriving DecidableEq, Repr

/-- Bytes of a run that lie in one 64 KiB page, or below the scratchpad capacity. -/
def runCut (cap va n : Nat) : Nat :=
  let k := min n (2 ^ 16 - va % 2 ^ 16)
  if va < cap ∧ cap < va + k then cap - va else k

/-- The pieces of n bytes from an address, page by page. -/
def State.engPieces (s : State) (k : CoreIx) (held : List TlbEntry) (user : Bool) (acc : Acc) :
    Nat → Nat → Nat → EngRun × State
  | 0, _, _ => (.ok [], s)
  | fuel + 1, va, n =>
    if n = 0 then (.ok [], s)
    else match s.engXlate k held user acc va with
      | (.miss, s) => (.miss va, s)
      | (.xlt, s) => (.xlt va, s)
      | (.prm, s) => (.prm va, s)
      | (.ok l, s) =>
        let m := runCut (spadBytes k) va n
        match s.engPieces k held user acc fuel (va + m) (n - m) with
        | (.ok ps, s) => (.ok ((l, m, va) :: ps), s)
        | r => r

/-- Pages n bytes can touch, as fuel for `engPieces`. -/
def runPages (n : Nat) : Nat := n / 2 ^ 16 + 3

/-! ### Walks and faults of engines (R304, R305) -/

/-- Number of the matrix engine in a walk and a fault record (R305). -/
def mxEng : Nat := 31
/-- The mark of a walk or fault record that no engine waits for any more: its nest has been abandoned, or its engine emptied (R176). -/
def goneEng : Nat := 30

/-- Copy engine e of a core. -/
def Core.engine (x : Core) (e : Nat) : Engine := vget x.ce e Engine.reset

/-- An engine waits for a walk, or for the answer to a fault record. -/
def State.engWaits (s : State) (k : CoreIx) (e : Nat) : Bool :=
  let d := s.die (dieOf k)
  let mine (w : Walk) : Bool := w.core == k && w.eng == e
  (d.walkWait ++ d.walks).any mine || ((s.core k).xfq ++ (s.core k).xfWait).any fun w => mine w.1

/-- An engine's access misses: its walk waits its turn (R304). -/
def State.askWalk (s : State) (k : CoreIx) (e va : Nat) (write : Bool) : State :=
  if s.engWaits k e then s
  else s.modDie (dieOf k) fun d => { d with walkWait := d.walkWait ++ [⟨k, va, write, e⟩] }

/-- Copy engine e of a core changed. -/
def State.modEngine (s : State) (k : CoreIx) (e : Nat) (f : Engine → Engine) : State :=
  s.modCore k fun x => { x with ce := vset x.ce e (f (x.engine e)) }

/-- A copy command stops: the cause is recorded and the queue is held (R189, R192).  CPERR and CPFA keep what they record until another
command stops (DESIGN CHOICE, log 71). -/
def State.holdEngine (s : State) (k : CoreIx) (e : Nat) (cause : Cause) (val : Nat) (va : Nat) : State :=
  s.modEngine k e fun x =>
    { x with
      readAge := none, hold := true, err := some cause, errVal := BitVec.ofNat 32 val
      errClu := match x.queue.head? with | some c => cluNo c.cl | none => 0
      fa := if cause = .xlt ∨ cause = .prm then word va else x.fa
      queue := match x.queue with | c :: cs => { c with flying := false, counts := (0, 0, 0) } :: cs | [] => [] }

/-- The engine goes back to the start of the tile step it is in: what its chunks have added is undone, and the scales they took are taken
again, before those of the queue, which has no room for them (R169, R171; DESIGN CHOICE, log 90). -/
def Matrix.rewind (m : Matrix) : Matrix :=
  if m.chunk = 0 then m
  else { m with chunk := 0, acc := m.stepAcc, flags := m.stepFlags, undone := m.stepSq ++ m.undone }

/-- The matrix engine freezes on a fault at the start of the failing step, whatever froze it before; an engine whose nest has been
abandoned does not (R171, R176, R178). -/
def State.faultMatrix (s : State) (k : CoreIx) (isPrm : Bool) (va : Nat) : State :=
  s.modCore k fun x =>
    if x.mx.run.isNone then x
    else { x with mx := { x.mx.rewind with frozen := true, flt := true, fkind := isPrm, fa := word va, cxFrz := false } }

/-- The index after a list of indices, level 0 first; nothing after the last (R181). -/
def nextIdx : List Nat → List Nat → Option (List Nat)
  | i :: is, t :: ts =>
    if i + 1 < t then some ((i + 1) :: is)
    else match nextIdx is ts with
      | some js => some (0 :: js)
      | none => none
  | _, _ => none

/-- Of a command nothing is left but the landing of its last writes. -/
def CopyCmd.landing (c : CopyCmd) : Bool :=
  c.flying && (match c.nest with | some n => n.rm == 0 && (nextIdx c.idx n.trips).isNone | none => false)

/-- The command an engine works on: the first of its queue but for those, all of other classes, whose last writes alone are on their
way (R180, R243). -/
def workOn : List Cls → List CopyCmd → Option CopyCmd
  | _, [] => none
  | before, c :: cs => if c.landing then workOn (c.cls :: before) cs else if before.contains c.cls then none else some c

/-- A command waits to stop, and nothing more is done for it (R189). -/
def Engine.stops (x : Engine) (c : CopyCmd) : Bool := match x.stopAt with | some q => q.1 == c.seq | none => false

/-- The stop that waits for its command to stand at the head of the queue takes place, or the engine as it is (R189, R192). -/
def State.settleStop (s : State) (k : CoreIx) (e : Nat) : State :=
  let x := (s.core k).engine e
  match x.stopAt, x.queue.head? with
  | some (q, va), some c =>
    if c.seq = q then (s.modEngine k e fun x => { x with stopAt := none }).holdEngine k e .xlt 0 va else s
  | some _, none => s.modEngine k e fun x => { x with stopAt := none }
  | none, _ => s

/-- The command of an engine whose walk or fault is open: the one the engine works on, which is behind a command that has stopped since
(R180, R192). -/
def Engine.walking (x : Engine) : Option CopyCmd := workOn [] (if x.hold then x.queue.drop 1 else x.queue)

/-- An engine stops with XLT at an address: a copy command does when no other stands before it (R189, R171, R192, R305). -/
def State.stopXlt (s : State) (k : CoreIx) (e va : Nat) : State :=
  if e = mxEng then s.faultMatrix k false va
  else if e = goneEng then s
  else (s.modEngine k e fun x =>
    { x with pause := false, stopAt := match x.walking with | some c => some (c.seq, va) | none => x.stopAt }).settleStop k e

/-- Records the fault queue holds (R306 XFQB). -/
def Core.xfSize (x : Core) : Nat := tableSize x.xfqb

/-- A fault record written to the queue's memory (R305). -/
def State.writeFault (s : State) (k : CoreIx) (w : Walk) (level : Nat) : State :=
  let x := s.core k
  let a := tableBase x.xfqb + 16 * (x.xfTail.toNat % x.xfSize)
  let path := if w.eng = mxEng then 2 else 3
  let s := (s.pokePhys (dieOf k) a (packWord [(52, level), (51, flagNat w.write), (48, path), (0, w.va)])).pokePhys (dieOf k) (a + 8)
    (packWord [(32, w.eng), (0, x.xfTail.toNat)])
  s.modCore k fun x => { x with xfTail := x.xfTail + 1, xfq := x.xfq ++ [(w, level)] }

/-- A replayable fault: the engine pauses, and its record is written when the queue has room (R305).  Without a queue it waits. -/
def State.raiseFault (s : State) (k : CoreIx) (w : Walk) (level : Nat) : State :=
  let s := if w.eng = mxEng then s else s.modEngine k w.eng fun x => { x with pause := true }
  if (s.core k).xfq.length < (s.core k).xfSize ∧ (s.core k).xfWait.isEmpty then s.writeFault k w level
  else s.modCore k fun x => { x with xfWait := x.xfWait ++ [(w, level)] }

/-- Waiting faults take the room that an answer has made. -/
def State.drainFaults (s : State) (k : CoreIx) : State :=
  match (s.core k).xfWait with
  | (w, l) :: rest =>
    if (s.core k).xfq.length < (s.core k).xfSize then
      (s.modCore k fun x => { x with xfWait := rest }).writeFault k w l
    else s
  | [] => s

/-- Two misses are on one page: under one table, in one world (R304).  Cores that share a PTROOT share its pages
(DEDUCED, log 56). -/
def State.samePage (s : State) (v w : Walk) : Bool :=
  (s.core v.core).ptroot == (s.core w.core).ptroot && (s.core v.core).secure == (s.core w.core).secure &&
    v.va / 2 ^ 16 == w.va / 2 ^ 16

/-- The walks that a list of joined misses makes. -/
def State.walkCount (s : State) : List Walk → Nat
  | [] => 0
  | w :: ws => s.walkCount ws + if ws.any (s.samePage w) then 0 else 1

/-- WALK_START (R304): the first waiting miss begins its walk when fewer than 64 are in flight, or joins one on its page. -/
def execWalkStart (die : DieIx) (s : State) : Result :=
  let d := s.die die
  match d.walkWait with
  | [] => s.stutter
  | w :: rest =>
    if d.walks.any (s.samePage w) || s.walkCount d.walks < 64 then .next (s.setDie die { d with walkWait := rest, walks := d.walks ++ [w] }) else s.stutter

/-- What a walk ends with, for one of the engines that wait for it (R304, R305). (DEDUCED, log 56) -/
def State.endWalk (s : State) (w : Walk) (r : Walked) : State :=
  if w.eng = goneEng then s else
  match r with
  | .leaf big e =>
    if w.eng = mxEng then
      s.modCore w.core fun x => { x.tlbFill w.va big e with
        mx := { x.mx with xl := ⟨w.va / (if big then 2 ^ 21 else 2 ^ 16), big, e⟩ :: x.mx.xl } }
    else s.modCore w.core fun x => x.tlbFill w.va big e
  | .hole level => s.raiseFault w.core w level
  | .malformed => s.stopXlt w.core w.eng w.va

/-- WALK_COMPLETE (R304): walk n of a die, in order of start, ends, and with it every walk that joined it. -/
def execWalkComplete (die : DieIx) (n : Nat) (s : State) : Result :=
  match (s.die die).walks[n]? with
  | none => s.stutter
  | some w =>
    let same (v : Walk) : Bool := s.samePage v w
    let mine := (s.die die).walks.filter same
    let r := s.walk w.core (s.core w.core).secure w.va
    let s := r.2.modDie die fun d => { d with walks := d.walks.filter fun v => !same v }
    .next (mine.foldl (fun acc v => acc.endWalk v r.1) s)

/-- FAULT_MESSAGE (R305): while unanswered records remain, the message is raised, at most once per 4,096 cycles. -/
def execFaultMessage (core : CoreIx) (s : State) : Result :=
  let x := s.core core
  let due := match x.xfMsg with | some n => 4096 ≤ n | none => true
  if x.xfq.isEmpty || !due then s.stutter
  else .next { s.modCore core fun x => { x with xfMsg := some 0 } with out := s.out ++ [.faultMessage (dieOf core)] }

/-- The head record is answered: HEAD advances, and the answer acts (R305, R306). -/
def State.answerFault (s : State) (k : CoreIx) (act : State → Walk → State) : State :=
  match (s.core k).xfq with
  | [] => s
  | (w, _) :: rest =>
    let s := s.modCore k fun x => { x with xfq := rest, xfHead := x.xfHead + 1, xfAns := none }
    (act s w).drainFaults k

/-- XFRESP_RETRY (R305): FAIL = 0 makes the engine walk again. -/
def execXfrespRetry (core : CoreIx) (s : State) : Result :=
  if (s.core core).xfAns = some false then
    .next (s.answerFault core fun s w =>
      if w.eng = goneEng then s else s.modDie (dieOf core) fun d => { d with walkWait := d.walkWait ++ [w] })
  else s.stutter

/-- XFRESP_FAIL (R305): FAIL = 1 stops the engine with XLT. -/
def execXfrespFail (core : CoreIx) (s : State) : Result :=
  if (s.core core).xfAns = some true then .next (s.answerFault core fun s w => s.stopXlt core w.eng w.va) else s.stutter

/-- ENGINE_FAULT_RESUME (R192, R282): a paused engine whose fault is resolved, and neither whose die nor the home of whose flits
moves a column, goes on and makes its copy again whole. -/
def execEngineFaultResume (core : CoreIx) (e : Nat) (s : State) : Result :=
  let still (d : Option DieIx) : Bool := match d with | some d => (s.die d).mig.isNone | none => true
  if ((s.core core).engine e).pause && !s.engWaits core e && still (some (dieOf core)) &&
      s.flits.all (fun f => !(f.agent == e + 1 && coreOf f.cl == core) || still (some (f.dst.gate f.source))) then .next (s.modEngine core e fun x => { x with pause := false })
  else s.stutter

end Sys2Proof.Machine
end

