-- ==== Sys2Proof/Machine/Narrow.lean ====
section
/-!
DEFINITION. Narrow: the narrow wire format, narrowing and widening of blocks of 64 elements (R114 to R118, R194, R195).
-/

namespace Sys2Proof.Machine

/-- Ones in the binary expansion of a number below 64. -/
def popc6 (n : Nat) : Nat := (List.range 6).foldl (fun acc i => acc + flagNat (nbit n i)) 0

/-- The exact value of a finite number. -/
def Num.dyadic : Num → Dyadic
  | .fin g m e => dyadicOf g m e
  | _ => Dyadic.zero

/-- One element of the rotation of R115: 1/8 of a signed sum, rounded once to F32; a sum of negative zeros
is -0 (R104).  An infinite or NaN operand makes every
element follow the sum of numbers. (DEDUCED, log 35) -/
def rotElem (xs : List Num) (i : Nat) : Num :=
  let terms := ((List.range 64).zip xs).map fun p => if popc6 (i &&& p.1) % 2 = 1 then p.2.neg else p.2
  if terms.all Num.isFinite then
    let d := (terms.map Num.dyadic).foldl Dyadic.add Dyadic.zero
    fmtF32.decode (fmtF32.ofDyadic ⟨d.i, d.e - 3⟩ (terms.all Num.sign)).code
  else
    let s : Num := terms.foldl (fun (acc x : Num) => (acc.add x).1) (.fin false 0 0)
    fmtF32.decode (fmtF32.ofNum false (s.scale (-3))).code

/-- The map of R115. -/
def rotate (xs : List Num) : List Num := (List.range 64).map (rotElem xs)

/-- |x|. -/
def Num.abs : Num → Num
  | .nan s => .nan s
  | .inf _ => .inf false
  | .fin _ m e => .fin false m e

/-- The greater of two magnitudes. -/
def maxAbs (xs : List Num) : Num := xs.foldl (fun acc x => if acc.lt x.abs then x.abs else acc) (.fin false 0 0)

/-- The dynamic scale of a block: its greatest magnitude over 448, rounded toward +infinity to BF16; 1.0 for a zero block
(R116). (DEDUCED, log 35) -/
def dynScale (ys : List Num) : Nat :=
  match maxAbs ys with
  | .fin _ m e =>
    if m = 0 then 0x3F80
    else
      let r := fmtBF16.roundQuot true false m 448 e
      if r.flags &&& flagNX = 0 then r.code else r.code + 1
  | _ => fmtBF16.infCode

/-- A narrowed block, with what it adds to SAT, NF and LOW (R195). -/
structure Narrowed where
  bytes : List Byte
  sat : Nat
  nf : Nat
  low : Nat
  deriving DecidableEq, Repr

/-- y / s is below 2^-6 in magnitude. -/
def lowQuot (y : Num) (s : Num) : Bool := y.abs.lt (s.scale (-6))

/-- A block of 64 numbers narrowed (R115 to R117). (DEDUCED, log 35) -/
def narrowBlock (rot carried : Bool) (scale : Nat) (xs : List Num) : Narrowed :=
  if xs.any (fun x => !x.isFinite) then ⟨List.replicate 64 0x7F ++ leBytes 2 0x7FC0, 0, 1, 0⟩
  else
    let ys := if rot then rotate xs else xs
    let sc := if carried then scale else dynScale ys
    let s := fmtBF16.decode sc
    let cs := ys.map fun y => fmtE4M3.div y s
    let top := maxAbs ys
    ⟨cs.map (fun c => BitVec.ofNat 8 c.code) ++ leBytes 2 sc, (cs.filter fun c => c.flags &&& flagOF != 0).length, 0,
      flagNat (carried && !top.isZero && lowQuot top s)⟩

/-- The blocks of one innermost copy, the last padded with +0 (R114, R194). -/
def narrowRun (t : ElemType) (rot carried : Bool) (scale : Nat) (bs : List Byte) : Narrowed :=
  let xs := (chunks (elemBytes t) (bs.length + 1) bs).map fun c => elemNum t (leNat c)
  (chunks 64 (xs.length + 1) xs).foldl (fun acc b =>
    let r := narrowBlock rot carried scale (b ++ List.replicate (64 - b.length) (.fin false 0 0))
    ⟨acc.bytes ++ r.bytes, acc.sat + r.sat, acc.nf + r.nf, acc.low + r.low⟩) ⟨[], 0, 0, 0⟩

/-- A narrowed block widened into 64 codes of a type: the code 0x7F or a NaN scale makes the block NaN (R118).  The code 0xFF, E4M3's other
NaN, which R118 does not name, makes only its own element NaN, and so all of them where the block was rotated (DESIGN CHOICE, log 80). -/
def widenBlock (t : ElemType) (rot : Bool) (b : List Byte) : List Nat :=
  let s := fmtBF16.decode (leNat (b.drop 64))
  let zs := (b.take 64).map fun c => fmtE4M3.decode c.toNat
  if s.isNan || (b.take 64).contains 0x7F then List.replicate 64 (convNum t false false (.nan false)).code
  else
    let ws := zs.map fun z => (z.mul s).1
    (if rot then rotate ws else ws).map fun w => (convNum t false false w).code

/-- Narrowed blocks widened into n elements (R118, R194). -/
def widenRun (t : ElemType) (rot : Bool) (n : Nat) (bs : List Byte) : List Byte :=
  (((chunks 66 (bs.length + 1) bs).flatMap (widenBlock t rot)).take n).flatMap (leBytes (elemBytes t))

end Sys2Proof.Machine
end

