-- ==== Sys2Proof/Machine/Copy.lean ====
section
/-!
DEFINITION. Copy: the copy instructions, their queues and their checks at issue, and the checks of a parameter block
(R179 to R200).
-/

namespace Sys2Proof.Machine

/-! ### Engines and queues (R179, R180) -/

/-- Engines a core has: CORECAP.NCPE (R42, R179). -/
def State.engineCount (s : State) (k : CoreIx) : Nat := if isHub (dieOf k) then 1 else (s.core k).ncpe

/-- The least of a list of causes with their values: the lowest cause, then the lowest value (R52). -/
def leastErr (xs : List (Cause × Nat)) : Option (Cause × Nat) :=
  xs.foldl (fun (acc : Option (Cause × Nat)) (x : Cause × Nat) => match acc with
    | none => some x
    | some y => if x.1.code < y.1.code ∨ (x.1.code = y.1.code ∧ x.2 < y.2) then some x else some y) none

/-- A cause when a test holds. -/
def errIf (b : Bool) (cause : Cause) (v : Nat) : List (Cause × Nat) := if b then [(cause, v)] else []

/-- Queue e or the core has no room for a command (R180). -/
def State.cpFull (s : State) (e : Nat) : Bool :=
  16 ≤ (s.myCore.engine e).queue.length || 32 ≤ (s.myCore.ce.toList.map fun x => x.queue.length).sum

/-- A copy command of the cluster that issues, with nothing in it yet (R180, R299, R336). -/
def State.newCopy (s : State) (kind : CopyKind) (o : Cls) (ga gb : Word) : CopyCmd where
  seq := s.serial
  cl := s.focus
  cls := o
  kind := kind
  ga := ga
  gb := gb
  user := s.me.mode == .user
  tag := s.myCore.owntag
  nest := none
  idx := List.replicate 6 0
  unit := none
  fillDue := false
  finished := false
  flying := false
  counts := (0, 0, 0)
  exempt := s.exemptNow s.myCoreIx

/-- A command enters the queue of engine e and the range checker, and the word completes (R180, R228). -/
def State.cpEnter (s : State) (e : Nat) (c : CopyCmd) : State :=
  ((s.modEngine s.myCoreIx e fun x => { x with queue := x.queue ++ [c] }).tick).advance

/-- PATH of a cause of a copy instruction: C where an access failed, H where it was to a host aperture (R45, R202). -/
def cpPath (cause : Cause) (va : Nat) : Nat :=
  match cause with
  | .aln | .xlt | .prm => (pathOf .c va).code
  | _ => noPath

/-- A copy instruction that names engine e: AUT where the core lacks it (R179), then its own checks, then it waits for room and,
where it has a class, for fences that name C; the command enters. -/
def State.cpIssue (s : State) (e : Nat) (errs : List (Cause × Nat)) (gate : Bool) (c : CopyCmd) : State :=
  if s.engineCount s.myCoreIx ≤ e then s.trapFree .aut
  else match leastErr errs with
    | some (cause, v) => s.trap cause (word v) (cpPath cause v)
    | none => if s.cpFull e || gate then s.stall else s.cpEnter e c

/-! ### Inline copies (R185) -/

/-- LEN of CPY. -/
def cpyLen (gb : Word) : Nat := bits gb 0 25
/-- RM. -/
def cpyRm (gb : Word) : Nat := bits gb 40 2
/-- RING. -/
def cpyRing (gb : Word) : Nat := bits gb 42 6
/-- ENG. -/
def cpyEng (gb : Word) : Nat := bits gb 32 5

/-- The lowest address of n bytes from a that is out of range: bits 63:48 not zero, or at the scratchpad capacity (R185). -/
def outOfReach (cap a n : Nat) : Option Nat :=
  if 2 ^ 48 ≤ a then some a
  else if a < 0x100_0000 ∧ cap < a + n then some (max a cap)
  else if 2 ^ 48 < a + n then some (2 ^ 48)
  else none

/-- The checks of the fields of a CPY. -/
def cpyFieldErrs (dst : Nat) (gb : Word) : List (Cause × Nat) :=
  errIf (outside gb (maskAt 40 8 + maskAt 32 5 + maskAt 0 25) || (cpyRm gb == 2 && dst / 2 ^ 24 != 0)) .lch 0x401 ++
  errIf (cpyRm gb == 3) .lch 0x402

/-- n bytes from address a lie within one slot of a ring. -/
def Ring.inOneSlot (r : Ring) (a n : Nat) : Bool :=
  decide (r.base ≤ a) && r.size != 0 && decide ((a - r.base) / r.size < r.count) &&
    decide (a + n ≤ r.base + ((a - r.base) / r.size + 1) * r.size)

/-- The checks of CPY at issue (R185).  With LEN = 0 its addresses are tested as though one byte stood there (DEDUCED, log 37). -/
def cpyErrs (cap : Nat) (r : Ring) (src dst : Nat) (gb : Word) : List (Cause × Nat) :=
  let n := cpyLen gb
  let rm := cpyRm gb
  let far (a : Nat) : List (Cause × Nat) := match outOfReach cap a (max 1 n) with | some v => [(.xlt, v)] | none => []
  let d : Nat × Nat := if rm = 2 then (r.base, r.base + r.size * r.count) else (dst, dst + n)
  cpyFieldErrs dst gb ++ errIf (2 ^ 24 < n) .lch 0x403 ++ far src ++ (if rm = 2 then [] else far dst) ++
  errIf (decide (n ≠ 0 ∧ src < d.2 ∧ d.1 < src + n) && !(rm == 2 && !r.enabled)) .lch 0x406 ++
  (if rm = 1 ∨ rm = 2 then
    (if !r.enabled then [(.rng, 1)]
     else errIf (if rm = 1 then !r.inOneSlot dst n else decide (r.size < dst + n)) .rng 7)
   else [])

/-- A nest of kind 0 at both ends with nothing else in it. -/
def plainNest (src dst : Nat) : Nest where
  skind := 0
  dkind := 0
  src := src
  dst := dst
  sh := 0
  dh := 0
  sobj := none
  dobj := none
  sfar := none
  dfar := none
  dcore := 0
  deng := 0
  trips := List.replicate 6 1
  sstr := List.replicate 6 0
  dstr := List.replicate 6 0
  run := 1
  total := none
  ring := 0
  rm := 0
  rlv := 0
  nar := 0
  stype := 0
  dtype := 0
  rot := false
  smode := false
  cscale := 0
  welem := 0

/-- The nest of an inline copy: innermost copies of 2^20 bytes, the last with the remainder, all one unit (R185, R190). -/
def cpyNest (src dst : Nat) (gb : Word) : Nest :=
  { plainNest src dst with
    trips := ceilDiv (cpyLen gb) (2 ^ 20) :: List.replicate 5 1
    sstr := 2 ^ 20 :: List.replicate 5 0
    dstr := 2 ^ 20 :: List.replicate 5 0
    run := min (cpyLen gb) (2 ^ 20), total := some (cpyLen gb), ring := cpyRing gb, rm := cpyRm gb, rlv := 6 }

/-- CPY (R185): with LEN = 0 it is checked as any other and completes at once. (DEDUCED, log 37) -/
def execCpy (d a b : Reg) (o : Cls) (s : State) : Result :=
  let gb := s.g b
  let src := (s.g d).toNat
  let dst := (s.g a).toNat
  let errs := cpyErrs (spadBytes s.myCoreIx) (s.myCore.ring (cpyRing gb)) src dst gb
  .next (
    if cpyLen gb = 0 ∧ cpyEng gb < s.engineCount s.myCoreIx then
      (match leastErr errs with
        | some (cause, v) => s.trap cause (word v) (cpPath cause v)
        | none => s.advance)
    else s.cpIssue (cpyEng gb) errs (s.me.gated .c o) { s.newCopy .cpy o (s.g a) gb with nest := some (cpyNest src dst gb) })

/-! ### Block addresses (R186, R198) -/

/-- Faults of the block-address form of gA: reserved bits (R186). -/
def blockFieldBad (ga : Word) : Bool := if bit ga 63 then bits ga 5 58 != 0 else bits ga 48 15 != 0

/-- The checks of CPYP on the block address (R186). -/
def blockErrs (cap : Nat) (hub : Bool) (ga : Word) : List (Cause × Nat) :=
  if bit ga 63 then []
  else
    let a := bits ga 0 48
    let inWindow := decide (a < 0x100_0000)
    let inHub := hub && decide (0x1_0000_0000 ≤ a ∧ a < 0x2_0000_0000)
    errIf (a % 128 != 0) .aln ga.toNat ++
    errIf (if inWindow then decide (cap < a + 128) else !inHub) .xlt ga.toNat

/-- CPYP (R186). -/
def execCpyp (a b : Reg) (o : Cls) (s : State) : Result :=
  let ga := s.g a
  let gb := s.g b
  .next (s.cpIssue (bits gb 0 5)
    (errIf (blockFieldBad ga || outside gb 0x1F) .lch 0x401 ++ blockErrs (spadBytes s.myCoreIx) (isHub s.myDieIx) ga)
    (s.me.gated .c o) (s.newCopy .cpyp o ga gb))

/-- CPINV (R198): its block address is checked as CPYP's (R186); it makes no access and has no class. -/
def execCpinv (a b : Reg) (s : State) : Result :=
  let ga := s.g a
  let gb := s.g b
  .next (s.cpIssue (bits gb 0 5)
    (errIf (blockFieldBad ga || outside gb 0x11F) .lch 0x401 ++ blockErrs (spadBytes s.myCoreIx) (isHub s.myDieIx) ga)
    false (s.newCopy .cpinv 0 ga gb))

/-- CPNEST (R198, R312): gA names 128 bytes of the scratchpad. -/
def execCpnest (a b : Reg) (o : Cls) (s : State) : Result :=
  let ga := s.g a
  let gb := s.g b
  let cap := spadBytes s.myCoreIx
  let w := if s.engineCount s.myCoreIx ≤ bits gb 8 5 then (none, s)
    else s.spadBarred s.myCoreIx (if ga.toNat < cap then [(ga.toNat, min cap (ga.toNat + 128))] else [])
  let s := w.2
  .next (s.cpIssue (bits gb 8 5)
    (errIf (ga.toNat % 128 != 0) .aln ga.toNat ++
      errIf (cap < ga.toNat + 128) .xlt (max ga.toNat cap) ++ (match w.1 with | some b => [(.prm, b)] | none => []) ++
      errIf (outside gb 0x1F1F) .lch 0x401)
    (s.me.gated .c o) (s.newCopy .cpnest o ga gb))

/-! ### Waiting and asking (R199, R200) -/

/-- The engines a mask names: bit e names engine e, and 0 names every engine (R199, R200). -/
def State.maskEngines (s : State) (m : Nat) : List Nat :=
  (List.range (s.engineCount s.myCoreIx)).filter fun e => nbits m 0 20 = 0 || nbit m e

/-- A mask names an engine the core lacks (R179). -/
def State.maskAbsent (s : State) (m : Nat) : Bool := nbits m 0 20 / 2 ^ s.engineCount s.myCoreIx != 0

/-- An engine's flits or tile transfers of a class are on their way. -/
def State.classFlying (s : State) (k : CoreIx) (e : Nat) (o : Cls) : Bool :=
  s.flits.any (fun f => f.agent == e + 1 && coreOf f.cl == k && f.cls == o) || (s.core k).tiles.any fun t => t.owner == .copy e o

/-- An engine's flits or tile transfers are on their way. -/
def State.engineFlying (s : State) (k : CoreIx) (e : Nat) : Bool := (List.range 16).any fun o => s.classFlying k e (BitVec.ofNat 4 o)

/-- CPST.QUIET (R196). -/
def State.engineQuiet (s : State) (k : CoreIx) (e : Nat) : Bool :=
  let x := (s.core k).engine e
  x.queue.isEmpty && !x.pause && !x.hold && !s.engineFlying k e

/-- CPST (R196): a command runs while one stands at the head of a queue that is not held (R180). (DEDUCED, log 29) -/
def State.cpst (s : State) (k : CoreIx) (e : Nat) : Word :=
  let x := (s.core k).engine e
  packWord [(21, x.cache.length), (16, x.queue.length), (7, flagNat x.lowev), (6, flagNat x.satev), (5, flagNat x.supp),
    (4, flagNat x.hold), (3, flagNat x.pause), (1, flagNat (s.engineQuiet k e)), (0, flagNat (!x.queue.isEmpty && !x.hold))]

/-- The IDX layout of R173: ten bits a level. -/
def idxWord (idx : List Nat) : Word := packWord (((List.range 6).map (10 * ·)).zip idx)

/-- CPPG (R196). -/
def Engine.progress (x : Engine) : Word :=
  match x.queue with
  | c :: _ => idxWord c.idx
  | [] => 0

/-- CPERR (R196). -/
def Engine.cperr (x : Engine) : Word :=
  packWord [(16, x.errVal.toNat), (8, x.errClu), (0, match x.err with | some c => c.code | none => 0)]

/-- CPSCNT (R196). -/
def Engine.cpscnt (x : Engine) : Word := packWord [(32, x.satt), (16, x.nft), (0, x.lowt)]

/-- CPSWIN (R196). -/
def Engine.cpswin (x : Engine) : Word := packWord [(32, x.satw), (16, x.loww), (1, flagNat x.lowev), (0, flagNat x.satev)]

/-- The failed command is discarded and the queue released (R189, R199); CPERR and CPFA keep what they hold (DESIGN CHOICE, log 71). -/
def State.discardHeld (s : State) (k : CoreIx) (e : Nat) : State :=
  (s.modEngine k e fun x => { x with hold := false, queue := x.queue.drop 1 }).settleStop k e

/-- The recorded cause and the TVAL that CPWAIT raises with it (R199). -/
def Engine.recorded (x : Engine) : Cause × Word :=
  let c := x.err.getD .lch
  (c, if c = .xlt ∨ c = .prm then x.fa else x.errVal.setWidth 64)

/-- The cause taken first: the lowest number (R52), and of engines held with one number the lowest engine (DESIGN CHOICE, log 70). -/
def firstCause : List (Option Nat × Cause × Word) → Option (Option Nat × Cause × Word)
  | [] => none
  | x :: xs => match firstCause xs with
    | none => some x
    | some y => if x.2.1.code ≤ y.2.1.code then some x else some y

/-- The cause that CPWAIT takes from the held engines it names. -/
def State.heldCause (s : State) (m : Nat) : Option (Option Nat × Cause × Word) :=
  firstCause (((s.maskEngines m).filter fun e => (s.myCore.engine e).hold).map fun e => (some e, (s.myCore.engine e).recorded))

/-- A held engine's cause comes after LCH 0x401, which a CPWAIT with a reserved bit meets too (R52). -/
def afterReserved (m : Nat) (cause : Cause) (v : Word) : Bool :=
  decide (2 ^ 20 ≤ m) && decide (7 < cause.code ∨ (cause.code = 7 ∧ 0x401 ≤ v.toNat))

/-- CPWAIT (R199): of the recorded causes of held engines, and LCH 0x401 for a reserved bit, the lowest is taken (R52).
(DEDUCED, log 32) -/
def execCpwait (a : Reg) (s : State) : Result :=
  let m := (s.g a).toNat
  .next (
    if s.maskAbsent m then s.trapFree .aut
    else match s.heldCause m with
      | some (e, cause, v) =>
        if afterReserved m cause v then s.trap .lch 0x401
        else (s.discardHeld s.myCoreIx (e.getD 0)).trap cause v (cpPath cause v.toNat)
      | none =>
        if 2 ^ 20 ≤ m then s.trap .lch 0x401
        else if (s.maskEngines m).any fun e => (s.myCore.engine e).queue.any fun c => c.cl == s.focus then s.stall else s.advance)

/-- CPQUIE (R200). (DEDUCED, log 32) -/
def execCpquie (d a : Reg) (s : State) : Result :=
  let m := (s.g a).toNat
  .next (
    if s.maskAbsent m then s.trapFree .aut
    else if 2 ^ 20 ≤ m then s.trap .lch 0x401
    else s.finish d (packWord ((s.maskEngines m).map fun e => (e, flagNat (s.engineQuiet s.myCoreIx e)))))

/-- A query of the engine that gA[4:0] names (R200). -/
def State.cpQuery (s : State) (a : Reg) (bad : Bool) (f : Nat → State) : Result :=
  let e := bits (s.g a) 0 5
  .next (
    if s.engineCount s.myCoreIx ≤ e then s.trapFree .aut
    else if bits (s.g a) 5 59 ≠ 0 ∨ bad then s.trap .lch 0x401
    else f e)

/-- CPSTAT (R200). -/
def execCpstat (d a : Reg) (s : State) : Result := s.cpQuery a false fun e => s.finish d (s.cpst s.myCoreIx e)

/-- CPPROG (R200). -/
def execCpprog (d a : Reg) (s : State) : Result := s.cpQuery a false fun e => s.finish d (s.myCore.engine e).progress

/-- The counters of an engine cleared (R200 CPSAT). -/
def Engine.clearCounts (x : Engine) : Engine :=
  { x with satt := 0, nft := 0, lowt := 0, satw := 0, loww := 0, satev := false, lowev := false }

/-- CPSAT (R200). -/
def execCpsat (d a b : Reg) (s : State) : Result :=
  s.cpQuery a (bits (s.g b) 1 63 != 0) fun e =>
    (if bit (s.g b) 0 then s.modEngine s.myCoreIx e Engine.clearCounts else s).finish d (s.myCore.engine e).cpscnt

/-- The engine of a list with the fewest queued commands, the first on a tie. -/
def Core.leastBusy (x : Core) : List Nat → Option Nat
  | [] => none
  | e :: es => match x.leastBusy es with
    | none => some e
    | some f => if (x.engine e).queue.length ≤ (x.engine f).queue.length then some e else some f

/-- CPSEL (R200): a mask that names no present engine, 0 among them, is refused. (DEDUCED, log 32) -/
def execCpsel (d a : Reg) (s : State) : Result :=
  let m := (s.g a).toNat
  .next (
    if 2 ^ 20 ≤ m then s.trap .lch 0x401
    else match s.myCore.leastBusy ((List.range (s.engineCount s.myCoreIx)).filter (nbit m)) with
      | none => s.trap .lch 0x40B
      | some e => s.finish d (word e))

/-! ### The checks of a parameter block (R182 to R184, R187, R189, R190, R194) -/

/-- An endpoint as a block gives it. -/
structure Endpoint where
  pos : Nat
  h : W32
  obj : Option Obj
  far : Option (Nat × Nat)
  errs : List (Cause × Nat)
  deriving DecidableEq, Repr

/-- Bytes of a row image, Wr (R183). -/
def Obj.rowImage (o : Obj) : Nat := if o.cls = 1 then 2 ^ o.spl * o.rowBytes else o.rowBytes

/-- The position of four coordinates in an object's byte image (R183). -/
def Obj.position (o : Obj) (c0 c1 c2 c3 : Nat) : Nat :=
  let row := (c0 * bits o.w1 32 32 + c1) * bits o.w2 0 32 + c2
  match o.elem with
  | some .bpn | some .mxi8 => row * o.rowImage + c3
  | some t => elemBytes t * (row * o.d3 + c3)
  | none => 0

/-- A leading dimension of 1 is unused, and its coordinate must be 0 (R183, R307). -/
def Obj.coordsBad (o : Obj) (c0 c1 c2 : Nat) : Bool :=
  (bits o.w1 0 32 == 1 && c0 != 0) || (bits o.w1 0 32 == 1 && bits o.w1 32 32 == 1 && c1 != 0) ||
  (bits o.w1 0 32 == 1 && bits o.w1 32 32 == 1 && bits o.w2 0 32 == 1 && c2 != 0)

/-- The endpoint of an object whose shape is known. -/
def tensorEnd (o : Obj) (far : Option (Nat × Nat)) (h : W32) (bad : List (Cause × Nat)) (w2 w3 : Word) : Endpoint :=
  ⟨o.position (bits w2 0 32) (bits w2 32 32) (bits w3 0 32) (bits w3 32 32), h, some o, far,
    bad ++ errIf (o.coordsBad (bits w2 0 32) (bits w2 32 32) (bits w3 0 32)) .lch 0x401⟩

/-- The endpoint of an object whose shape the importer cannot know: its position is free (R310). (DESIGN CHOICE, log 34) -/
def State.farEnd (s : State) (far : Option (Nat × Nat)) (h : W32) (bad : List (Cause × Nat)) : Endpoint × State :=
  let r := s.free
  (⟨r.1.toNat % 2 ^ 48, h, none, far, bad⟩, r.2)

/-- A tensor-store endpoint (R183, R309, R310): its handle is validated, an imported one against its import. -/
def State.tensorEndpoint (s : State) (k : CoreIx) (w w2 w3 : Word) (dst : Bool) : Endpoint × State :=
  let h : W32 := BitVec.ofNat 32 (bits w 32 32)
  let secure := (s.core k).secure
  let low := errIf (bits w 0 32 != 0) .lch 0x401
  if h.getLsbD 23 then
    match s.importEntry k (nbits h.toNat 0 23) with
    | (some e, s) =>
      if bits e 32 8 ≠ nbits h.toNat 24 8 then (⟨0, h, none, none, low ++ [(.hdl, h.toNat)]⟩, s)
      else if !importAllows e (if dst then .write else .read) then (⟨0, h, none, none, low ++ [(.prm, 0)]⟩, s)
      else match s.importLoc (dieOf k) e 0 with
        | .peer x rh _ =>
          (match s.tableCore x with
            | some t =>
              match s.localHandle t rh secure with
              | (some o, s) => (tensorEnd o (some ((s.die (dieOf k)).spnum.toNat, x.val)) rh low w2 w3, s)
              | (none, s) => s.farEnd (some ((s.die (dieOf k)).spnum.toNat, x.val)) rh low
            | none => s.farEnd (some ((s.die (dieOf k)).spnum.toNat, x.val)) rh low)
        | .span p x rh _ => s.farEnd (some (p, x)) rh low
        | _ => (⟨0, h, none, none, low⟩, s)
    | (none, s) => (⟨0, h, none, none, low ++ [(.hdl, h.toNat)]⟩, s)
  else match s.localHandle k h secure with
    | (some o, s) =>
      if o.cls = 2 then (⟨0, h, none, none, low ++ [(.hdl, h.toNat)]⟩, s) else (tensorEnd o none h low w2 w3, s)
    | (none, s) => (⟨0, h, none, none, low ++ [(.hdl, h.toNat)]⟩, s)

/-- An endpoint of a block (R182, R187). -/
def State.endpoint (s : State) (k : CoreIx) (kind : Nat) (w w2 w3 : Word) (dst : Bool) : Endpoint × State :=
  let plain (n : Nat) : Endpoint × State :=
    (⟨bits w 0 n, 0, none, none, errIf (w.toNat / 2 ^ n != 0 || w2 != 0 || w3 != 0) .lch 0x401⟩, s)
  match kind with
  | 0 => plain 48
  | 1 => s.tensorEndpoint k w w2 w3 dst
  | 2 => if dst then plain 18 else (⟨0, 0, none, none, []⟩, s)
  | 3 => if dst then plain 12 else (⟨0, 0, none, none, []⟩, s)
  | _ => (⟨0, 0, none, none, []⟩, s)

/-- A type a copy may narrow from or widen to: F32, BF16 or F16 (R187). -/
def wireType (q : Nat) : Bool := q ≤ 2

/-- The nest of a block (R187). -/
def blockNest (w : Nat → Word) (se de : Endpoint) : Nest :=
  let ctl := w 0
  let steps (lo : Nat) : List Int := (iota 7 6).map fun i => sextNat (bits (w i) lo 32) 32
  { skind := bits ctl 24 4, dkind := bits ctl 28 4, src := se.pos, dst := de.pos, sh := se.h, dh := de.h
    sobj := se.obj, dobj := de.obj, sfar := se.far, dfar := de.far, dcore := bits ctl 0 5, deng := bits ctl 8 5
    trips := (iota 0 6).map fun l => bits (w 13) (10 * l) 10 + 1
    sstr := steps 32, dstr := steps 0, run := bits (w 14) 0 32, total := none
    ring := bits ctl 42 6, rm := bits ctl 40 2, rlv := bits ctl 37 3, nar := bits ctl 48 2
    stype := bits ctl 56 4, dtype := bits ctl 52 4, rot := bit ctl 51, smode := bit ctl 50
    cscale := (w 15).setWidth 16, welem := bits (w 15) 32 16 }

/-- A reserved field, or one that the block's kinds and modes do not use, is not zero (R187). -/
def blockFieldsBad (w : Nat → Word) (n : Nest) : Bool :=
  let carried := n.nar == 1 && n.smode
  outside (w 0) (maskAt 37 23 + maskAt 24 8 + maskAt 8 5 + maskAt 0 5) || bits (w 13) 60 4 != 0 || bits (w 14) 32 32 != 0 ||
  outside (w 15) (maskAt 32 16 + maskAt 0 16) ||
  (n.nar != 1 && (n.stype != 0 || n.smode)) || (n.nar != 2 && (n.dtype != 0 || n.welem != 0)) ||
  (!carried && n.cscale != 0) || (n.nar != 1 && n.nar != 2 && n.rot) ||
  (n.dkind != 3 && n.deng != 0) || (n.dkind != 2 && n.dcore != 0) || (n.rm == 0 && (n.ring != 0 || n.rlv != 0))

/-- A span of bytes is not within 0 to limit. -/
def spanOut (r : Int × Int) (limit : Nat) : Bool := decide (r.1 < 0 ∨ (limit : Int) < r.2)

/-- A destination in instruction memory or a command store breaks R184, or reaches the handler area from user mode (R329). -/
def State.storeKindBad (s : State) (k : CoreIx) (user : Bool) (n : Nest) : Bool :=
  match n.dkind with
  | 2 =>
    n.dst % 4 != 0 || n.run % 4 != 0 || n.dstr.any (· % 4 != 0) || spanOut n.dstSpan (2 ^ 18) ||
    (match s.coreAt (dieOf k) n.dcore with
      | none => true
      | some q => user && spanOut n.dstSpan (4096 * (s.core q).hlim))
  | 3 => spanOut n.dstSpan 4096 || decide (s.engineCount k ≤ n.deng)
  | _ => false

/-- The envelopes of source and destination share a byte (R182): addresses of kind 0, or positions in one object. -/
def Nest.overlaps (n : Nest) (r : Ring) : Bool :=
  let d : Int × Int := if n.rm = 2 then ((r.base : Int), r.base + r.size * r.count) else n.dstSpan
  let x := n.srcSpan
  ((n.skind == 0 && n.dkind == 0 && !(n.rm == 2 && !r.enabled)) || (n.skind == 1 && n.dkind == 1 && n.sh == n.dh && n.sfar == n.dfar))
    && decide (x.1 < d.2 ∧ d.1 < x.2)

/-- A type or size that narrowing or widening does not permit (R189, R194). -/
def Nest.narrowBad (n : Nest) : Bool :=
  n.nar == 3 || (n.nar != 0 && (n.skind != 0 || n.dkind != 0)) ||
  (n.nar == 1 && (!wireType n.stype || n.run % elemBytes ((elemOfCode n.stype).getD .f32) != 0)) ||
  (n.nar == 2 && (!wireType n.dtype || n.run % 66 != 0 || n.welem ≤ 64 * (n.run / 66 - 1) || decide (64 * (n.run / 66) < n.welem)))

/-- A place that NAR = 1 may write: another package over Span, or an Ethernet send window (R194). -/
def Loc.leaves : Loc → Bool
  | .span _ _ _ _ | .send _ _ _ => true
  | _ => false

/-- A sum of indices times steps. -/
def stepsAt (idx : List Nat) (steps : List Int) : Int := (idx.zip steps).foldl (fun acc p => acc + p.1 * p.2) 0

/-- An integer as a 64-bit address. -/
def addrOf (x : Int) : Nat := (x % 2 ^ 64).toNat

/-- Every list of indices under a list of trip counts, level 0 first. -/
def allIdx : List Nat → List (List Nat)
  | [] => [[]]
  | t :: ts => (allIdx ts).flatMap fun is => (List.range t).map (· :: is)

/-- The first address of a nest's destination in each 64 KiB page that each of its innermost copies reaches. -/
def Nest.dstPages (n : Nest) : List Nat :=
  ((allIdx n.trips).flatMap fun idx =>
    let d := addrOf (n.dst + stepsAt idx n.dstr)
    (unitsOf (2 ^ 16) d (n.outBytes n.run)).map fun u => max d (u * 2 ^ 16)).eraseDups

/-- NAR = 1 with a destination that is seen at the fetch to reach inside the package (R189, R194). -/
def State.narrowInside (s : State) (k : CoreIx) (user : Bool) (n : Nest) : Bool × State :=
  if n.nar ≠ 1 then (false, s)
  else if n.rm = 2 ∨ n.dkind ≠ 0 then (true, s)
  else n.dstPages.foldl (fun acc a =>
    if acc.1 then acc
    else match acc.2.xlate k user (s.core k).secure .write a with
      | (.ok l, s) => (!l.leaves, s)
      | (_, s) => (rangeOf (dieOf k) a == .window, s)) (false, s)

/-- The carried scale is positive and finite (R189). -/
def scaleOk (c : BitVec 16) : Bool :=
  match fmtBF16.decode c.toNat with
  | .fin neg m _ => !neg && m != 0
  | _ => false

/-- The checks of R189 on a block. -/
def State.blockErrsAt (s : State) (k : CoreIx) (user : Bool) (w : Nat → Word) (se de : Endpoint) (n : Nest) :
    List (Cause × Nat) × State :=
  let r := (s.core k).ring n.ring
  let ringed := n.rm == 1 || n.rm == 2
  let unit := nestSpan n.dst (n.dstr.take n.rlv) n.trips 0 (n.outBytes n.run)
  let inside := s.narrowInside k user n
  let image (o : Option Obj) (x : Int × Int) : Bool := match o with | some o => spanOut x o.imageBytes | none => false
  (se.errs ++ de.errs ++ errIf (blockFieldsBad w n) .lch 0x401 ++
    errIf (n.rm == 3 || n.rlv == 7 || (n.rm != 0 && n.dkind != 0)) .lch 0x402 ++
    errIf (n.run == 0 || decide (2 ^ 20 < n.run)) .lch 0x403 ++
    errIf (decide (1 < n.skind ∨ 3 < n.dkind)) .lch 0x404 ++ errIf (s.storeKindBad k user n) .lch 0x405 ++
    errIf (n.overlaps r) .lch 0x406 ++ errIf (image n.sobj n.srcSpan || image n.dobj n.dstSpan) .lch 0x407 ++
    errIf n.narrowBad .lch 0x408 ++ errIf inside.1 .lch 0x409 ++
    errIf (n.nar == 1 && n.smode && !scaleOk n.cscale) .lch 0x40A ++ errIf (ringed && !r.enabled) .rng 1 ++
    errIf (n.rm == 2 && r.enabled && spanOut unit r.size) .rng 7, inside.2)

/-- A block checked whole when it is fetched: the cause and value of its refusal, or its nest (R189). -/
def State.checkBlock (s : State) (k : CoreIx) (user : Bool) (block : List Word) : Except (Cause × Nat) Nest × State :=
  let w (i : Nat) : Word := block.getD i 0
  let se := s.endpoint k (bits (w 0) 24 4) (w 1) (w 2) (w 3) false
  let de := se.2.endpoint k (bits (w 0) 28 4) (w 4) (w 5) (w 6) true
  let n := blockNest w se.1 de.1
  let r := de.2.blockErrsAt k user w se.1 de.1 n
  (match leastErr r.1 with | some e => .error e | none => .ok n, r.2)

end Sys2Proof.Machine
end

