-- ==== Sys2Proof/Machine/Copying.lean ====
section
/-!
DEFINITION. Copying: what a copy engine does by itself: block fetches, ring units, innermost copies, their landing, and the
accesses that arrive at a home beyond the die (R180 to R195, R230, R238, R310, R336).
-/

namespace Sys2Proof.Machine

/-- The command engine e works on, when the engine may act: it is not held or paused, no walk or fault is open, nothing of
the command is on its way, and its core is not being stopped or restored (R180, R189, R192, R330). -/
def State.copyHead (s : State) (k : CoreIx) (e : Nat) : Option CopyCmd :=
  let x := (s.core k).engine e
  if x.hold || x.pause || (s.core k).cxPend || s.engWaits k e then none
  else (workOn [] x.queue).filter fun c => !c.flying && !s.classFlying k e c.cls && !x.stops c

/-- A command stands at the head of its engine's queue. -/
def State.isFront (s : State) (k : CoreIx) (e : Nat) (c : CopyCmd) : Bool :=
  match ((s.core k).engine e).queue with
  | h :: _ => h.seq == c.seq
  | [] => false

/-- The command at the head of the queue of engine e, when it is the one the engine works on. -/
def State.copyFront (s : State) (k : CoreIx) (e : Nat) : Option CopyCmd := (s.copyHead k e).filter (s.isFront k e)

/-- A command of an engine changed. -/
def State.modCmd (s : State) (k : CoreIx) (e seq : Nat) (f : CopyCmd → CopyCmd) : State :=
  s.modEngine k e fun x => { x with queue := updFirst (fun c => c.seq == seq) f x.queue }

/-- What command c of engine e does: a command that would stop while another stands before it waits for that one (R189, R191). -/
def State.inTurn (s : State) (k : CoreIx) (e : Nat) (c : CopyCmd) (s' : State) : Result :=
  if ((s'.core k).engine e).hold && !s.isFront k e c then s.stutter else .next s'

/-- The head command leaves the queue, and a stop that waited for it takes place. -/
def State.popHead (s : State) (k : CoreIx) (e : Nat) : State :=
  (s.modEngine k e fun x => { x with queue := x.queue.drop 1 }).settleStop k e

/-- The range checker's entry of a command of core k. -/
def State.copyEntryOf (s : State) (k : CoreIx) (c : CopyCmd) : Entry := (s.core k).copyEntry (spadBytes k) c

/-! ### The parameter block (R186, R188, R189) -/

/-- 128 bytes as sixteen words. -/
def blockWords (bs : List Byte) : List Word := (chunks 8 17 bs).map fun c => word (leNat c)

/-- An earlier posted access of the cluster that issued a command has not performed at CORE (R186, R209). -/
def State.beforeFetch (s : State) (c : CopyCmd) : Bool :=
  s.flits.any (fun f => f.ownOf c.cl && f.red.isSome && f.seq < c.seq) ||
  s.merges.any fun m => m.from_.any fun x => x.1 == c.cl && x.2.2 < c.seq

/-- The entry of a block's cache moved to the front, or put there; the least recently used of 16 leaves (R188). -/
def Engine.enterBlock (x : Engine) (b : BlockEntry) : Engine :=
  { x with cache := (b :: x.cache.filter fun y => !(y.key == b.key && y.secure == b.secure)).take 16 }

/-- A block that has been obtained is checked: its command has its nest, or stops (R189). (DEDUCED, log 29) -/
def State.takeBlock (s : State) (k : CoreIx) (e : Nat) (c : CopyCmd) (block : List Word) : State :=
  let s := s.modEngine k e fun x => x.enterBlock ⟨c.ga, (s.core k).secure, block⟩
  match s.checkBlock k c.user block with
  | (.ok n, s) => s.modCmd k e c.seq fun c => { c with nest := some n }
  | (.error (.prm, _), s) =>
    let r := s.free
    (r.2.modCmd k e c.seq fun c => { c with finished := true }).holdEngine k e .prm 0 r.1.toNat
  | (.error (cause, v), s) => (s.modCmd k e c.seq fun c => { c with finished := true }).holdEngine k e cause v 0

/-- A command stops before its block is obtained (R189, R192). -/
def State.failFetch (s : State) (k : CoreIx) (e seq : Nat) (cause : Cause) (va : Nat) : State :=
  (s.modCmd k e seq fun c => { c with finished := true }).holdEngine k e cause 0 va

/-- The block is read: from the cache, from the command store, or from memory (R186, R188). (DEDUCED, log 29) -/
def State.fetchBlock (s : State) (k : CoreIx) (e : Nat) (c : CopyCmd) : State :=
  let x := (s.core k).engine e
  match x.cache.find? fun b => b.key == c.ga && b.secure == (s.core k).secure with
  | some b => s.takeBlock k e c b.block
  | none =>
    if bit c.ga 63 then s.takeBlock k e c (blockWords (x.store.readN (128 * bits c.ga 0 5) 128))
    else
      let va := bits c.ga 0 48
      match s.engPieces k [] c.user .read (runPages 128) va 128 with
      | (.miss a, s) => s.askWalk k e a false
      | (.xlt a, s) => s.failFetch k e c.seq .xlt a
      | (.prm a, s) => s.failFetch k e c.seq .prm a
      | (.ok ps, s) =>
        let r := s.readPieces c.cl c.seq ps .c
        r.2.takeBlock k e c (blockWords r.1)

/-- Some byte of a list of places lies in a bank that a tile transfer has locked (R230). -/
def State.piecesLocked (s : State) (ps : List (Loc × Nat × Nat)) : Bool := ps.any fun p => s.bankWait (s.placeOf p.1) p.2.1

/-- Some byte of a list of places lies in a bank that is locked against copy engine e of core k (R230, R233). -/
def State.enginePiecesLocked (s : State) (k : CoreIx) (e : Nat) (ps : List (Loc × Nat × Nat)) : Bool :=
  ps.any fun p => s.engBankWait k (Tile.byEngine e) (s.placeOf p.1) p.2.1

/-- The block read of a CPYP waits for an earlier command that writes its bytes, or for a tile transfer that is not its engine's own, on
the core's scratchpad or on that of a remote page (R228, R230, R233). -/
def State.fetchHeld (s : State) (k : CoreIx) (e : Nat) (c : CopyCmd) : Bool :=
  let a := bits c.ga 0 48
  !bit c.ga 63 && (
    (decide (a < 0x100_0000) && s.held k ⟨c.seq, [], [(a, a + 128)], [], c.exempt⟩) ||
    match (s.engPieces k [] c.user .read (runPages 128) a 128).1 with
    | .ok ps => s.enginePiecesLocked k e ps
    | _ => false)

/-- BLOCK_FETCH (R186, R188, R189): a CPYP at the head of its queue obtains its block. -/
def execBlockFetch (core : CoreIx) (e : Nat) (s : State) : Result :=
  match s.copyHead core e with
  | some c =>
    if c.kind != .cpyp || c.nest.isSome || c.finished || s.beforeFetch c || s.fetchHeld core e c then s.stutter
    else s.inTurn core e c (s.fetchBlock core e c)
  | none => s.stutter

/-- CPINV_EFFECT (R198): the entry for gA, or every entry, leaves the cache. -/
def execCpinvEffect (core : CoreIx) (e : Nat) (s : State) : Result :=
  match s.copyFront core e with
  | some c =>
    if c.kind != .cpinv then s.stutter
    else .next ((s.modEngine core e fun x =>
      { x with cache := if bit c.gb 8 then [] else x.cache.filter (fun b => b.key != c.ga), queue := x.queue.drop 1 }).settleStop core e)
  | none => s.stutter

/-- The key of a command-store slot in the block cache (R186, R188). -/
def slotKey (slot : Nat) : Word := word (2 ^ 63 + slot)

/-- CPNEST_EFFECT (R198): 128 bytes go to a slot of the command store, whose cache entry leaves. -/
def execCpnestEffect (core : CoreIx) (e : Nat) (s : State) : Result :=
  match s.copyFront core e with
  | some c =>
    if c.kind != .cpnest || s.held core (s.copyEntryOf core c) || (s.core core).lockedBut (Tile.byEngine e) c.ga.toNat 128 then s.stutter
    else
      let r := s.readEngine c.cl c.seq (.spad core c.ga.toNat) 128 c.ga.toNat .c
      .next ((r.2.modEngine core e fun x =>
        { x with store := x.store.writeN (128 * bits c.gb 0 5) r.1
                 cache := x.cache.filter (fun b => b.key != slotKey (bits c.gb 0 5)), queue := x.queue.drop 1 }).settleStop core e)
  | none => s.stutter

/-! ### Ring units (R190) -/

/-- The head copy of an engine with its nest, when its next innermost copy may be prepared. -/
def State.copyNext (s : State) (k : CoreIx) (e : Nat) : Option (CopyCmd × Nest) :=
  match s.copyHead k e with
  | some c => match c.nest with
    | some n => if c.finished || c.fillDue || s.held k (s.copyEntryOf k c) then none else some (c, n)
    | none => none
  | none => none

/-- RING_UNIT_CLAIM (R190, R93): before a unit's first write in claim mode the engine claims the next slot, and waits in the
ring's queue while none is free. -/
def execRingUnitClaim (core : CoreIx) (e : Nat) (s : State) : Result :=
  match s.copyNext core e with
  | some (c, n) =>
    if n.rm ≠ 2 ∨ c.unit.isSome then s.stutter
    else if s.ringGrants core n.ring (some (.engine e)) then
      let r := s.ringClaim core n.ring (some (.engine e))
      (.next (r.2.modCmd core e c.seq fun c => { c with unit := some ⟨n.ring, r.1⟩ }))
    else if ((s.core core).ring n.ring).waiters.contains (.engine e) then s.stutter
    else .next (s.modCore core fun x => x.modRing n.ring fun q =>
      { q with waiters := q.waiters.filter (s.stillWaits core) ++ [.engine e] })
  | none => s.stutter

/-- RING_UNIT_FILL (R190): every write of the unit has performed, and its slot is filled. -/
def execRingUnitFill (core : CoreIx) (e : Nat) (s : State) : Result :=
  match s.copyHead core e with
  | some c =>
    if !c.fillDue then s.stutter
    else match c.unit with
      | some u => .next ((s.ringFill core u.k u.s).modCmd core e c.seq fun c => { c with fillDue := false, unit := none })
      | none => .next (s.modCmd core e c.seq fun c => { c with fillDue := false })
  | none => s.stutter

/-- COPY_COMMAND_COMPLETE (R191): every write has performed and every fill is done. -/
def execCopyCommandComplete (core : CoreIx) (e : Nat) (s : State) : Result :=
  match s.copyFront core e with
  | some c => if c.finished && !c.fillDue then .next (s.popHead core e) else s.stutter
  | none => s.stutter

/-! ### Innermost copies (R181, R185, R190, R194) -/

/-- Bytes that the next innermost copy reads. -/
def Nest.runAt (n : Nest) (idx : List Nat) : Nat :=
  match n.total with
  | some len => min n.run (len - idx.headD 0 * n.run)
  | none => n.run

/-- The source position of an innermost copy (R181). -/
def Nest.srcAt (n : Nest) (idx : List Nat) : Int := n.src + stepsAt idx n.sstr

/-- The destination position of an innermost copy; in claim mode, within the slot at an address (R181, R190). -/
def Nest.dstAt (n : Nest) (idx : List Nat) (slot : Nat) : Int :=
  if n.rm = 2 then slot + n.dst + stepsAt (idx.take n.rlv) (n.dstr.take n.rlv) else n.dst + stepsAt idx n.dstr

/-- The last innermost copy of a unit (R190). -/
def Nest.unitEnd (n : Nest) (idx : List Nat) : Bool := ((idx.zip n.trips).take n.rlv).all fun p => p.1 + 1 == p.2

/-- The places of one end of an innermost copy, or the access that fails; that of a tensor is named by its byte in the image (DESIGN
CHOICE, log 74). -/
def State.endPieces (s : State) (c : CopyCmd) (kind : Nat) (h : W32) (obj : Option Obj) (far : Option (Nat × Nat))
    (acc : Acc) (x : Int) (len : Nat) : EngRun × State :=
  let k := coreOf c.cl
  let at_ := addrOf x
  match kind with
  | 0 => s.engPieces k [] c.user acc (runPages len) at_ len
  | 1 => match far with
    | some (p, dev) =>
      (match dieAt dev with
        | some d => if p = (s.die (dieOf k)).spnum.toNat then (.ok [(.tensor d h at_, len, at_)], s)
          else (.ok [(.span p dev h at_, len, at_)], s)
        | none => (.ok [(.span p dev h at_, len, at_)], s))
    | none => match obj with
      | some o => (.ok (o.pieces (s.die o.die).lanesN len at_ len), s)
      | none => (.ok [], s)
  | _ => (.ok [], s)

/-- The slot that holds a unit of ring mode 1: claimed, unfilled, and the unit's own once it is fixed (R190). -/
def Ring.unitSlot (r : Ring) (unit : Option RingRef) (a : Int) (n : Nat) : Option (BitVec 16) :=
  ((List.range (r.clm - r.head).toNat).map fun i => r.head + BitVec.ofNat 16 i).find? fun q =>
    r.enabled && r.canFill q && decide ((r.addr q : Int) ≤ a ∧ a + n ≤ r.addr q + r.size) &&
      (match unit with | some u => u.s == q | none => true)

/-- Bytes as an innermost copy writes them, and what they add to the counters (R194, R195). -/
def Nest.convert (n : Nest) (bs : List Byte) : List Byte × (Nat × Nat × Nat) :=
  match n.nar with
  | 1 =>
    let r := narrowRun ((elemOfCode n.stype).getD .f32) n.rot n.smode n.cscale.toNat bs
    (r.bytes, (r.sat, r.nf, r.low))
  | 2 => (widenRun ((elemOfCode n.dtype).getD .f32) n.rot n.welem bs, (0, 0, 0))
  | _ => (bs, (0, 0, 0))

/-- The counters of an engine after a run (R195). -/
def Engine.count (x : Engine) (c : Nat × Nat × Nat) : Engine :=
  let satw := heldAt (2 ^ 32 - 1) (x.satw + c.1)
  let loww := heldAt 65535 (x.loww + c.2.2)
  let thr := bits x.scfg 16 16
  let lthr := bits x.scfg 32 16
  { x with
    satt := heldAt (2 ^ 32 - 1) (x.satt + c.1), nft := heldAt 65535 (x.nft + c.2.1), lowt := heldAt 65535 (x.lowt + c.2.2)
    satw := satw, loww := loww, satev := x.satev || (thr != 0 && thr ≤ satw), lowev := x.lowev || (lthr != 0 && lthr ≤ loww) }

/-- Every write of the innermost copy now landing has performed: the command goes on to the next (R190, R192). -/
def CopyCmd.landed (c : CopyCmd) : CopyCmd :=
  match c.nest with
  | some n =>
    let c' := { c with flying := false, counts := (0, 0, 0), fillDue := n.rm != 0 && n.unitEnd c.idx }
    match nextIdx c.idx n.trips with
    | some i => { c' with idx := i }
    | none => { c' with idx := List.replicate 6 0, finished := true }
  | none => c

/-- The command of a class whose innermost copy is on its way: commands on their way at once differ in class. -/
def Engine.inFlight (x : Engine) (o : Cls) : Option CopyCmd := x.queue.find? fun c => c.flying && c.cls == o

/-- The innermost copy of a class lands, and the counters take its counts (R192). -/
def Engine.landed (x : Engine) (o : Cls) : Engine :=
  match x.inFlight o with
  | some c => { x.count c.counts with queue := updFirst (fun y => y.seq == c.seq) CopyCmd.landed x.queue }
  | none => x

/-- The innermost copy of a class lands, when it has been read and nothing of it is on its way. -/
def State.copyLanded (s : State) (k : CoreIx) (e : Nat) (o : Cls) : State :=
  if s.classFlying k e o then s else s.modEngine k e fun x => x.landed o

/-- The tag a copy carries does not fit the owner of a scratchpad (R336). -/
def State.tagBars (s : State) (tag : BitVec 16) (l : Loc) : Bool :=
  match l with
  | .spad k _ => tag != 0 && (s.core k).owntag != 0 && tag != (s.core k).owntag
  | _ => false

/-- A copy of a class is suppressed: while its core is being pre-empted it is kept to be made again; otherwise its command, which
stands at the head of its queue, holds with PRM (R336). -/
def State.suppress (s : State) (k : CoreIx) (e : Nat) (o : Cls) (va : Nat) : State :=
  let s := s.modEngine k e fun x => { x with supp := true }
  if (s.core k).cxPend then s.modEngine k e fun x =>
    { x with queue := updFirst (fun c => c.flying && c.cls == o) (fun c => { c with flying := false, counts := (0, 0, 0) }) x.queue }
  else s.holdEngine k e .prm 0 va

/-- A host place that the window table refuses to a write. -/
def State.hostBars (s : State) (l : Loc) (n : Nat) : Bool :=
  match l with
  | .host d a => !s.windowOk d a n true
  | _ => false

/-- A word of instruction memory as it stands. -/
def Core.imemWord (x : Core) (off : Nat) : W32 := BitVec.ofNat 32 (leNat (x.imem.readN off 4))

/-- Bytes written into instruction memory by a copy: the granules become dirty, until a fence has settled them the core's clusters may
still issue the old words (R29, R333), and a part of an uncorrectable word is not written, and counted and logged (R323). -/
def State.writeImem (s : State) (k : CoreIx) (off : Nat) (bs : List Byte) (by_ : CopyCmd) : State :=
  let x := s.core k
  let put := Mem.put 8 x.imem x.imemBad off bs
  let old (c : CluIx) : List Stale := (iota 0 (bs.length / 4)).map fun i =>
    ⟨off + 4 * i, x.imemWord (off + 4 * i), s.serial, if c = by_.cl then some (by_.seq, by_.cls) else none⟩
  let s := s.setCore k { x with
    imem := put.1, imemBad := put.2.1, idirty := insertAll (unitsOf 4096 off bs.length) x.idirty }
  let s := (clustersOf k).foldl (fun acc c => acc.modCluster c fun y => { y with stale := old c ++ y.stale }) s
  put.2.2.foldl (fun acc w => (acc.countUnc (dieOf k) 1).log (dieOf k) 4 1 (word (8 * w)) (acc.cluster by_.cl).lid) s

/-- Bytes of an innermost copy written or sent to a list of places. -/
def State.copyWrites (s : State) (e : Nat) (c : CopyCmd) (ws : List (Loc × Nat × List Byte)) : State :=
  ws.foldl (fun acc w => match w.1 with
    | .peer _ _ _ | .tensor _ _ _ | .span _ _ _ _ => acc.sendFlit c.cl (e + 1) .c c.cls w.2.1 w.1 w.2.2 none (some c.tag)
    | .host _ _ => (acc.carriedOut c.cl (e + 1) .h c.cls w.2.1 w.1 w.2.2).store w.1 w.2.2 (acc.cluster c.cl).lid
    | _ => acc.perform w.1 w.2.2 (acc.cluster c.cl).lid (some ⟨c.cl, pathOf .c w.2.1, c.cls, c.seq, false⟩)) s

/-- The write of an innermost copy, whose bytes have been read (R182, R184, R230, R238). -/
def State.copyWrite (s : State) (k : CoreIx) (e : Nat) (c : CopyCmd) (n : Nest) (d : Int) (ps : List (Loc × Nat × Nat))
    (bs : List Byte) : State :=
  match n.dkind with
  | 2 => match s.coreAt (dieOf k) n.dcore with
    | some q => (s.writeImem q (addrOf d) bs c).copyLanded k e c.cls
    | none => s.copyLanded k e c.cls
  | 3 => (s.modEngine k n.deng fun x => { x with store := x.store.writeN (addrOf d) bs }).copyLanded k e c.cls
  | _ =>
    if n.dkind = 0 ∧ 0 ≤ d ∧ d < 0x100_0000 then
      { s.modCore k fun x => { x with tiles := x.tiles ++ [⟨s.serial, .copy e c.cls, [(addrOf d, bs)], false, [], some s.serial⟩] } with
        serial := s.serial + 1 }
    else (s.copyWrites e c (cutBytes ps bs)).copyLanded k e c.cls

/-- An innermost copy whose ends are placed: the last checks, the read, and the write. -/
def State.copyMove (s : State) (k : CoreIx) (e : Nat) (c : CopyCmd) (n : Nest) (d : Int)
    (src dst : List (Loc × Nat × Nat)) : State :=
  if n.nar = 1 ∧ dst.any (fun p => !p.1.leaves) then s.holdEngine k e .lch 0x409 0
  else if dst.any fun p => s.tagBars c.tag p.1 then s.suppress k e c.cls (addrOf d)
  else match dst.find? fun p => s.hostBars p.1 p.2.1 with
    | some p => (s.countWindow (dieOf k)).holdEngine k e .prm 0 p.2.2
    | none =>
      match (s.readsCarried c.cl (e + 1) .c c.cls src).engReadAll c.cl c.seq (s.core k).secure src with
      | (.error va, s) => s.holdEngine k e .prm 0 va
      | (.ok bs, s) =>
        let r := n.convert bs
        (s.modCmd k e c.seq fun c => { c with flying := true, counts := r.2 }).copyWrite k e c n d dst r.1

/-- An end of an innermost copy that does not translate: a walk is asked for, or the command stops (R192). -/
def State.copyFails (s : State) (k : CoreIx) (e : Nat) (write : Bool) (tensor : Bool) : EngRun → State
  | .miss va => s.askWalk k e va write
  | .xlt va => s.holdEngine k e .xlt 0 va
  | .prm va =>
    if tensor then
      let r := s.free
      r.2.holdEngine k e .prm 0 r.1.toNat
    else s.holdEngine k e .prm 0 va
  | .ok _ => s

/-- n bytes of a place lie in a column that is being moved: a write that reaches them waits (R282).  The whole column is locked from the
start of its move to the switch, and not each extent before it moves (DESIGN CHOICE, log 86). -/
def State.migLocked (s : State) (l : Loc) (n : Nat) : Bool :=
  match l with
  | .dram d a =>
    (match (s.die d).mig with
      | some m => (unitsOf (8 * Config.laneBytes) (a - Config.lanePhysBase) n).contains m.col
      | none => false)
  | _ => false

/-- A place in host memory. -/
def Loc.onHost : Loc → Bool
  | .host _ _ => true
  | _ => false

/-- The accesses of an innermost copy wait: for tile transfers of other agents (R230), for room in the send logs and links that retrain
(R318, R340), for the frame that a port still holds (R301), for accepted writes of the die to the bytes read (R201, R239), for reduction
stores of the die to the bytes written (R226), and, where they are to a host aperture, for an earlier fence of SYS scope (R202,
R216). -/
def State.copyWaits (s : State) (k : CoreIx) (e : Nat) (c : CopyCmd) (own : Bool) (src dst : List (Loc × Nat × Nat)) : Bool :=
  s.enginePiecesLocked k e src || (!own && s.enginePiecesLocked k e dst) || s.readsWait c.cl src ||
  dst.any (fun p => s.logFull c.cl p.1 || s.sendWait p.1 p.2.1 || s.reductionOpen c.cl p.1 p.2.1) ||
  src.any (fun p => s.dieAccepted c.cl p.1 p.2.1) ||
  ((src ++ dst).any (fun p => p.1.onHost) &&
    (s.cluster c.cl).fences.any fun f => f.seq < c.seq && f.names .h c.cls)

/-- The source of an innermost copy is on a die below READY: the read waits up to 3,200,000 cycles, and is then refused and logged
(R347). -/
def State.sourceWait (s : State) (k : CoreIx) (e : Nat) (c : CopyCmd) (home : Option DieIx) (va : Nat) : Option State :=
  match ((s.core k).engine e).readAge with
  | none => some (s.modEngine k e fun x => { x with readAge := some 0 })
  | some n =>
    if n < 3200000 then none
    else some ((s.logRefused (dieOf k) home va (s.cluster c.cl).lid).holdEngine k e .prm 0 va)

/-- INNERMOST_COPY once its unit is known.  A unit of ring mode 1 that leaves its slot stops at the copy that does, after those before it
have been written (DESIGN CHOICE, log 73). -/
def State.copyStep (s : State) (k : CoreIx) (e : Nat) (c : CopyCmd) (n : Nest) : Option State :=
  let r := (s.core k).ring n.ring
  let len := n.runAt c.idx
  let out := n.outBytes len
  let d := n.dstAt c.idx (match c.unit with | some u => r.addr u.s | none => 0)
  let slot := if n.rm = 1 then r.unitSlot c.unit d out else none
  if n.rm = 1 ∧ slot.isNone then some (s.holdEngine k e .rng 4 0)
  else
    let s := match slot with | some q => s.modCmd k e c.seq fun c => { c with unit := some ⟨n.ring, q⟩ } | none => s
    match s.endPieces c n.skind n.sh n.sobj n.sfar .read (n.srcAt c.idx) len with
    | (.ok src, s) =>
      (match s.endPieces c n.dkind n.dh n.dobj n.dfar .write d out with
        | (.ok dst, s) =>
          if s.copyWaits k e c (n.dkind == 0 && d < 0x100_0000) src dst then none
          else match src.find? fun p => !s.homeReady p.1 with
          | some p => s.sourceWait k e c p.1.homeDie p.2.2
          | none =>
          let s := s.modEngine k e fun x => { x with readAge := none }
          if dst.any (fun p => s.migLocked p.1 p.2.1) then some (s.modEngine k e fun x => { x with pause := true })
          else some (s.copyMove k e c n d src dst)
        | (x, s) => some (s.copyFails k e true (n.dkind == 1) x))
    | (x, s) => some (s.copyFails k e false (n.skind == 1) x)

/-- INNERMOST_COPY (R181, R185, R190 to R194): the next innermost copy of the head command is read, and its writes begin. -/
def execInnermostCopy (core : CoreIx) (e : Nat) (s : State) : Result :=
  match s.copyNext core e with
  | some (c, n) =>
    if c.flying || (n.rm == 2 && c.unit.isNone) then s.stutter
    else (match s.copyStep core e c n with
      | some s' => s.inTurn core e c s'
      | none => s.stutter)
  | none => s.stutter

/-- NARROW_WINDOW_BOUNDARY (R195): a window of 2^WINL cycles ends and the window counts return to zero. -/
def execNarrowWindowBoundary (core : CoreIx) (e : Nat) (s : State) : Result :=
  let x := (s.core core).engine e
  let winl := max 10 (min 30 (bits x.scfg 8 5))
  if e < s.engineCount core ∧ 2 ^ winl ≤ x.winAge then
    .next (s.modEngine core e fun x => { x with satw := 0, loww := 0, winAge := x.winAge - 2 ^ winl })
  else s.stutter

/-! ### Tile transfers of a copy, and arrivals (R230, R238, R239, R310) -/

/-- The writes of a tile are made and its banks released. -/
def State.tileWrites (s : State) (k : CoreIx) (t : Tile) (lid : Nat) : State :=
  (s.modCore k fun x => { x with tiles := x.tiles.filter fun u => u.seq != t.seq }).storeAll
    (t.writes.map fun w => (.spad k w.1, w.2)) lid

/-- The places of this package where the bytes of an arriving flit go, or its refusal (R310). -/
def State.flitPlaces (s : State) (f : Flit) : Option (List (Loc × Nat × Nat)) × State :=
  let secure := s.secureOf f.cl
  match f.dst with
  | .peer d rh off =>
    match s.exportCheck d rh off f.bytes.length .write secure with
    | (some l, s) => (some [(l, f.bytes.length, f.va)], s)
    | (none, s) => (none, s)
  | .tensor d rh pos => s.exportTensor d rh pos f.bytes.length .write secure
  | .span _ _ _ _ =>
    let r := s.spanAnswer
    (if r.1 then some [(f.dst, f.bytes.length, f.va)] else none, r.2)
  | l => (some [(l, f.bytes.length, f.va)], s)

/-- The engine's number of a flit. -/
def Flit.engine (f : Flit) : Option Nat := if f.agent = 0 then none else some (f.agent - 1)

/-- A flit that its home refuses: an engine stops with PRM, and a cluster's store is dropped and logged (R310). -/
def State.flitRefused (s : State) (f : Flit) : State :=
  let s := s.dropFlit f
  match f.engine with
  | some e =>
    let k := coreOf f.cl
    (match ((s.core k).engine e).inFlight f.cls with
      | some _ => s.holdEngine k e .prm 0 f.va
      | none => s)
  | none => s.logRefused (dieOfClu f.cl) f.dst.homeDie f.va (s.cluster f.cl).lid

/-- A flit applied at its home. -/
def State.flitApply (s : State) (f : Flit) (ps : List (Loc × Nat × Nat)) : State :=
  let s := (s.storeAll ((cutBytes ps f.bytes).map fun w => (w.1, w.2.2)) (s.cluster f.cl).lid).dropFlit f
  match f.engine with
  | some e => s.copyLanded (coreOf f.cl) e f.cls
  | none => s

/-- The flits of one innermost copy: those of its engine and class. -/
def Flit.sameCopy (f g : Flit) : Bool := f.agent != 0 && g.agent == f.agent && g.cl == f.cl && g.cls == f.cls

/-- The tag that a copy carries does not fit the scratchpad that a place is (R336). -/
def State.placesBar (s : State) (f : Flit) : Bool :=
  match f.tag, s.flitPlaces f with
  | some t, (some ps, _) => ps.any fun p => s.tagBars t p.1
  | _, _ => false

/-- The tags are compared before the first byte of an innermost copy is written, for all its bytes; afterwards the copy carries none
(R336). -/
def State.copyBarred (s : State) (f : Flit) : Bool := f.tag.isSome && s.flits.any fun g => f.sameCopy g && s.placesBar g

/-- An innermost copy suppressed at its destination: none of its bytes is written, and its flits leave the fabric (R336). -/
def State.suppressFlits (s : State) (f : Flit) : State :=
  let mine := s.flits.filter f.sameCopy
  let s := mine.foldl (fun acc g => acc.dropFlit g) s
  match f.engine with
  | some e => s.suppress (coreOf f.cl) e f.cls ((mine.head?.getD f).va)
  | none => s

/-- The tags of an innermost copy have been compared. -/
def State.tagsTaken (s : State) (f : Flit) : State :=
  { s with flits := s.flits.map fun g => if f.sameCopy g then { g with tag := none } else g }

/-- A flit whose refusal would stop a command that is not at the head of its queue (R189, R191). -/
def State.flitBehind (s : State) (f : Flit) : Bool :=
  match f.engine with
  | some e => match ((s.core (coreOf f.cl)).engine e).inFlight f.cls with
    | some c => !s.isFront (coreOf f.cl) e c && !(s.core (coreOf f.cl)).cxPend
    | none => false
  | none => false

/-- A write waits for the migration of a column; a copy engine pauses meanwhile (R282). -/
def State.flitPause (s : State) (f : Flit) : Result :=
  match f.engine with
  | some e =>
    if ((s.core (coreOf f.cl)).engine e).pause then s.stutter
    else .next (s.modEngine (coreOf f.cl) e fun x => { x with pause := true })
  | none => s.stutter

/-- PEER_ACCESS_ARRIVAL (R238, R239, R310, R336): a posted write arrives at a die on its way, from which it goes on (R340), or at its
home, is checked there, and is applied; a request that
is sent again after a warm reset is carried out (R342). -/
def execPeerAccessArrival (n : Nat) (s : State) : Result :=
  match s.flits.find? fun f => f.seq = n with
  | some f =>
    if f.red.isSome || !s.flitReady f || !s.homeReady f.dst then s.stutter
    else if s.isRepeat f then .next (s.dropFlit f)
    else if f.underway then (if s.onwardFull f then s.stutter else .next (s.flitOnward f))
    else match f.msg with
    | .request kind tag => if s.bankWait (s.placeOf f.dst) kind.bytes then s.stutter else .next (s.replayRequest f kind tag)
    | .response _ _ | .read _ => .next (s.dropFlit f)
    | .write =>
      match s.flitPlaces f with
        | (none, s') => if s.flitBehind f then s.stutter else .next (s'.flitRefused f)
        | (some ps, s') =>
          if s'.piecesLocked ps then s.stutter
          else if ps.any (fun p => s'.migLocked p.1 p.2.1) then s.flitPause f
          else if s'.copyBarred f then (if s.flitBehind f then s.stutter else .next (s'.suppressFlits f))
          else .next ((s'.tagsTaken f).flitApply f ps)
  | none => s.stutter

end Sys2Proof.Machine
end

