-- ==== Sys2Proof/Machine/Matrix.lean ====
section
/-!
DEFINITION. Matrix: the instructions of the matrix engine and the checks of MXGO (R163 to R176).  On a stack core, which has no
matrix engine, they raise AUT (R28).
-/

namespace Sys2Proof.Machine

/-- The matrix engine of a core changed. -/
def State.modMx (s : State) (k : CoreIx) (f : Matrix → Matrix) : State := s.modCore k fun x => { x with mx := f x.mx }

/-- A matrix instruction: AUT on a stack core (R28). -/
def State.onMatrix (s : State) (act : State) : Result := .next (if isHub s.myDieIx then act else s.trapFree .aut)

/-- A nest runs and is not frozen, or an armed one is about to run. (DEDUCED, log 31) -/
def Matrix.runsFree (m : Matrix) : Bool := !m.frozen && (m.run.isSome || m.armed.isSome)

/-- PATH of a cause of a matrix instruction: M where an access failed (R45). -/
def mxPath : Cause → Nat
  | .aln | .xlt | .prm => Path.code .m
  | _ => noPath

/-- The least of a list of causes taken, or the word goes on (R52). -/
def State.mxChecked (s : State) (errs : List (Cause × Nat)) (otherwise : State) : State :=
  match leastErr errs with
  | some (cause, v) => s.trap cause (word v) (mxPath cause)
  | none => otherwise

/-- Uncorrectable words of the accumulator that are read give poison, and are counted and logged; with ECCTL.ETE the cluster that
issued takes ECU while its record runs (R318, R320, R323; the address of an accumulator word is its offset, DEDUCED, log 18). -/
def State.accPoison (s : State) (k : CoreIx) (c : CluIx) (seq : Nat) (reads : Nat → Bool) : State :=
  let d := dieOf k
  match (s.core k).mx.accBad.filter reads with
  | [] => s
  | w :: ws =>
    let bad := w :: ws
    let s := bad.foldl (fun acc w => (acc.countUnc d 1).log d 4 0 (word (8 * w)) (acc.cluster c).lid) s
    let s := (s.countPoison d bad.length).modMx k fun m =>
      { m with acc := bad.foldl (fun a w => a.writeN (8 * w) (leBytes 8 Config.poisonWord.toNat)) m.acc }
    if (s.die d).ete ∧ (s.cluster c).runs seq then
      s.modCluster c fun x => x.addPend .ecu (word (8 * ws.foldl min w)) (Path.code .m) else s

/-! ### Planes and index tables (R167) -/

/-- MXCFG (R167): it waits while a nest is armed. -/
def execMxcfg (a b : Reg) (s : State) : Result :=
  let ga := s.g a
  s.onMatrix (
    if bits ga 5 59 ≠ 0 then s.trap .lch 0x301
    else if s.myCore.mx.armed.isSome then s.stall
    else (s.modMx s.myCoreIx fun m => { m with shd := vset m.shd (bits ga 0 5) (s.g b) }).advance)

/-- The checks of n bytes of scratchpad that a matrix instruction names: alignment, capacity, then the world (R84, R167, R169, R175,
R312). (DEDUCED, log 33) -/
def State.mxSpadErrs (s : State) (a : Word) (align n : Nat) : List (Cause × Nat) × State :=
  let cap := spadBytes s.myCoreIx
  let w := s.spadBarred s.myCoreIx (if a.toNat < cap then [(a.toNat, min cap (a.toNat + n))] else [])
  (errIf (a.toNat % align != 0) .aln a.toNat ++ errIf (decide (cap < a.toNat + n)) .xlt (max a.toNat cap) ++
    (match w.1 with | some b => [(.prm, b)] | none => []), w.2)

/-- The 16-bit entries of an index table. -/
def halfWords (bs : List Byte) : List (BitVec 16) := (chunks 2 129 bs).map fun c => BitVec.ofNat 16 (leNat c)

/-- An index table from its entries. -/
def tableOf (xs : List (BitVec 16)) : Vector (BitVec 16) 128 :=
  ((List.range 128).zip xs).foldl (fun v p => vset v p.1 p.2) (Vector.replicate 128 0)

/-- An MXIDX may read its table: the range checker does not hold it, and no other agent's tile transfer has locked its banks
(R228, R230). -/
def State.idxFree (s : State) (k : CoreIx) (q : IdxWait) : Bool := !(s.core k).lockedMx q.addr 256 && !s.held k q.entry

/-- An MXIDX reads its table into the shadow index table, which is the active one where the planes have swapped since (R167, R168). -/
def State.readIndex (s : State) (k : CoreIx) (q : IdxWait) : State :=
  let r := s.readEngine q.cl q.seq (.spad k q.addr) 256 q.addr .m
  let t := tableOf (halfWords r.1)
  r.2.modMx k fun m => { m with ishd := if q.swapped then m.ishd else t, iact := if q.swapped then t else m.iact, idxq := none }

/-- MXIDX (R167): it waits as MXCFG does, and while the range checker's one entry for an MXIDX is taken; then it enters the checker, and
reads its table at once when nothing holds it, or by a move of the engine once nothing does, while later words go on (R228, R230;
DEDUCED, log 76). -/
def execMxidx (a : Reg) (o : Cls) (s : State) : Result :=
  let e := s.mxSpadErrs (s.g a) 64 256
  s.onMatrix (e.2.mxChecked e.1 (
    let s := e.2
    let q : IdxWait := ⟨s.serial, s.focus, o, (s.g a).toNat, s.exemptNow s.myCoreIx, false⟩
    if s.myCore.mx.armed.isSome || s.me.gated .m o || s.myCore.mx.idxq.isSome then s.stall
    else if s.idxFree s.myCoreIx q then (s.readIndex s.myCoreIx q).tick.advance
    else (s.modMx s.myCoreIx fun m => { m with idxq := some q }).tick.advance))

/-- The engine's move for an MXIDX that waited. -/
def State.indexMove (s : State) (k : CoreIx) : Result :=
  match (s.core k).mx.idxq with
  | some q => if (s.core k).cxPend || !s.idxFree k q then s.stutter else .next (s.readIndex k q)
  | none => s.stutter

/-! ### MXGO (R168) -/

/-- A register of a plane whose low n bits hold a step or base that is not a multiple of 64. -/
def offBy64 (p : Vector Word 32) (i lo n : Nat) : List Nat := if bits (planeReg p i) lo n % 64 = 0 then [] else [i]

/-- The registers whose base, step or row stride is no multiple of 64 (R168 ALN). -/
def planeAlns (p : Vector Word 32) (bsrc : Bool) : List Nat :=
  (iota 8 6).flatMap (fun i => offBy64 p i 0 32) ++ (if bsrc then [] else (iota 14 6).flatMap fun i => offBy64 p i 0 32) ++
  (iota 20 6).flatMap (fun i => offBy64 p i 0 32) ++ offBy64 p 26 0 48 ++ (if bsrc then [] else offBy64 p 27 0 48) ++
  offBy64 p 28 0 48 ++ offBy64 p 29 0 32 ++ (if bsrc then [] else offBy64 p 29 32 32) ++ offBy64 p 30 0 32

/-- A reserved field of a plane is not zero (R163, R164). -/
def planeReserved (p : Vector Word 32) (bsrc : Bool) : Bool :=
  let r := planeReg p
  bits (r 0) 21 43 != 0 || bits (r 1) 20 44 != 0 || (iota 2 6).any (fun i => bits (r i) 11 53 != 0) ||
  (iota 8 18).any (fun i => bits (r i) 32 32 != 0) || bits (r 26) 48 16 != 0 || (!bsrc && bits (r 27) 48 16 != 0) ||
  bits (r 28) 48 16 != 0 || bits (r 30) 32 32 != 0 || r 31 != 0

/-- FP8 operands (R164). -/
def fp8Codes (ctl : Word) : Bool :=
  let f (c : Nat) : Bool := c == 3 || c == 4
  f (bits ctl 0 4) && f (bits ctl 4 4)

/-- The types R164 permits. -/
def typesOk (ctl : Word) : Bool :=
  let a := bits ctl 0 4
  (fp8Codes ctl || (a == bits ctl 4 4 && (a == 1 || a == 2))) && wireType (bits ctl 8 4)

/-- The address operands' envelopes (R168). -/
def MxNest.envelopes (n : MxNest) : List (Int × Int) := [n.aSpan, n.cSpan] ++ if n.bsrc then [] else [n.bSpan]

/-- An envelope in the scratchpad window that reaches the capacity: its lowest address out of range. -/
def windowOver (cap : Nat) (r : Int × Int) : List Nat :=
  if 0 ≤ r.1 ∧ r.1 < 0x100_0000 ∧ (cap : Int) < r.2 then [max r.1.toNat cap] else []

/-- An envelope lies outside both the scratchpad window and the hub SRAM range. -/
def outsideBoth (r : Int × Int) : Bool :=
  !(decide (0 ≤ r.1 ∧ r.2 ≤ 0x100_0000)) && !(decide (0x1_0000_0000 ≤ r.1 ∧ r.2 ≤ 0x2_0000_0000))

/-- The handle of B with BSRC = 1. -/
def planeHandle (p : Vector Word 32) : W32 := BitVec.ofNat 32 (bits (planeReg p 27) 32 32)

/-- The object of B validated, and the causes that it gives (R168, R309). -/
def State.mxObject (s : State) (p : Vector Word 32) (n : MxNest) : Option Obj × List (Cause × Nat) × State :=
  if !n.bsrc then (none, [], s)
  else
    let h := planeHandle p
    match s.localHandle s.myCoreIx h s.myCore.secure with
    | (some o, s) =>
      if o.cls ≠ 0 ∨ o.elem = some .bpn ∨ o.elem = some .mxi8 then (none, [(.hdl, h.toNat)], s)
      else (some o, errIf (bits o.w0 57 4 != bits n.ctl 4 4) .lch 0x302 ++ errIf (spanOut n.bSpan (o.rows * o.d3)) .lch 0x30A, s)
    | (none, s) => (none, [(.hdl, h.toNat)], s)

/-- The checks of MXGO on the shadow plane, but for those of the handle (R168). -/
def mxgoErrs (cap : Nat) (p : Vector Word 32) (n : MxNest) : List (Cause × Nat) :=
  (planeAlns p n.bsrc).map (fun i => (.aln, i)) ++ (n.envelopes.flatMap (windowOver cap)).map (fun a => (.xlt, a)) ++
  errIf (planeReserved p n.bsrc) .lch 0x301 ++ errIf (!typesOk n.ctl) .lch 0x302 ++
  errIf (decide (128 < n.tm ∨ (if fp8Codes n.ctl then 256 else 128) < n.tn)) .lch 0x303 ++
  errIf (n.trips.any fun t => t == 0 || decide (1024 < t)) .lch 0x304 ++ errIf (n.kl == 0 || n.kl == 7) .lch 0x305 ++
  errIf (n.envelopes.any outsideBoth) .lch 0x306 ++ errIf (decide (1 < n.scl) || (n.scl == 1 && !fp8Codes n.ctl)) .lch 0x307

/-- The planes swap and the armed nest starts (R168). -/
def Matrix.start (m : Matrix) (l : Launch) : Matrix :=
  { m with
    act := m.shd, shd := m.act, iact := m.ishd, ishd := m.iact, run := some l, armed := none, frozen := false, sqef := false
    idxq := m.idxq.map fun q => { q with swapped := !q.swapped }
    chunk := 0, idx := Vector.replicate 6 0, xl := [], flags := 0, drained := false, cxFrz := false }

/-- The shadow index table has still to be read for an MXIDX, and the nest of the shadow plane gathers by it (R164, R167). -/
def Matrix.tableDue (m : Matrix) : Bool :=
  bit (planeReg m.shd 0) 17 && match m.idxq with | some q => !q.swapped | none => false

/-- MXGO (R168): it arms the shadow plane, and on an idle engine starts the nest at once.  One that gathers waits for a table that an MXIDX
has still to read, by which its checks and its envelope go; any other is not held back (R228; DEDUCED, log 76). -/
def execMxgo (o : Cls) (s : State) : Result :=
  let m := s.myCore.mx
  let n := mxNest m.shd m.ishd
  s.onMatrix (
    if m.armed.isSome || m.tableDue then s.stall
    else
      let ob := s.mxObject m.shd n
      s.mxChecked (mxgoErrs (spadBytes s.myCoreIx) m.shd n ++ ob.2.1) (
        if s.me.gated .m o then s.stall
        else
          let l : Launch := ⟨s.serial, s.focus, o, s.me.mode == .user, ob.1, s.exemptNow s.myCoreIx⟩
          (ob.2.2.modMx s.myCoreIx fun m =>
            if m.run.isNone then m.start l else { m with armed := some l }).tick.advance))

/-! ### Waiting, status and control (R171 to R176) -/

/-- The recorded fault of the matrix engine. -/
def Matrix.fault (m : Matrix) : Cause := if m.fkind then .prm else .xlt

/-- MXWAIT (R171). (DEDUCED, log 31) -/
def execMxwait (s : State) : Result :=
  let m := s.myCore.mx
  s.onMatrix (
    if m.runsFree then s.stall
    else if m.flt then (s.modMx s.myCoreIx fun m => { m with flt := false }).trap m.fault m.fa (Path.code .m)
    else s.advance)

/-- MXSTATUS (R172). -/
def Matrix.status (m : Matrix) : Word :=
  packWord [(22, match m.run with | some l => cluNo l.cl | none => 0), (17, flagNat (!m.sqlds.isEmpty)), (8, m.sq.length),
    (5, flagNat (m.flt && m.fkind)), (4, flagNat m.flt), (3, flagNat m.sqef), (2, flagNat m.frozen), (1, flagNat m.armed.isSome),
    (0, flagNat m.run.isSome)]

/-- MXPG (R173): 0 when no step remains. -/
def Matrix.progress (m : Matrix) : Word :=
  if m.run.isSome && !m.drained then packWord [(60, m.chunk)] + idxWord m.idx.toList else 0

/-- MXSTAT (R172). -/
def execMxstat (d : Reg) (s : State) : Result := s.onMatrix (s.finish d s.myCore.mx.status)
/-- MXPROG (R173). -/
def execMxprog (d : Reg) (s : State) : Result := s.onMatrix (s.finish d s.myCore.mx.progress)

/-- A tile transfer of the nest waits or runs. -/
def Core.nestTile (x : Core) : Bool := x.tiles.any fun t => t.owner == .nest

/-- MXFRZ (R174): the engine freezes at the chunk boundary at which it stands; a C write that has begun completes first (R230). -/
def execMxfrz (s : State) : Result :=
  let m := s.myCore.mx
  s.onMatrix (
    if !m.runsFree then s.advance
    else if m.run.isNone || m.drained || s.myCore.nestTile then s.stall
    else (s.modMx s.myCoreIx fun m => { m with frozen := true, cxFrz := false }).advance)

/-- MXTHAW (R174). -/
def execMxthaw (s : State) : Result :=
  s.onMatrix ((s.modMx s.myCoreIx fun m => if m.flt then m else { m with frozen := false, sqef := false, cxFrz := false }).advance)

/-- What MXCLR leaves (R176). -/
def Matrix.clear (m : Matrix) : Matrix :=
  { m with
    acc := [], accBad := [], sq := [], undone := [], frozen := false, sqef := false, flt := false, run := none, armed := none, chunk := 0
    idx := Vector.replicate 6 0, xl := [], flags := 0, drained := false, cxFrz := false }

/-- A walk or fault record of an abandoned nest: its answer has no effect. -/
def Walk.gone (w : Walk) (k : CoreIx) : Walk := if w.core = k ∧ w.eng = mxEng then { w with eng := goneEng } else w

/-- The walks of the matrix engine of a core are dropped, and the faults it has raised wait for no one; records that stand in the fault
queue are still to be answered (R176, R305). -/
def State.dropMxWalks (s : State) (k : CoreIx) : State :=
  let mine (w : Walk) : Bool := w.core == k && w.eng == mxEng
  (s.modDie (dieOf k) fun d => { d with
      walkWait := d.walkWait.filter fun w => !mine w, walks := d.walks.map fun w => w.gone k }).modCore k fun x =>
    { x with xfq := x.xfq.map (fun w => (w.1.gone k, w.2)), xfWait := x.xfWait.filter fun w => !mine w.1 }

/-- MXCLR (R176). -/
def execMxclr (s : State) : Result :=
  let m := s.myCore.mx
  s.onMatrix (
    if m.runsFree || !m.sqlds.isEmpty then s.stall
    else ((s.dropMxWalks s.myCoreIx).modMx s.myCoreIx Matrix.clear).advance)

/-! ### The scale queue and MXDRAIN (R169, R175) -/

/-- SQP (R169): it waits for space, and for every earlier SQLD. -/
def execSqp (a : Reg) (s : State) : Result :=
  let m := s.myCore.mx
  s.onMatrix (
    if 256 ≤ m.sq.length ∨ m.sqlds ≠ [] then s.stall
    else (s.modMx s.myCoreIx fun m => { m with sq := m.sq ++ [(s.g a).setWidth 16] }).advance)

/-- SQLD (R169). -/
def execSqld (a b : Reg) (o : Cls) (s : State) : Result :=
  let n := bits (s.g b) 0 16
  let m := s.myCore.mx
  let e := s.mxSpadErrs (s.g a) 2 (2 * n)
  s.onMatrix (e.2.mxChecked (e.1 ++ errIf (n == 0 || decide (256 < n)) .lch 0x308) (
    let s := e.2
    if 4 ≤ m.sqlds.length ∨ s.me.gated .m o then s.stall
    else (s.modMx s.myCoreIx fun m => { m with sqlds := m.sqlds ++ [⟨s.serial, s.focus, o, (s.g a).toNat, n⟩] }).tick.advance))

/-- Row r of the accumulator, 256 F32 values (R175). -/
def Matrix.row (m : Matrix) (r : Nat) : List Byte := m.acc.readN (1024 * r) 1024

/-- An MXDRAIN of the core is under way: the range checker has one entry for it (R228). -/
def Core.draining (x : Core) : Bool := x.tiles.any fun t => match t.owner with | .drain _ _ => true | _ => false

/-- The words of the accumulator in n rows from row r. -/
def inRows (r n w : Nat) : Bool := decide (r ≤ w / 128 ∧ w / 128 < r + n)

/-- The range checker holds an MXDRAIN, which has not asked for its banks yet (R228). -/
def State.drainHeld (s : State) (k : CoreIx) (t : Tile) : Bool :=
  match t.owner with
  | .drain _ _ => s.held k ⟨t.seq, t.writes.map fun w => (w.1, w.1 + w.2.length), [], [], t.exempt⟩
  | _ => false

/-- A tile transfer as it begins: it asks for its banks, unless the range checker holds it (R228, R230). -/
def State.newTile (s : State) (k : CoreIx) (owner : TileOwner) (writes : List (Nat × List Byte)) (exempt : Exempt) : Tile :=
  let t : Tile := ⟨s.serial, owner, writes, false, exempt, some s.serial⟩
  { t with asked := if s.drainHeld k t then none else t.asked }

/-- MXDRAIN (R175): its rows become one tile transfer (R230), poison in place of words that fail (R323). -/
def execMxdrain (a b : Reg) (o : Cls) (s : State) : Result :=
  let gb := s.g b
  let n := bits gb 8 8
  let r := bits gb 0 7
  let m := s.myCore.mx
  let e := s.mxSpadErrs (s.g a) 128 (1024 * n)
  s.onMatrix (e.2.mxChecked (e.1 ++
      errIf (n == 0 || decide (128 < n) || decide (128 < r + n) || outside gb 0xFF7F) .lch 0x309) (
    let s := e.2
    if m.runsFree ∨ s.me.gated .m o ∨ s.myCore.draining then s.stall
    else
      let s := s.accPoison s.myCoreIx s.focus s.serial (inRows r n)
      let t := s.newTile s.myCoreIx (.drain s.focus o) [((s.g a).toNat, (iota r n).flatMap s.myCore.mx.row)] (s.exemptNow s.myCoreIx)
      (s.modMyCore fun x => { x with tiles := x.tiles ++ [t] }).tick.advance))

end Sys2Proof.Machine
end

