-- ==== Sys2Proof/Machine/MatrixRun.lean ====
section
/-!
DEFINITION. MatrixRun: what the matrix engine does by itself: chunks, C writes, scales, tile transfers (R165, R169 to R171,
R177, R230).
-/

namespace Sys2Proof.Machine

/-! ### Arithmetic of a chunk (R123, R165) -/

/-- The exact sum of products of a chunk, and the flags of ∞ x 0 and ∞ - ∞ (R123).  A chunk that holds a NaN product and infinities of both
signs gives the NaN, and its infinities raise nothing (DESIGN CHOICE, log 81). -/
def chunkSum (xs ys : List Num) : Num × Flags :=
  let ps := (List.zip xs ys).map fun p => p.1.mul p.2
  let fl := orFlags (ps.map (·.2))
  let vs := ps.map (·.1)
  if vs.any Num.isNan then (.nan false, fl)
  else
    let infs := vs.filter fun v => !v.isFinite
    if infs.isEmpty then
      let d := (vs.map Num.dyadic).foldl Dyadic.add Dyadic.zero
      (.fin (d.i < 0) d.i.natAbs d.e, fl)
    else if infs.any Num.sign && infs.any (fun v => !v.sign) then (.nan false, fl ||| flagNV)
    else (.inf (infs.any Num.sign), fl)

/-- A chunk scaled, rounded once and added once to an accumulator element (R123).  A zero sum counts as +0, whatever the scale; a nonzero
sum that a zero scale makes zero is a product, with the exclusive OR of the signs (R104; DEDUCED, log 64). -/
def chunkAdd (acc : W32) (xs ys : List Num) (scale : Option Num) : W32 × Flags :=
  let sum := chunkSum xs ys
  let e : Num × Flags := match scale with | some g => let r := sum.1.mul g; (r.1, r.2 ||| sum.2) | none => sum
  let c : W32 × Flags :=
    if sum.1.isZero && e.1.isZero then (0, e.2) else let r := fmtF32.ofNum false e.1; (r.w32, r.flags ||| e.2)
  let r := addF32 acc c.1
  (r.1, r.2 ||| c.2)

/-! ### Operands (R165) -/

/-- The loop indices as a list. -/
def Matrix.at (m : Matrix) : List Nat := m.idx.toList

/-- A K pass begins: every index below KL is 0 (R165). -/
def MxNest.begins (n : MxNest) (idx : List Nat) : Bool := (idx.take n.kl).all (· == 0)

/-- A K pass ends (R165). -/
def MxNest.ends (n : MxNest) (idx : List Nat) : Bool := ((idx.zip n.trips).take n.kl).all fun p => p.1 + 1 == p.2

/-- The bytes that A, B and C touch in one tile step, row by row; B by handle touches none (R165). -/
def MxNest.aRows (n : MxNest) (idx : List Nat) : List (Nat × Nat) :=
  n.rows.map fun (r : Nat) => (addrOf (n.abase + stepsAt idx n.astr + r * n.arstr), n.tk * elemBytes n.atype)
/-- See `aRows`. -/
def MxNest.bRows (n : MxNest) (idx : List Nat) : List (Nat × Nat) :=
  if n.bsrc then []
  else (List.range n.tk).map fun (k : Nat) => (addrOf (n.bbase + stepsAt idx n.bstr + k * n.brstr), n.tn * elemBytes n.btype)
/-- See `aRows`. -/
def MxNest.cRows (n : MxNest) (idx : List Nat) : List (Nat × Nat) :=
  (List.range n.tm).map fun (m : Nat) => (addrOf (n.cbase + stepsAt idx n.cstr + m * n.crstr), n.tn * elemBytes n.ctype)

/-- The reads and writes of a tile step. -/
def MxNest.accesses (n : MxNest) (idx : List Nat) : List (Bool × Nat × Nat) :=
  (n.aRows idx ++ n.bRows idx ++ (if n.init && n.begins idx then n.cRows idx else [])).map (fun r => (false, r.1, r.2)) ++
  (if n.st && n.ends idx then (n.cRows idx).map fun r => (true, r.1, r.2) else [])

/-- The first access of a list that does not translate (R171). -/
def State.mxTranslate (s : State) (k : CoreIx) (l : Launch) : List (Bool × Nat × Nat) → Option (Bool × EngRun) × State
  | [] => (none, s)
  | (wr, va, n) :: rest =>
    match s.engPieces k (s.core k).mx.xl l.user (if wr then .write else .read) (runPages n) va n with
    | (.ok _, s) => s.mxTranslate k l rest
    | (x, s) => (some (wr, x), s)

/-- The places of n bytes whose translation the step has checked. -/
def State.mxPieces (s : State) (k : CoreIx) (l : Launch) (wr : Bool) (va n : Nat) : List (Loc × Nat × Nat) × State :=
  match s.engPieces k (s.core k).mx.xl l.user (if wr then .write else .read) (runPages n) va n with
  | (.ok ps, s) => (ps, s)
  | (_, s) => ([], s)

/-- Codes of n elements of a type read from an address (R177, R323). -/
def State.mxRead (s : State) (k : CoreIx) (l : Launch) (t : ElemType) (va n : Nat) : List Nat × State :=
  let p := s.mxPieces k l false va (n * elemBytes t)
  let r := p.2.readPieces l.cl l.seq p.1 .m
  ((chunks (elemBytes t) (n + 1) r.1).map leNat, r.2)

/-- Codes of n elements of the tensor of B from element e (R165). -/
def State.mxTensor (s : State) (l : Launch) (t : ElemType) (e : Int) (n : Nat) : List Nat × State :=
  match l.obj with
  | some o =>
    let z := elemBytes t
    let r := s.readPieces l.cl l.seq (o.pieces (s.die o.die).lanesN (n * z) (z * e.toNat) (n * z)) .m
    ((chunks z (n + 1) r.1).map leNat, r.2)
  | none => ([], s)

/-- A list of reads, one after another. -/
def readEach (s : State) (f : State → Nat → List Nat × State) : List Nat → List (List Nat) × State
  | [] => ([], s)
  | x :: xs =>
    let r := f s x
    let rs := readEach r.2 f xs
    (r.1 :: rs.1, rs.2)

/-- Element (m, n) of the accumulator. -/
def Matrix.accAt (m : Matrix) (i j : Nat) : W32 := BitVec.ofNat 32 (leNat (m.acc.readN (4 * (256 * i + j)) 4))

/-- Rows of TN values put into the accumulator from row 0 on. -/
def putRows (acc : Mem) (rows : List (List W32)) : Mem :=
  ((List.range rows.length).zip rows).foldl (fun a r =>
    a.writeN (1024 * r.1) (r.2.flatMap fun v => leBytes 4 v.toNat)) acc

/-- Rows 0 to TM - 1 and columns 0 to TN - 1 of the accumulator. -/
def Matrix.tileRows (m : Matrix) (tm tn : Nat) : List (List W32) :=
  (List.range tm).map fun i => (List.range tn).map fun j => m.accAt i j

/-- The accumulator at the start of a K pass: +0, or C widened (R165). -/
def State.mxBegin (s : State) (k : CoreIx) (l : Launch) (n : MxNest) (idx : List Nat) : State :=
  if n.init then
    let r := readEach s (fun s va => s.mxRead k l n.ctype va n.tn) ((n.cRows idx).map (·.1))
    let rows := r.1.map fun cs => cs.map fun c => (fmtF32.ofNum false (elemNum n.ctype c)).w32
    let fl := orFlags (r.1.flatMap fun cs => cs.map fun c => (fmtF32.ofNum false (elemNum n.ctype c)).flags)
    r.2.modMx k fun m => { m with acc := putRows m.acc rows, flags := m.flags ||| fl }
  else s.modMx k fun m => { m with acc := putRows m.acc (List.replicate n.tm (List.replicate n.tn 0)) }

/-- Column j of a list of rows. -/
def column (rows : List (List Num)) (j : Nat) : List Num := rows.map fun r => r.getD j (.fin false 0 0)

/-- One chunk of 32 K: operands read, products summed, accumulator changed (R165). -/
def State.mxChunk (s : State) (k : CoreIx) (l : Launch) (n : MxNest) (idx : List Nat) (t : Nat) (scale : Option Num) : State :=
  let ea := elemBytes n.atype
  let as := readEach s (fun s va => s.mxRead k l n.atype va 32) ((n.aRows idx).map fun r => r.1 + 32 * t * ea)
  let bs :=
    if n.bsrc then readEach as.2 (fun s q => s.mxTensor l n.btype (n.bbase + stepsAt idx n.bstr + q * n.brstr) n.tn) (iota (32 * t) 32)
    else readEach as.2 (fun s va => s.mxRead k l n.btype va n.tn) (((n.bRows idx).drop (32 * t)).take 32 |>.map (·.1))
  let a := as.1.map fun r => r.map (elemNum n.atype)
  let b := bs.1.map fun r => r.map (elemNum n.btype)
  let cols := (List.range n.tn).map (column b)
  let res := ((List.range n.tm).zip a).map fun r => ((List.range n.tn).zip cols).map fun c =>
    chunkAdd ((bs.2.core k).mx.accAt r.1 c.1) r.2 c.2 scale
  bs.2.modMx k fun m =>
    { m with acc := putRows m.acc (res.map fun r => r.map (·.1)), flags := m.flags ||| orFlags (res.flatMap fun r => r.map (·.2)) }

/-- A value of the accumulator as an element of C (R165). -/
def cElem (t : ElemType) (v : W32) : Rounded :=
  match t with
  | .f32 => ⟨v.toNat, 0⟩
  | _ => convNum t false false (numF32 v)

/-- The C write at the end of a K pass: one tile transfer into the scratchpad, or stores into hub SRAM (R165, R230). -/
def State.mxStore (s : State) (k : CoreIx) (l : Launch) (n : MxNest) (idx : List Nat) : State :=
  let m := (s.core k).mx
  let rs := (m.tileRows n.tm n.tn).map fun r => r.map (cElem n.ctype)
  let z := elemBytes n.ctype
  let bytes := rs.map fun r => r.flatMap fun c => leBytes z c.code
  let ws := ((n.cRows idx).map (·.1)).zip bytes
  let s := s.modMx k fun m =>
    { m with acc := putRows m.acc (List.replicate n.tm (List.replicate n.tn 0))
             flags := m.flags ||| orFlags (rs.flatMap fun r => r.map (·.flags)) }
  if ws.all fun w => w.1 < 0x100_0000 then
    { s.modCore k fun x => { x with tiles := x.tiles ++ [⟨s.serial, .nest, ws, false, [], some s.serial⟩] } with serial := s.serial + 1 }
  else ws.foldl (fun acc w =>
    let p := acc.mxPieces k l true w.1 w.2.length
    p.2.storeAll ((cutBytes p.1 w.2).map fun x => (x.1, x.2.2)) (acc.cluster l.cl).lid) s

/-- The engine goes on to the next tile step, or its nest is done but for its C writes (R165). -/
def Matrix.nextStep (m : Matrix) (n : MxNest) : Matrix :=
  match nextIdx m.at n.trips with
  | some is => { m with chunk := 0, xl := [], idx := ((List.range 6).zip is).foldl (fun v p => vset v p.1 p.2) m.idx }
  | none => { m with chunk := 0, xl := [], idx := Vector.replicate 6 0, drained := true }

/-- The scales that the engine has at hand: those of chunks that a fault has undone, then the queue (R169, R171). -/
def Matrix.scales (m : Matrix) : List (BitVec 16) := m.undone ++ m.sq

/-- The scale a chunk takes. -/
def Matrix.scale (m : Matrix) (n : MxNest) : Option Num :=
  if n.scl = 1 then m.scales.head?.map fun x => fmtBF16.decode x.toNat else none

/-- Uncorrectable words of the accumulator that a write of rows and columns covers whole are good again (R323). -/
def Matrix.accFresh (tm tn : Nat) (m : Matrix) : Matrix :=
  { m with accBad := m.accBad.filter fun w => !decide (w / 128 < tm ∧ 2 * (w % 128) + 1 < tn) }

/-- What the engine keeps at the start of a tile step, for a fault that would undo it (R171). -/
def Matrix.keepStep (m : Matrix) : Matrix := if m.chunk = 0 then { m with stepAcc := m.acc, stepFlags := m.flags, stepSq := [] } else m

/-- The scale of a chunk is taken. -/
def Matrix.takeScale (m : Matrix) : Matrix :=
  { m with
    undone := m.undone.drop 1, sq := if m.undone.isEmpty then m.sq.drop 1 else m.sq, stepSq := m.stepSq ++ m.scales.take 1 }

/-- A chunk runs, with the beginning and the end of its tile step where it is the first or the last. -/
def State.mxRun (s : State) (k : CoreIx) (l : Launch) (n : MxNest) : State :=
  let m := (s.core k).mx
  let idx := m.at
  let s := s.modMx k Matrix.keepStep
  let s := if m.chunk = 0 ∧ n.begins idx then (s.mxBegin k l n idx).modMx k (Matrix.accFresh n.tm n.tn) else s
  let s := s.accPoison k l.cl l.seq fun w => decide (w / 128 < n.tm ∧ 2 * (w % 128) < n.tn)
  let s := s.mxChunk k l n idx m.chunk (m.scale n)
  let s := s.modMx k fun m => Matrix.accFresh n.tm n.tn (if n.scl = 1 then m.takeScale else m)
  if m.chunk + 1 < n.tk / 32 then s.modMx k fun m => { m with chunk := m.chunk + 1 }
  else
    let s := if n.st && n.ends idx then s.mxStore k l n idx else s
    s.modMx k fun m => m.nextStep n

/-- A scale is needed and none is to come: the engine freezes, and SQE is raised in the cluster that issued the nest, where it stays
pending until that cluster's next word (R170, R52; its TVAL is free, DESIGN CHOICE, log 6). -/
def State.mxStarve (s : State) (k : CoreIx) (l : Launch) : State :=
  let r := s.free
  (r.2.modCluster l.cl fun c => c.addPend .sqe r.1).modMx k fun m => { m with frozen := true, sqef := true }

/-- The reads of a chunk touch a bank that another agent's tile transfer has locked (R230). -/
def State.mxLocked (s : State) (k : CoreIx) (n : MxNest) (idx : List Nat) : Bool :=
  (n.accesses idx).any fun a => !a.1 && decide (a.2.1 < 0x100_0000) && (s.core k).lockedMx a.2.1 a.2.2

/-- The accesses of a tile step to hub SRAM pages touch a bank that another agent's tile transfer has locked, through a remote
scratchpad page (R230, R233). -/
def State.mxPagesLocked (s : State) (k : CoreIx) (l : Launch) (n : MxNest) (idx : List Nat) : Bool :=
  (n.accesses idx).any fun a => decide (0x100_0000 ≤ a.2.1) &&
    (s.mxPieces k l a.1 a.2.1 a.2.2).1.any fun p => s.engBankWait k Tile.byMatrix p.1 p.2.1

/-- The running nest of a core, when its next chunk may be made: not frozen, no walk or fault open, no C write under way, and not
held by the range checker (R168, R171, R228, R230). -/
def State.mxReady (s : State) (k : CoreIx) : Option (Launch × MxNest) :=
  let x := s.core k
  match x.mx.run with
  | some l =>
    let n := mxNest x.mx.act x.mx.iact
    if x.mx.frozen || x.mx.drained || x.cxPend || s.engWaits k mxEng || x.nestTile || s.held k (nestEntry l n) ||
        s.mxLocked k n x.mx.at then none
    else some (l, n)
  | none => none

/-- MATRIX_CHUNK (R165, R170, R171). -/
def execMatrixChunk (core : CoreIx) (s : State) : Result :=
  match s.mxReady core with
  | some (l, n) =>
    let m := (s.core core).mx
    if n.scl = 1 ∧ m.scales = [] then (if m.sqlds = [] then .next (s.mxStarve core l) else s.stutter)
    else .next (match s.mxTranslate core l (n.accesses m.at) with
      | (none, s') => if s'.mxPagesLocked core l n m.at then { s with note := .waited } else s'.mxRun core l n
      | (some (wr, .miss va), s) => s.askWalk core mxEng va wr
      | (some (_, .xlt va), s) => s.faultMatrix core false va
      | (some (_, .prm va), s) => s.faultMatrix core true va
      | (some (_, .ok _), s) => s)
  | none => s.stutter

/-- NEST_START (R168): the armed nest starts when the one before it has completed, but not on a core that is
being pre-empted, which freezes it first (R178). -/
def execNestStart (core : CoreIx) (s : State) : Result :=
  let m := (s.core core).mx
  match m.armed with
  | some l => if m.run.isNone && !(s.core core).cxPend then .next (s.modMx core fun m => m.start l) else s.stutter
  | none => s.stutter

/-- NEST_COMPLETE (R165, R177): its last C write has performed; its flags are merged (R128). -/
def execNestComplete (core : CoreIx) (s : State) : Result :=
  let m := (s.core core).mx
  match m.run with
  | some l =>
    if m.drained && !(s.core core).nestTile then
      .next ((s.modMx core fun m => { m with run := none, drained := false, frozen := false, flags := 0 }).mergeFlags l.cl l.seq m.flags)
    else s.stutter
  | none => s.stutter

/-- SQLD_ENTRY_PUSH (R169): the oldest SQLD reads its next scale, and the entry enters the queue. -/
def execSqldEntryPush (core : CoreIx) (s : State) : Result :=
  let x := s.core core
  match x.mx.sqlds with
  | q :: rest =>
    if x.cxPend ∨ 256 ≤ x.mx.sq.length ∨ x.lockedMx q.addr 2 ∨ s.held core ⟨q.seq, [], [(q.addr, q.addr + 2 * q.left)], [], []⟩ then s.stutter
    else
      let r := s.readEngine q.cl q.seq (.spad core q.addr) 2 q.addr .m
      let left := if q.left ≤ 1 then rest else { q with addr := q.addr + 2, left := q.left - 1 } :: rest
      .next (r.2.modMx core fun m => { m with sq := m.sq ++ [BitVec.ofNat 16 (leNat r.1)], sqlds := left })
  | [] => s.stutter

/-! ### Tile transfers (R230) -/

/-- Two tile transfers have a bank in common. -/
def Tile.shares (t u : Tile) : Bool := t.banks.any u.banks.contains

/-- A tile transfer that asked at a moment may take its banks: none of them is locked, and no transfer that asked earlier waits for one
of them (R230). -/
def State.tileMay (s : State) (k : CoreIx) (t : Tile) (asked : Nat) : Bool :=
  !t.locked && (s.core k).tiles.all fun u => u.seq == t.seq || !u.shares t ||
    (!u.locked && match u.asked with | some b => decide (asked < b) | none => true)

/-- A tile transfer changed. -/
def State.modTile (s : State) (k : CoreIx) (n : Nat) (f : Tile → Tile) : State :=
  s.modCore k fun x => { x with tiles := updFirst (fun u => u.seq == n) f x.tiles }

/-- TILE_TRANSFER_LOCK (R230): an MXDRAIN that the range checker has held asks for its banks when nothing holds it any more (R228). -/
def execTileTransferLock (core : CoreIx) (n : Nat) (s : State) : Result :=
  match (s.core core).tiles.find? fun t => t.seq = n with
  | some t =>
    (match t.asked with
      | some a => if s.tileMay core t a then .next (s.modTile core n fun u => { u with locked := true }) else s.stutter
      | none =>
        if s.drainHeld core t then s.stutter
        else .next (s.modTile core n fun u => { u with asked := some s.serial, locked := s.tileMay core t s.serial }).tick)
  | none => s.stutter

/-- The record a tile transfer works for. -/
def State.tileLid (s : State) (k : CoreIx) (t : Tile) : Nat :=
  match t.owner with
  | .nest => match (s.core k).mx.run with | some l => (s.cluster l.cl).lid | none => 0
  | .drain c _ => (s.cluster c).lid
  | .copy e o => match ((s.core k).engine e).inFlight o with | some c => (s.cluster c.cl).lid | none => 0

/-- TILE_TRANSFER_RELEASE (R230): every byte of the tile performs, and its banks are released; an innermost copy has landed. -/
def execTileTransferRelease (core : CoreIx) (n : Nat) (s : State) : Result :=
  match (s.core core).tiles.find? fun t => t.seq = n with
  | some t =>
    if !t.locked then s.stutter
    else
      let s := s.tileWrites core t (s.tileLid core t)
      .next (match t.owner with
        | .copy e o => s.copyLanded core e o
        | _ => s)
  | none => s.stutter

end Sys2Proof.Machine
end

