-- ==== Sys2Proof/Machine/Fences.lean ====
section
/-!
DEFINITION. Fences: FENCE and what it waits for (R215 to R219, R29).
-/

namespace Sys2Proof.Machine

/-- A fence names A, for some class, at DOM scope or wider: it flushes the switches' entries of its cluster (R212). -/
def Fence.flushes (f : Fence) : Bool := f.paths.getLsbD 5 && f.mask != 0 && (f.scope == .dom || f.scope == .sys)

/-- The switches forward every entry that holds a reduction store of a cluster (R212). -/
def State.flushMerges (s : State) (c : CluIx) : State :=
  { s with merges := s.merges.map fun m => if m.from_.any (fun x => x.1 == c) then { m with forwarded := true } else m }

/-- FENCE (R212, R215 to R217): it issues at once, and later accesses that it names wait at their own issue until it completes.
(DEDUCED, log 10) -/
def execFence (paths : BitVec 6) (scope : Scope) (mask : BitVec 16) (s : State) : Result :=
  let f : Fence := ⟨s.serial, scope, paths, mask, s.me.pc, s.me.loops, false, s.me.mode⟩
  let s := if f.flushes then s.flushMerges s.focus else s
  .next ((s.advance.modMe fun c => { c with fences := c.fences ++ [f] }).tick)

/-- Work of a path and class, with its number, is earlier work that a fence of cluster c waits for (R216). -/
def Fence.waitsFor (f : Fence) (c : CluIx) (p : Path) (who : CluIx) (o : Cls) (seq : Nat) : Bool :=
  who == c && seq < f.seq && f.names p o

/-- A fence names S or A, for some class. -/
def Fence.scalar (f : Fence) : Bool := f.mask != 0 && (f.paths.getLsbD 0 || f.paths.getLsbD 5)
/-- Accepted writes of other clusters than c, with which c may have synchronised, at one remove or more, and which a fence beyond
the die that names S or A therefore waits for (R237). (DEDUCED, log 43) -/
def Fence.waitsMates (f : Fence) (c : CluIx) (x : Flit) : Bool :=
  scopeWide f.scope && f.scalar && x.cl != c && x.seq < f.seq && x.red.isNone

/-- The scalar accesses that a fence waits for: posted stores at PKG and beyond, reduction stores with every entry that it flushed,
and at SYS the frames of writes to send windows, and those that others whom the cluster may have synchronised with have asked for (R212,
R217, R237, R240). (DEDUCED, log 43) -/
def State.fencePosted (s : State) (c : CluIx) (f : Fence) : Bool :=
  s.flits.any (fun x => x.agent == 0 &&
    ((f.waitsFor c x.path x.cl x.cls x.seq && (scopeWide f.scope || x.red.isSome)) || f.waitsMates c x)) ||
  s.merges.any (fun m => m.from_.any fun x =>
    f.waitsFor c .a x.1 x.2.1 x.2.2 || (f.flushes && x.1 == c && x.2.2 < f.seq)) ||
  (f.scope == .sys && (s.windowWrites (fun w => w.cl == c && decide (w.num ≤ f.seq) && f.names w.path w.cls) ||
    (f.scalar && s.framesAsked f.seq)))

/-- The vector commands that a fence waits for. -/
def Core.fenceVector (x : Core) (c : CluIx) (f : Fence) : Bool := x.vq.any fun v => f.waitsFor c .v v.cl v.cls v.seq

/-- A nest that a fence waits for. -/
def Fence.waitsNest (f : Fence) (c : CluIx) : Option Launch → Bool
  | some l => f.waitsFor c .m l.cl l.cls l.seq
  | none => false

/-- The matrix work that a fence waits for. -/
def Core.fenceMatrix (x : Core) (c : CluIx) (f : Fence) : Bool :=
  f.waitsNest c x.mx.run || f.waitsNest c x.mx.armed || x.mx.sqlds.any (fun q => f.waitsFor c .m q.cl q.cls q.seq) ||
  (match x.mx.idxq with | some q => f.waitsFor c .m q.cl q.cls q.seq | none => false) ||
  x.tiles.any fun t => match t.owner with
    | .drain cl cls => f.waitsFor c .m cl cls t.seq
    | _ => false

/-- Some access of a copy command, at whatever step, is to a host aperture, or may be once its block is known: it lies on the path H
(R181, R202). -/
def CopyCmd.hostPath (q : CopyCmd) : Bool :=
  match q.nest with
  | some n => (n.skind == 0 && decide (0x8000_0000_0000 < n.srcSpan.2)) || (n.dkind == 0 && decide (0x8000_0000_0000 < n.dstSpan.2))
  | none => q.kind == .cpyp

/-- A fence waits for a copy command: by its path C, or at SYS by its accesses on H (R202, R216). -/
def Fence.waitsCopy (f : Fence) (c : CluIx) (q : CopyCmd) : Bool :=
  f.waitsFor c .c q.cl q.cls q.seq || (q.hostPath && f.waitsFor c .h q.cl q.cls q.seq)

/-- The copy commands that a fence waits for. -/
def Core.fenceCopies (x : Core) (c : CluIx) (f : Fence) : Bool := x.ce.toList.any fun e => e.queue.any fun q => f.waitsCopy c q

/-- Vectors that an LDOT names (R287). -/
def LMacro.vectors (m : LMacro) : List Nat := [0, 1, 2, 3].filter fun v => bit m.gb (44 + v)

/-- Rows that an LDOT scores (R287). -/
def LMacro.rows (m : LMacro) : Nat := bits m.gb 48 16

/-- A macro has L-path accesses still to make: results to deliver, or a vector to multicast (R241). -/
def LMacro.accessing (m : LMacro) : Bool :=
  match m.kind with
  | .ldot => m.delivered.length < m.rows * m.vectors.length
  | .lmcst => !m.landed
  | _ => false

/-- The lane work that a fence waits for. -/
def Lanes.fenceLanes (x : Lanes) (c : CluIx) (f : Fence) : Bool :=
  (x.buf ++ x.live ++ x.tail).any fun m => m.accessing && f.waitsFor c .l m.cl m.cls m.seq

/-- Nothing that a fence waits for is left (R217). -/
def State.fenceDone (s : State) (c : CluIx) (f : Fence) : Bool :=
  let x := s.core (coreOf c)
  !(s.fencePosted c f || x.fenceVector c f || x.fenceMatrix c f || x.fenceCopies c f ||
    (s.die (dieOfClu c)).lanes.fenceLanes c f)

/-- The causes that a fence raises while it waits: those of held engines with a command it waits for, by engine number, and the
fault of a running nest it waits for (R218). -/
def Core.fenceCauses (x : Core) (c : CluIx) (f : Fence) : List (Option Nat × Cause × Word) :=
  ((List.range 20).filterMap fun e =>
    let y := x.engine e
    if y.hold && y.queue.any (f.waitsCopy c) then some (some e, y.recorded.1, y.recorded.2) else none) ++
  if x.mx.flt && f.waitsNest c x.mx.run then [(none, x.mx.fault, x.mx.fa)] else []

/-- A fence raises a cause: at its own PC while no later word has issued, and otherwise at the next word (R218). (DEDUCED, log 10) -/
def State.fenceRaise (s : State) (c : CluIx) (f : Fence) (x : Option Nat × Cause × Word) : State :=
  let k := coreOf c
  let s := match x.1 with
    | some e => s.discardHeld k e
    | none => s.modMx k fun m => { m with flt := false }
  let s := if f.passed then s else s.modCluster c fun y =>
    { y with pc := f.pc, loops := f.loops, fences := y.fences.filter fun g => g.seq != f.seq }
  s.takeTrap c false false false (match x.1 with | some _ => cpPath x.2.1 x.2.2.toNat | none => Path.code .m) x.2.1 x.2.2

/-- A fence that names C settles an instruction word that a copy wrote before the fence issued, or by a command of the cluster that
the fence waited for; one whose class mask is 0 settles the former too (R29, R49; DEDUCED, log 60). -/
def Fence.settles (f : Fence) (x : Stale) : Bool :=
  f.paths.getLsbD 3 && (x.landed ≤ f.seq || match x.own with
    | some q => q.1 < f.seq && f.names .c q.2
    | none => false)

/-- A fence that is done leaves its cluster, settles the instruction words that copies wrote (R29), and delivers the flags of R129 to
the record that executed it. -/
def Cluster.passFence (c : Cluster) (f : Fence) : Cluster :=
  let c' := { c with
    fences := c.fences.filter fun g => g.seq != f.seq
    stale := c.stale.filter fun x => !f.settles x }
  if c.runs f.seq then c'.deliver else c'

/-- A fence that names S or A has put the writes to send windows that it names before what its cluster writes afterwards (R216, R236). -/
def EthPort.fence (x : EthPort) (c : CluIx) (f : Fence) : EthPort :=
  { x with writers := x.writers.map fun w =>
      if w.cl == c && decide (w.num ≤ f.seq) && f.scalar && f.names w.path w.cls then { w with fenced := true } else w }
/-- See `EthPort.fence`: on every port of the part. -/
def State.windowsFenced (s : State) (c : CluIx) (f : Fence) : State :=
  { s with dies := s.dies.map fun x => { x with eth := x.eth.map fun p => p.fence c f } }
/-- FENCE_COMPLETE (R217, R218): the fence with number n of a cluster raises a cause it has met, or completes. (DEDUCED, log 10) -/
def execFenceComplete (cl : CluIx) (n : Nat) (s : State) : Result :=
  let c := s.cluster cl
  match c.fences.find? fun f => f.seq = n with
  | some f =>
    (match firstCause ((s.core (coreOf cl)).fenceCauses cl f) with
      | some x => if c.remote.isSome || c.reasks || c.mode != f.mode || !c.runs f.seq then s.stutter else .next (s.fenceRaise cl f x)
      | none => if s.fenceDone cl f then .next ((s.modCluster cl fun c => c.passFence f).windowsFenced cl f) else s.stutter)
  | none => s.stutter

end Sys2Proof.Machine
end

