-- ==== Sys2Proof/Machine/Sched.lean ====
section
/-!
DEFINITION. Sched: continuation records, queues, the ready store, join blocks, and how clusters take and retire records
(R245 to R264, R312, R338).
-/

namespace Sys2Proof.Machine

/-! ### Records (R245, R246) -/

/-- PRIO of a record. -/
def Record.prio (r : Record) : Nat := bits r.w0 38 2
/-- ANYC. -/
def Record.anyc (r : Record) : Bool := bit r.w0 37
/-- CORE. -/
def Record.coreField (r : Record) : Nat := bits r.w0 32 5
/-- DUAL. -/
def Record.isDual (r : Record) : Bool := bit r.w0 40
/-- CODE. -/
def Record.code (r : Record) : PC := r.w0.setWidth 18
/-- JOIN. -/
def Record.join (r : Record) : Word := r.w2

/-- A record from its 32 bytes. -/
def recordOf (bs : List Byte) : Record :=
  let w (i : Nat) : Word := word (leNat ((bs.drop (8 * i)).take 8))
  ⟨w 0, w 1, w 2, w 3⟩

/-- The 32 bytes of a record. -/
def Record.bytes (r : Record) : List Byte := [r.w0, r.w1, r.w2, r.w3].flatMap fun w => leBytes 8 w.toNat

/-- A join block may lie here: the hub SRAM range on a hub die, the scratchpad window on a stack die (R256). -/
def inJoinRange (k : CoreIx) (a : Nat) : Bool :=
  if isHub (dieOf k) then 0x1_0000_0000 ≤ a && a < 0x2_0000_0000 else a < 0x100_0000

/-- A record is valid on the die of a core (R246). -/
def State.recordOk (s : State) (k : CoreIx) (r : Record) : Bool :=
  let d := dieOf k
  !outside r.w0 (maskAt 48 16 + maskAt 32 9 + maskAt 0 18) && bits r.w0 0 2 == 0 &&
  (r.anyc || (s.coreAt d r.coreField).isSome) && (!r.isDual || isHub d) &&
  (r.join == 0 || (r.join.toNat % 64 == 0 && inJoinRange k r.join.toNat))

/-! ### Memory as the scheduler reaches it -/

/-- An access of a scheduler to n bytes of a place has to wait: for a tile transfer, or for a link that retrains or a send log that is
full (R230, R318, R340). -/
def State.schedHeld (s : State) (k : CoreIx) (l : Loc) (n : Nat) : Bool :=
  s.bankWait (s.placeOf l) n || (l.isRemote && s.readWaits (dieOf k) l)

/-- An access of the scheduler of a die has to wait: what it belongs to does not take place in this step. -/
def State.schedMissed (s : State) (d : DieIx) : State := s.modDie d fun x => { x with schedMiss := true }

/-- How long accesses of a die's scheduler to a place have waited for a die below READY. -/
def Die.schedWait (x : Die) (l : Loc) : Option Nat := (x.schedAge.find? fun e => e.1 == l).map (·.2)

/-- An access of the scheduler of a die waits for a place on a die below READY, which is counted for each place apart (R347). -/
def State.schedAwaits (s : State) (d : DieIx) (l : Loc) : State :=
  (s.modDie d fun x => if (x.schedWait l).isSome then x else { x with schedAge := x.schedAge ++ [(l, 0)] }).schedMissed d

/-- The wait for a place is over. -/
def Die.schedReached (x : Die) (l : Loc) : Die := { x with schedAge := x.schedAge.filter fun e => e.1 != l }

/-- A write of a die's scheduler that an import or an exporter refuses is dropped, and both dies' logs record it (R310); so is one that a
host window refuses on the die that makes it. -/
def State.schedRefused (s : State) (here : DieIx) (exporter : Option DieIx) (acc : Acc) (va : Nat) : State :=
  if acc.needsWrite then s.logRefused here exporter va 0 else s

/-- A place as it is named and the memory that it is, for an access of a die to n bytes that a window table and an exporter permit (R310,
R315). -/
def State.schedReach (s : State) (here : DieIx) (va : Nat) (l : Loc) (n : Nat) (acc : Acc) (secure : Bool) :
    Option (Loc × Loc) × State :=
  match l with
  | .peer d rh off =>
    (match s.exportCheck d rh off n acc secure with
      | (some m, s) => (some (l, m), s)
      | (none, s) => (none, s.schedRefused here (some d) acc va))
  | .host d a =>
    if s.windowOk d a n acc.needsWrite then (some (l, l), s) else (none, (s.countWindow d).schedRefused here none acc va)
  | .span _ _ _ _ =>
    let r := s.spanAnswer
    if r.1 then (some (l, l), r.2) else (none, r.2.schedRefused here none acc va)
  | .send _ _ _ | .tensor _ _ _ => (none, s)
  | _ => (some (l, l), s)

/-- The place of n bytes at an address of a die for the scheduler, or nothing where translation fails, the world forbids the access, a
window or an exporter refuses it, or its home has not set READY in 3,200,000 cycles (R246, R253, R254, R259, R310, R347).  Nothing,
and a miss, while the access has to wait. -/
def State.schedPlace (s : State) (k : CoreIx) (secure : Bool) (acc : Acc) (va n : Nat) (user : Bool := false) :
    Option (Loc × Loc) × State :=
  let d := dieOf k
  match s.xlate k user secure acc va with
  | (.ok l, s) =>
    if !s.homeReady l then
      if ((s.die d).schedWait l).getD 0 < sendTimeout then (none, s.schedAwaits d l)
      else (none, (s.modDie d fun x => x.schedReached l).log d 12 Cause.prm.code (word va) 0)
    else if s.schedHeld k l n then (none, s.schedMissed d)
    else (s.modDie d fun x => x.schedReached l).schedReach d va l n acc secure
  | (.refused e, s) => (none, s.schedRefused d e acc va)
  | (_, s) => (none, s)

/-- Some access of the scheduler of a die has to wait on the way from a state to another. -/
def State.schedWaited (s t : State) (d : DieIx) : Bool := (t.die d).schedMiss && !(s.die d).schedMiss

/-- The places that a scheduler's accesses have begun to wait for on the way from a state to another. -/
def State.newWaits (s t : State) (d : DieIx) : List (Loc × Nat) :=
  (t.die d).schedAge.filter fun e => ((s.die d).schedWait e.1).isNone

/-- What does not take place because an access has to wait leaves only the waits that it has begun (R347). -/
def State.keepWaits (s t : State) (d : DieIx) : State := s.modDie d fun x => { x with schedAge := x.schedAge ++ s.newWaits t d }

/-- What an event of a die's scheduler does, when none of its accesses has to wait. -/
def State.schedEvent (s : State) (d : DieIx) (t : State) : Result :=
  if s.schedWaited t d then (if (s.newWaits t d).isEmpty then s.stutter else .next (s.keepWaits t d)) else .next t

/-- What a word whose accesses the scheduler makes does, when none of them has to wait. -/
def State.schedWord (s : State) (t : State) : State :=
  let d := s.myDieIx
  if s.schedWaited t d then (s.keepWaits t d).stall else t

/-- The cluster under whose number the scheduler's flits of a core's die travel. -/
def schedClu (k : CoreIx) : CluIx := ⟨4 * k.val, by omega⟩

/-- n bytes that the scheduler of a die reads at a place.  R323 names no read of the scheduler; one that meets uncorrectable words counts
and logs them, delivers poison in their place as to an engine, and goes on (R320; DESIGN CHOICE, log 85). -/
def State.schedPeek (s : State) (d : DieIx) (l : Loc) (n : Nat) : List Byte × State :=
  (s.peekPoisoned l n, ((s.noteUnc l n).readDram l n).countPoison d (s.badWords l n).length)

/-- n bytes read by the scheduler. -/
def State.schedRead (s : State) (k : CoreIx) (secure : Bool) (va n : Nat) : Option (List Byte) × State :=
  match s.schedPlace k secure .read va n with
  | (some p, s) =>
    let s := if p.1.isRemote then s.readCarried (schedClu k) 34 .a 0 va p.1 n else s
    let r := s.schedPeek (dieOf k) p.2 n
    (some r.1, r.2)
  | (none, s) => (none, s)

/-- Bytes that the scheduler writes at a place, carried there where it lies beyond the die (R340). -/
def State.schedStore (s : State) (k : CoreIx) (va : Nat) (p : Loc × Loc) (bs : List Byte) : State :=
  (if p.1.isRemote then s.carriedOut (schedClu k) 34 .a 0 va p.1 bs else s).store p.2 bs

/-- Bytes written by the scheduler; false where they cannot be. -/
def State.schedWrite (s : State) (k : CoreIx) (secure : Bool) (va : Nat) (bs : List Byte) (user : Bool := false) : Bool × State :=
  match s.schedPlace k secure .write va bs.length user with
  | (some p, s) => (true, s.schedStore k va p bs)
  | (none, s) => (false, s)

/-- t is ahead of u (R251). -/
def aheadOf (t u : W32) : Bool := 1 ≤ (t - u).toNat && (t - u).toNat < 2 ^ 31

/-- An "ahead" write of a TAIL to a header: one indivisible read-modify-write, whose read is counted as any other (R251, R320). -/
def State.aheadWrite (s : State) (k : CoreIx) (secure : Bool) (hdr : Nat) (t : W32) : Bool × State :=
  match s.schedPlace k secure .atomic (hdr + 16) 4 with
  | (some p, s) =>
    let r := s.schedPeek (dieOf k) p.2 4
    (true, if aheadOf t (BitVec.ofNat 32 (leNat r.1)) then r.2.schedStore k (hdr + 16) p (leBytes 4 t.toNat) else r.2)
  | (none, s) => (false, s)

/-- A notify or record that the scheduler refuses: an entry of kind 13 with an address and a queue number (R246, R253, R259). -/
def State.logSched (s : State) (d : DieIx) (addr : Word) (lid q : Nat) : State := s.log d 13 0 addr lid q

/-- BADREC + 1. -/
def State.countBad (s : State) (d : DieIx) : State := s.modDie d fun x => { x with badrec := heldAt (2 ^ 32 - 1) (x.badrec + 1) }

/-- NDROP + 1. -/
def State.countDrop (s : State) (d : DieIx) : State := s.modDie d fun x => { x with ndrop := heldAt (2 ^ 32 - 1) (x.ndrop + 1) }

/-! ### Queue slots (R251 to R254) -/

/-- Slot k of a die. -/
def Die.slot (x : Die) (k : Nat) : QSlot := vget x.qslots k QSlot.reset

/-- Slot k of a die changed. -/
def State.modSlot (s : State) (d : DieIx) (k : Nat) (f : QSlot → QSlot) : State :=
  s.modDie d fun x => { x with qslots := vset x.qslots k (f (x.slot k)) }

/-- The slot holds a record at its HEAD. -/
def QSlot.offers (q : QSlot) : Bool := q.st == .active && q.head != q.tail

/-- A record now at HEAD becomes a candidate (R249). -/
def QSlot.fresh (q : QSlot) (now : Nat) : QSlot := { q with since := now, aged := 0 }

/-- TAIL advanced by an "ahead" write. -/
def QSlot.advanceTail (q : QSlot) (now : Nat) (t : W32) : QSlot :=
  if aheadOf t q.tail then (if q.head = q.tail then { q with tail := t }.fresh now else { q with tail := t }) else q

/-- A TAIL that is ahead of HEAD + 2^LOGN (R254). -/
def tailTooFar (head : W32) (logn : Nat) (t : W32) : Bool := aheadOf t (head + BitVec.ofNat 32 (2 ^ logn))

/-- The address of queue q's table entry. -/
def Die.tableEntry (x : Die) (q : Nat) : Nat := bits x.qtbase 15 33 * 2 ^ 15 + 8 * q

/-- A number of 32 bits at a place in bytes. -/
def w32At (bs : List Byte) (i : Nat) : W32 := BitVec.ofNat 32 (leNat ((bs.drop i).take 4))

/-- A notify to a queue that no slot maps, or whose slot is UNMAPPING with its HEAD (R254). -/
def State.notifyHeader (s : State) (d : DieIx) (k : CoreIx) (secure : Bool) (q : Nat) (t : W32) (head : Option W32) : State :=
  match s.schedRead k secure ((s.die d).tableEntry q) 8 with
  | (none, s) => s.countDrop d
  | (some e, s) =>
    if leNat e = 0 then s.countDrop d
    else match s.schedRead k secure (leNat e) 24 with
      | (none, s) => s.countDrop d
      | (some h, s) =>
        if tailTooFar (head.getD (w32At h 8)) (leNat ((h.drop 7).take 1)) t then s.countDrop d
        else match s.aheadWrite k secure (leNat e) t with
          | (true, s) => s
          | (false, s) => s.countDrop d

/-- The slot that maps a queue number. -/
def Die.slotOf (x : Die) (q : Nat) : Option Nat := (List.range 16).find? fun k => (x.slot k).st != .free && (x.slot k).qnum == q

/-- A notify arrives (R254).  One that meets an UNMAPPING slot, or that a slot held in MAPPING, is checked by the tables and world of the
core that mapped the slot; any other by those of its writer (DESIGN CHOICE, log 83). -/
def State.takeNotify (s : State) (d : DieIx) (k : CoreIx) (secure : Bool) (v : Word) : State :=
  let x := s.die d
  let q := bits v 32 12
  let t : W32 := v.setWidth 32
  if bits v 44 20 ≠ 0 then s.countDrop d
  else match x.slotOf q with
    | none => s.notifyHeader d k secure q t none
    | some i =>
      let sl := x.slot i
      if sl.devq then s.countDrop d
      else match sl.st with
        | .active =>
          if tailTooFar sl.head sl.logn t then s.countDrop d else s.modSlot d i fun y => y.advanceTail x.now t
        | .mapping => s.modSlot d i fun y => { y with heldTails := y.heldTails ++ [t] }
        | _ => s.notifyHeader d sl.core sl.secure q t (some sl.head)

/-- The core whose translation serves accesses that no cluster makes. -/
def State.sysCore (s : State) (d : DieIx) : CoreIx := (s.tableCore d).getD 0

/-- The register NOTIFY written; its reserved bits read as zero (R6, R252). -/
def Die.putNotify (x : Die) (v : Word) : Die := { x with notify := v &&& word (maskAt 0 44) }

/-- NOTIFY (R252, R254, R314): a write of the host's notify aperture, non-secure; it writes the register NOTIFY.  Accesses of a notify that
have to wait keep the notify waiting (R347). -/
def execNotify (die : DieIx) (v : Word) (s : State) : Result :=
  if (s.die die).ready then s.schedEvent die ((s.modDie die fun x => x.putNotify v).takeNotify die (s.sysCore die) false v)
  else .next s

/-- A write of QSLOTk (R253): the state after it, or the code of its LCH. -/
def State.writeQslot (s : State) (d : DieIx) (k : Nat) (core : CoreIx) (secure : Bool) (v : Word) : Except Nat State :=
  let sl := (s.die d).slot k
  if bit v 0 then
    match sl.st with
    | .free =>
      if ((s.die d).slotOf (bits v 36 12)).isSome then .error 0x511
      else .ok (s.modSlot d k fun _ =>
        { QSlot.reset with st := .mapping, qnum := bits v 36 12, devq := bit v 1, map := true, core := core, secure := secure })
    | _ => .error 0x510
  else match sl.st with
    | .mapping => .ok (s.modSlot d k fun y => { y with unmapDue := true, map := false })
    | .active => .ok (s.modSlot d k fun y => { y with st := .unmapping, map := false })
    | _ => .ok s

/-- QSLOT_MAP (R253, R314): a write with MAP = 1, through the host's control aperture when it is not secure. -/
def execQslotMap (die : DieIx) (k : Nat) (v : Word) (secure : Bool) (s : State) : Result :=
  if !(s.die die).ready || 16 ≤ k || !bit v 0 || outside v (maskAt 36 12 + maskAt 0 4) then s.stutter
  else match s.writeQslot die k (s.sysCore die) secure v with
    | .ok s' => .next s'
    | .error _ => s.stutter

/-- QSLOT_UNMAP (R253): a write with MAP = 0. -/
def execQslotUnmap (die : DieIx) (k : Nat) (s : State) : Result :=
  if !(s.die die).ready || 16 ≤ k then s.stutter
  else match s.writeQslot die k (s.sysCore die) false 0 with
    | .ok s' => .next s'
    | .error _ => s.stutter

/-- The notifies that a slot held, after it has ended MAPPING (R254). -/
def State.applyHeld (s : State) (d : DieIx) (sl : QSlot) : State :=
  sl.heldTails.foldl (fun acc t =>
    acc.takeNotify d sl.core sl.secure (packWord [(32, sl.qnum), (0, t.toNat)])) s

/-- A slot becomes FREE from MAPPING; its held notifies meet no slot. -/
def State.mapFails (s : State) (d : DieIx) (k : Nat) (sl : QSlot) (logged : Bool) : State :=
  let s := if logged then s.logSched d (word ((s.die d).tableEntry sl.qnum)) 0 sl.qnum else s
  (s.modSlot d k fun _ => QSlot.reset).applyHeld d sl

/-- QSLOT_MAPPING_DONE (R253, R254). -/
def execQslotMappingDone (die : DieIx) (k : Nat) (s : State) : Result :=
  let sl := (s.die die).slot k
  if sl.st ≠ .mapping ∨ 16 ≤ k then s.stutter
  else s.schedEvent die (match s.schedRead sl.core sl.secure ((s.die die).tableEntry sl.qnum) 8 with
    | (none, s) => s.mapFails die k sl true
    | (some e, s) =>
      let hdr := leNat e
      if hdr = 0 then s.mapFails die k sl false
      else match s.schedRead sl.core sl.secure hdr 24 with
        | (none, s) => s.mapFails die k sl true
        | (some h, s) =>
          let logn := leNat ((h.drop 7).take 1)
          if logn < 4 ∨ 16 < logn then s.mapFails die k sl false
          else
            let y := { sl with st := .active, hdr := word hdr, rbase := word (leNat (h.take 6)), logn := logn
                               head := w32At h 8, tail := w32At h 16, heldTails := [], unmapDue := false }
            let s := (s.modSlot die k fun _ => y.fresh (s.die die).now).applyHeld die sl
            if sl.unmapDue then s.modSlot die k fun z => { z with st := .unmapping } else s)

/-- A take from a slot is in progress. -/
def State.taking (s : State) (d : DieIx) (k : Nat) : Bool :=
  (clustersOn d).any fun c => match (s.cluster c).taken with | some t => t.source == .slot k | none => false

/-- QSLOT_UNMAP_DONE (R253): HEAD, then TAIL as an "ahead" write, go to the header, and the slot becomes FREE; its registers then read
as after reset. (DESIGN CHOICE, log 75) -/
def execQslotUnmapDone (die : DieIx) (k : Nat) (s : State) : Result :=
  let sl := (s.die die).slot k
  if sl.st ≠ .unmapping ∨ 16 ≤ k ∨ s.taking die k then s.stutter
  else
    let w := s.schedWrite sl.core sl.secure (sl.hdr.toNat + 8) (leBytes 4 sl.head.toNat)
    let a := if w.1 then w.2.aheadWrite sl.core sl.secure sl.hdr.toNat sl.tail else (false, w.2)
    let s₀ := s
    let s := if a.1 then a.2 else a.2.logSched die sl.hdr 0 sl.qnum
    s₀.schedEvent die (s.modSlot die k fun _ => QSlot.reset)

/-! ### Candidates and levels (R248 to R250, R312) -/

/-- AGESTEP (R252). -/
def Die.ageStep (x : Die) : Nat := 2 ^ max 8 (min 24 x.agel)

/-- Steps that a candidate has waited since a moment. -/
def Die.steps (x : Die) (since : Nat) : Nat := (x.now - since) / x.ageStep

/-- The level of a candidate (R249). -/
def Die.level (x : Die) (prio since : Nat) : Nat := min 3 (prio + x.steps since)

/-- The address of the record at a slot's HEAD. -/
def QSlot.headAddr (q : QSlot) : Nat := q.rbase.toNat + 32 * (q.head.toNat % 2 ^ q.logn)

/-- The record at a slot's HEAD, where it can be read. -/
def State.headRecord (s : State) (sl : QSlot) : Option Record × State :=
  let r := s.schedRead sl.core sl.secure sl.headAddr 32
  (r.1.map recordOf, r.2)

/-- A cluster takes records at all: its SCHEN bit, its core working and in no context operation, its die ready (R248, R329). -/
def State.takes (s : State) (c : CluIx) : Bool :=
  let k := s.core (coreOf c)
  k.schen.getLsbD (cluNo c) && k.working && !k.cxPend && !(s.cluster c).stopped && (s.die (dieOfClu c)).ready

/-- A cluster may take a record of a world: one of its core or of any core, valid or not, and one that cannot be read (R246, R248,
R312). -/
def State.mayTake (s : State) (c : CluIx) (r : Option Record) (secure : Bool) : Bool :=
  s.takes c && (s.core (coreOf c)).secure == secure &&
  (match r with
    | none => true
    | some r => r.anyc || r.coreField == s.coreNo (coreOf c))

/-- A candidate: its source, 0 to 15 a slot and 16 the store, its level, and its place in the store. -/
structure Cand where
  source : Nat
  level : Nat
  place : Nat
  deriving DecidableEq, Repr

/-- The candidates that a cluster may take (R248, R249): a slot whose record cannot be read stands at PRIO 0, and one whose record is
still to be read offers none. (DEDUCED, log 36) -/
def State.cands (s : State) (c : CluIx) : List Cand :=
  let d := dieOfClu c
  let x := s.die d
  ((List.range 16).filterMap fun k =>
    let sl := x.slot k
    if sl.offers then
      let h := s.headRecord sl
      let r := h.1
      if !(h.2.die d).schedMiss && s.mayTake c r sl.secure then some ⟨k, x.level (match r with | some r => r.prio | none => 0) sl.since, 0⟩ else none
    else none) ++
  ((List.range x.store.length).zip x.store).filterMap fun p =>
    if s.mayTake c (some p.2.record) p.2.secure then some ⟨16, x.level p.2.record.prio p.2.since, p.1⟩ else none

/-- The highest level of a list of candidates. -/
def topLevel (cs : List Cand) : Nat := (cs.map (·.level)).foldl max 0

/-- The candidate that R249 takes: at the highest level, from the first source after the one that last supplied that level. R249's rotation is
taken as it is written: a source is passed over for as long as others at its level supply the clusters that may take from it, so that
R250's bound of 17 need not hold where clusters differ in what they may take (DESIGN CHOICE, log 82). (DESIGN CHOICE, log 15).
(DEDUCED, log 36) -/
def Die.choose (x : Die) (cs : List Cand) : Option Cand :=
  let l := topLevel cs
  let at_ := cs.filter fun c => c.level == l
  ((List.range 17).map fun i => (vget x.lastSrc l 16 + 1 + i) % 17).findSome? fun src => at_.find? fun c => c.source == src

/-- A candidate of a source is due a rise in level (R249). -/
def Die.ageDue (x : Die) (n : Nat) : Bool :=
  if n < 16 then (x.slot n).offers && (x.slot n).aged < min 3 (x.steps (x.slot n).since)
  else match x.store[n - 16]? with
    | some r => r.aged < min 3 (x.steps r.since)
    | none => false

/-- RECORD_AGE_STEP (R249): the level of a candidate rises. -/
def execRecordAgeStep (die : DieIx) (n : Nat) (s : State) : Result :=
  let x := s.die die
  if !x.ageDue n then s.stutter
  else if n < 16 then .next (s.modSlot die n fun q => { q with aged := q.aged + 1 })
  else .next (s.setDie die { x with store :=
    ((List.range x.store.length).zip x.store).map fun p => if p.1 = n - 16 then { p.2 with aged := p.2.aged + 1 } else p.2 })

/-- The cluster is idle. -/
def Cluster.isIdle (c : Cluster) : Bool := c.record.isNone && c.taken.isNone && !c.stopped

/-- A cluster may start the next run of a DUAL record: a shadow beside a primary of another core, or a run again on cores that no copy
used (R338). -/
def DualPair.fits (p : DualPair) (c : CluIx) : Bool :=
  let k := coreOf c
  !p.agreed && !p.used.contains k &&
    match p.primary, p.shadow with
    | some q, none => coreOf q != k
    | none, none => true
    | _, _ => false

/-- A run of a DUAL record that a cluster may take up, and that no other cluster has taken (R338). -/
def State.dualFor (s : State) (c : CluIx) : Option DualPair :=
  let d := dieOfClu c
  (s.die d).duals.find? fun p =>
    s.takes c && (s.core (coreOf c)).secure == p.secure && p.fits c &&
      (clustersOn d).all fun q => match (s.cluster q).taken with | some t => t.source != .shadow p.id | none => true

/-- The read of a record at some slot's HEAD has to wait for a die below READY, and the wait has still to be counted (R347). -/
def State.headWait (s : State) (d : DieIx) : Option State :=
  (List.range 16).findSome? fun k =>
    let sl := (s.die d).slot k
    let t := (s.headRecord sl).2
    if sl.offers && (t.die d).schedMiss && !(s.newWaits t d).isEmpty then some t else none

/-- An idle cluster has a record to select. -/
def State.selects (s : State) (c : CluIx) : Bool := (s.cluster c).isIdle && ((s.dualFor c).isSome || !(s.cands c).isEmpty)

/-- RECORD_SELECT (R249, R338): an idle cluster takes the next record that it may run, after the idle clusters of lower number; a run
of a DUAL record that waits comes before every candidate. (DEDUCED, log 49) -/
def execRecordSelect (cl : CluIx) (s : State) : Result :=
  let d := dieOfClu cl
  let x := s.die d
  if !(s.cluster cl).isIdle || (List.range (16 + x.store.length)).any x.ageDue ||
      (clustersOn d).any (fun c => c.val < cl.val && s.selects c) then s.stutter
  else match s.dualFor cl with
    | some p => .next (s.modCluster cl fun c => { c with taken := some ⟨p.record, .shadow p.id, p.secure, true, 0⟩ })
    | none =>
      match x.choose (s.cands cl) with
      | none => (match s.headWait d with | some t => s.schedEvent d t | none => s.stutter)
      | some ch =>
        let s := s.modDie d fun y => { y with lastSrc := vset y.lastSrc ch.level ch.source }
        if ch.source < 16 then
          let sl := x.slot ch.source
          let r := s.headRecord sl
          let t : Taken := ⟨r.1.getD ⟨0, 0, 0, 0⟩, .slot ch.source, sl.secure, r.1.isSome, word sl.headAddr⟩
          .next ((r.2.modSlot d ch.source fun (q : QSlot) => QSlot.fresh { q with head := q.head + 1 } x.now).modCluster cl fun c =>
            { c with taken := some t })
        else match x.store[ch.place]? with
          | some r =>
            .next ((s.modDie d fun y => { y with store := y.store.take ch.place ++ y.store.drop (ch.place + 1) }).modCluster cl
              fun c => { c with taken := some ⟨r.record, .store, r.secure, true, 0⟩ })
          | none => s.stutter

/-- A cluster starts a record (R247). -/
def Cluster.begin (c : Cluster) (r : Record) (serial : Nat) (dual : Option DualRun) : Cluster :=
  { c.retire with
    record := some r, begun := serial, pc := r.code, fpflg := 0, dual := dual
    regs := ((((Vector.replicate 32 0).set 1 r.w1).set 2 r.w3).set 3 r.w2).set 4 r.w0 }

/-- A cluster that holds a record now issues words. -/
def State.enqueue (s : State) (c : CluIx) : State := { s with runq := s.runq.filter (· != c) ++ [c] }

/-- A cluster no longer issues words. -/
def State.dequeue (s : State) (c : CluIx) : State := { s with runq := s.runq.filter (· != c) }

/-- A record taken is not run (R246). -/
def State.refuseRecord (s : State) (cl : CluIx) (t : Taken) : State :=
  let d := dieOfClu cl
  let q := match t.source with | .slot k => ((s.die d).slot k).qnum | _ => 0
  ((s.modCluster cl fun c => { c with taken := none }).countBad d).logSched d t.addr (if t.readable then t.record.lid else 0) q

/-- A new run of a DUAL record (R338). -/
def newDual (id : Nat) (primary : Bool) : DualRun := ⟨id, primary, [], false, false, 0⟩

/-- RECORD_START (R247, R246, R338): a taken record is checked and started. (DEDUCED, log 36) -/
def execRecordStart (cl : CluIx) (s : State) : Result :=
  let d := dieOfClu cl
  match (s.cluster cl).taken with
  | none => s.stutter
  | some t =>
    match t.source with
    | .shadow id =>
      (match (s.die d).duals.find? fun p => p.id = id with
        | none => .next (s.modCluster cl fun c => { c with taken := none })
        | some p =>
          if !p.fits cl then .next (s.modCluster cl fun c => { c with taken := none })
          else
          let prim := p.primary.isNone
          let join (q : DualPair) : DualPair := if prim then { q with primary := some cl } else { q with shadow := some cl }
          let s := s.modDie d fun x => { x with duals := updFirst (fun q => q.id == id) join x.duals }
          .next (((s.modCluster cl fun c => c.begin t.record s.serial (some (newDual id prim))).enqueue cl).tick))
    | _ =>
      if !t.readable || !s.recordOk (coreOf cl) t.record then .next (s.refuseRecord cl t)
      else if t.record.isDual then
        let id := s.serial
        let p : DualPair := ⟨id, t.record, t.secure, 1, some cl, none, [], false⟩
        .next ((((s.modDie d fun x => { x with duals := x.duals ++ [p] }).modCluster cl fun c =>
          c.begin t.record id (some (newDual id true))).enqueue cl).tick)
      else .next ((s.modCluster cl fun c => c.begin t.record s.serial none).enqueue cl)

/-! ### The ready store and join blocks (R255 to R257) -/

/-- Free entries of the ready store (R255). -/
def Die.freeEntries (x : Die) : Nat := Config.readyEntries - x.store.length - x.resv.length

/-- A record enters the ready store of a die. -/
def State.pushReady (s : State) (d : DieIx) (r : Record) (secure : Bool) : State :=
  s.modDie d fun x => { x with store := x.store ++ [⟨r, secure, x.now, 0⟩] }

/-- The checks of the join block at an address (R260). -/
def State.joinErrs (s : State) (va : Word) : List (Cause × Nat) × Xlate × State :=
  let a := va.toNat
  let x := s.myXlate .atomic a
  let map := match x.1 with
    | .ok _ => errIf (!inJoinRange s.myCoreIx a) .lch 0x502
    | .xlt | .hole _ => [(.xlt, a)]
    | _ => [(.prm, a)]
  (errIf (a % 64 != 0) .aln a ++ map, x.1, x.2)

/-- PATH of a cause of a continuation instruction: A where an access failed (R45, R259). -/
def schedPath : Cause → Nat
  | .aln | .xlt | .prm | .ecu => Path.code .a
  | _ => noPath

/-- A continuation instruction: UDI with TVAL 5 in handler mode (R258). -/
def State.onRecord (s : State) (act : State) : Result := .next (if s.me.mode = .handler then s.trap .udi 5 else act)

/-- The least of a list of causes taken, or the word goes on (R52). -/
def State.schedChecked (s : State) (errs : List (Cause × Nat)) (otherwise : State) : State :=
  match leastErr errs with
  | some (cause, v) => s.trap cause (word v) (schedPath cause)
  | none => otherwise

/-- The record of a join block is pushed by the decrement that reaches zero (R256, R261). -/
def State.joinPush (s : State) (k : CoreIx) (l : Loc) (va : Word) : State :=
  let d := dieOf k
  let rec_ := s.schedPeek d (l.add 32) 32
  let r := recordOf rec_.1
  let s := rec_.2
  let secure := (s.core k).secure
  if (s.die d).resv.contains l then
    (s.modDie d fun x => { x with resv := dropFirst (· == l) x.resv }).pushReady d r secure
  else if (s.die d).freeEntries ≠ 0 then s.pushReady d r secure
  else (s.countBad d).logSched d va 0 0

/-- The decrement of a join block that has passed its checks: its old count (R261). -/
def State.joinDec (s : State) (k : CoreIx) (l : Loc) (va : Word) : Nat × State :=
  let old := leNat (s.peek l 4)
  if old = 0 then (0, s)
  else
    let s := s.store l (leBytes 4 (old - 1))
    (old, if old = 1 then s.joinPush k l va else s)

/-- A decrement by the cluster that issues: its checks and waits, then what follows it (R257, R261). -/
def State.decrement (s : State) (va : Word) (o : Cls) (act : Nat → State → State) : State :=
  let e := s.joinErrs va
  s.schedChecked e.1 (match e.2.1 with
    | .ok l =>
      if s.atomWaits l 8 .a o true then s.stall
      else if !(s.badUnits l 8).isEmpty then e.2.2.trapEcu l 8 va.toNat .a false
      else
        let r := e.2.2.joinDec s.myCoreIx l va
        act r.1 r.2
    | _ => s)

/-- JDEC (R261). -/
def execJdec (d a : Reg) (o : Cls) (s : State) : Result :=
  s.onRecord (s.decrement (s.g a) o fun old s => s.finish d (word old))

/-- The cluster that issues becomes idle; its word has completed. -/
def State.retireMe (s : State) : State := { (s.modMe fun c => c.settle.retire).dequeue s.focus with note := .done }

/-- A FENCE of the record and mode is open while exceptions of FPXEN are enabled: the record does not end before the FENCE has delivered
what its flags ask for (R129; DEDUCED, log 10). -/
def Cluster.fpOpen (c : Cluster) : Bool := c.fpxen != 0 && c.fences.any fun f => c.runs f.seq && f.mode == c.mode

/-- EXIT (R262): a DUAL copy ends and waits for the other (R338). -/
def execExit (o : Cls) (s : State) : Result :=
  s.onRecord (
    if s.me.fpOpen then s.stall
    else match s.me.dual with
    | some _ => (s.modMe fun c => { c with dual := c.dual.map fun r => { r with ended := true, cls := o } }).beginWait
    | none =>
      let join := match s.me.record with | some r => r.join | none => 0
      if join = 0 then s.retireMe else s.decrement join o fun _ s => s.retireMe)

/-! ### SPAWN, YIELD, JSET and CREC (R259, R260, R263, R264) -/

/-- The checks of the record at a scratchpad address (R259, R323): the record last, and its data before that. -/
def State.recordErrs (s : State) (va : Word) : List (Cause × Nat) :=
  let a := va.toNat
  let cap := spadBytes s.myCoreIx
  let l : Loc := .spad s.myCoreIx a
  let bad := s.badUnits l 32
  errIf (a % 32 != 0) .aln a ++
  (if cap < a + 32 then [(.xlt, max a cap)]
   else
    errIf (!(s.worldOk s.myDieIx s.myCore.secure (s.physAddr l) 32).1) .prm a ++
    (match bad with
      | [] => errIf (!s.recordOk s.myCoreIx (recordOf (s.peek l 32))) .lch 0x520
      | w :: ws => [(.ecu, 8 * ws.foldl min w)]))

/-- The record at a scratchpad address. -/
def State.recordAt (s : State) (va : Word) : Record := recordOf (s.peek (.spad s.myCoreIx va.toNat) 32)

/-- The waits of a push (R257): the record's bytes, fences that name A, and a release at DIE. -/
def State.pushWaits (s : State) (va : Word) (o : Cls) : Bool :=
  s.atomWaits (.spad s.myCoreIx va.toNat) 32 .a o true

/-- Uncorrectable record data is counted and logged as it is met (R320, R325). -/
def State.countRecordEcu (s : State) (va : Word) (errs : List (Cause × Nat)) : State :=
  match leastErr errs with
  | some (.ecu, _) => s.noteUnc (.spad s.myCoreIx va.toNat) 32 s.me.lid
  | _ => s

/-- SPAWN to a queue slot (R259): its write is the cluster's own access, on the path A, or H where the ring lies in a host aperture, and
in the world of its core (R202, R216, R312); it follows the cluster's earlier accesses of its class and to its bytes (R222, R223), and
waits as other writes do for reduction stores that its die has open there (R226).  The ring is placed by the tables and scratchpad window of
the core that mapped the slot (DESIGN CHOICE, log 84). -/
def State.spawnSlot (s : State) (t : Nat) (r : Record) (d : Reg) (o : Cls) : State :=
  let dx := s.myDieIx
  let sl := (s.die dx).slot t
  if sl.st ≠ .active ∨ !sl.devq then s.finish d 2
  else if (sl.tail - sl.head).toNat = 2 ^ sl.logn then s.finish d 1
  else
    let a := sl.rbase.toNat + 32 * (sl.tail.toNat % 2 ^ sl.logn)
    let at_ := (s.schedPlace sl.core s.myCore.secure .write a 32 (s.me.mode == .user)).1
    if s.me.gated (pathOf .a a) o || (match at_ with
        | some p => s.ownPending s.focus (pathOf .a a) o p.1 32 || s.reductionOpen s.focus p.1 32
        | none => false) then s.stall
    else s.schedWord (match s.schedWrite sl.core s.myCore.secure a r.bytes (s.me.mode == .user) with
      | (true, s) => (s.modSlot dx t fun y => y.advanceTail (s.die dx).now (y.tail + 1)).finish d 0
      | (false, s) => (s.logSched dx (word a) r.lid sl.qnum).finish d 4)

/-- SPAWN (R259). -/
def execSpawn (d a b : Reg) (o : Cls) (s : State) : Result :=
  let va := s.g a
  let t := bits (s.g b) 0 5
  let errs := s.recordErrs va ++ errIf (bits (s.g b) 5 59 != 0) .lch 0x501 ++ errIf (decide (16 < t)) .lch 0x521
  s.onRecord ((s.countRecordEcu va errs).schedChecked errs (
    if s.pushWaits va o then s.stall
    else
      let r := s.recordAt va
      if t = 16 then
        (if s.myDie.freeEntries = 0 then s.finish d 1 else (s.pushReady s.myDieIx r s.myCore.secure).finish d 0)
      else s.spawnSlot t r d o))

/-- A record that this cluster may take waits at a level of at least n, other than as a shadow. -/
def State.waitingAt (s : State) (n : Nat) : Bool := (s.cands s.focus).any fun c => n ≤ c.level

/-- YIELD (R263): A = 0 raises UDI.  One that does not give way goes on to the next word with no end check (R77; DEDUCED, log 65). -/
def execYield (a : Reg) (o : Cls) (s : State) : Result :=
  let va := s.g a
  let errs := s.recordErrs va
  let prio := match s.me.record with | some r => r.prio | none => 0
  s.onRecord (
    if a = 0 then s.trapFree .udi
    else (s.countRecordEcu va errs).schedChecked errs (
      if s.pushWaits va o then s.stall
      else if s.waitingAt prio && s.myDie.freeEntries != 0 then
        if s.me.fpOpen then s.stall else (s.pushReady s.myDieIx (s.recordAt va) s.myCore.secure).retireMe
      else s.jump (s.me.pc + 4)))

/-- JSET (R260). -/
def execJset (d a b : Reg) (o : Cls) (s : State) : Result :=
  let va := s.g a
  let vb := s.g b
  let n := s.g d
  let e := s.joinErrs va
  let errs := e.1 ++ s.recordErrs vb ++ errIf (bits n 32 32 != 0 || bits n 0 32 == 0) .lch 0x522
  s.onRecord ((s.countRecordEcu vb errs).schedChecked errs (
    match e.2.1 with
    | .ok l =>
      if s.pushWaits vb o || s.atomWaits l 64 .a o true then s.stall
      else
        let s' := e.2.2
        if s'.myDie.freeEntries = 0 then s'.finish d 1
        else if !(s'.badUnits l 8).isEmpty then s'.trapEcu l 8 va.toNat .a false
        else if leNat (s'.peek l 4) ≠ 0 then s'.finish d 3
        else
          (((s'.modMyDie fun x => { x with resv := x.resv ++ [l] }).store (l.add 32) (s.recordAt vb).bytes).store l
            (leBytes 8 (bits n 0 32))).finish d 0
    | _ => s))

/-- CREC (R264). -/
def execCrec (d : Reg) (k : BitVec 5) (s : State) : Result :=
  let r := match s.me.record with | some r => r | none => ⟨0, 0, 0, 0⟩
  s.onRecord (
    match k.toNat with
    | 0 => s.finish d r.w0
    | 1 => s.finish d r.w1
    | 2 => s.finish d r.w2
    | 3 => s.finish d r.w3
    | _ => s.trapFree .udi)

/-! ### Dual execution (R338) -/

/-- The signature of a copy: CRC-64 over each store's address, size and bytes. -/
def DualRun.signature (r : DualRun) : Nat :=
  crc64 (r.stores.flatMap fun st => leBytes 8 st.va.toNat ++ leBytes 1 st.bytes.length ++ st.bytes)

/-- A posted store of a cluster has not been applied. -/
def State.storesOpen (s : State) (c : CluIx) : Bool := s.flits.any fun f => f.ownOf c

/-- A buffered store has to wait: for the stores before it, a tile transfer, a port, a send log, or a reduction store of its bytes, and a
release for what comes before it to perform at its scope (R222, R226, R230, R234, R301, R338, R340). -/
def State.dualWaits (s : State) (l : Loc) (n : Nat) (rel : Bool) : Bool :=
  s.storesOpen s.focus || s.bankWait l n || s.sendWait l n || s.logFull s.focus l || s.reductionOpen s.focus l n ||
  (rel && s.releaseWaits s.focus l)

/-- The buffered stores of the primary perform in program order, up to the first that has to wait: those that are left, and the state
(R338). -/
def State.dualPerform (s : State) : List DualStore → List DualStore × State
  | [] => ([], s)
  | st :: rest =>
    match s.xlate s.myCoreIx true s.myCore.secure .write st.va.toNat with
    | (.ok l, t) =>
      if s.dualWaits l st.bytes.length st.rel then (st :: rest, s)
      else (t.storeAt st.va l st.bytes st.cls (pathOf .s st.va.toNat)).dualPerform rest
    | (.refused e, t) => (t.logRefused t.myDieIx e st.va.toNat t.me.lid).dualPerform rest
    | (_, t) => t.dualPerform rest

/-- A cluster becomes idle outside its own issue. -/
def State.retireCluster (s : State) (c : CluIx) : State := (s.modCluster c Cluster.retire).dequeue c

/-- A pair leaves its die. -/
def State.dropPair (s : State) (d : DieIx) (id : Nat) : State :=
  s.modDie d fun x => { x with duals := x.duals.filter fun p => p.id != id }

/-- The primary's EXIT traps: it keeps its record (R262). -/
def State.dualTrap (s : State) (prim : CluIx) (cause : Cause) (v : Nat) : State :=
  (s.modCluster prim fun c => { c with dual := none, waiting := false }).takeTrap prim false false false
    (schedPath cause) cause (word v)

/-- The join decrement of a DUAL record by its primary, a release after its stores, which then retires or traps (R257, R262, R338);
nothing while it has to wait (R230, R234). -/
def State.dualJoin (s : State) (prim : CluIx) (va : Word) : Option State :=
  let e := s.joinErrs va
  match leastErr e.1, e.2.1 with
  | none, .ok l =>
    if s.bankWait l 8 || s.storesOpen prim || s.releaseWaits prim l then none
    else if !(s.badUnits l 8).isEmpty then
      some ((s.noteUnc l 8 (s.cluster prim).lid).dualTrap prim .ecu (va.toNat + s.firstBad l 8 - l.addr))
    else some ((e.2.2.joinDec (coreOf prim) l va).2.retireCluster prim)
  | some (cause, v), _ => some (s.dualTrap prim cause v)
  | none, _ => some (s.retireCluster prim)

/-- The primary of a pair that agrees goes on: its stores perform in program order, then the join decrement, and it retires (R338);
nothing while the first of these that is left has to wait. -/
def State.dualFinish (s : State) (d : DieIx) (p : DualPair) (prim : CluIx) (r : DualRun) : Option State :=
  let q := { s with focus := prim }.dualPerform r.stores
  let left := (q.2.modCluster prim fun c => { c with dual := some { r with stores := q.1 } })
  let onward := if q.1.length = r.stores.length then none else some { left with focus := s.focus }
  if q.1.isEmpty then
    let t := q.2.dropPair d p.id
    match if p.record.join = 0 then some (t.retireCluster prim) else t.dualJoin prim p.record.join with
    | some u => some { u with focus := s.focus }
    | none => onward
  else onward

/-- Both copies agree: the shadow retires and its buffer is discarded, and the primary goes on as far as it can (R338). -/
def State.dualAgree (s : State) (d : DieIx) (p : DualPair) (prim shad : CluIx) (r : DualRun) : State :=
  let q : DualPair := { p with agreed := true, shadow := none }
  let t := (s.modDie d fun x => { x with duals := updFirst (fun y => y.id == p.id) (fun _ => q) x.duals }).retireCluster shad
  (t.dualFinish d q prim r).getD t

/-- A cluster is the primary of a pair that agrees, in the EXIT that completes it (R267, R338). -/
def State.dualEnds (s : State) (c : CluIx) : Bool := (s.die (dieOfClu c)).duals.any fun p => p.agreed && p.primary == some c

/-- The clusters that run a pair. -/
def DualPair.runners (p : DualPair) : List CluIx :=
  (match p.primary with | some c => [c] | none => []) ++ match p.shadow with | some c => [c] | none => []

/-- The copies do not agree, or one has trapped (R338). -/
def State.dualMismatch (s : State) (d : DieIx) (p : DualPair) : State :=
  let s := p.runners.foldl State.retireCluster s
  if p.attempt = 1 then
    let again (q : DualPair) : DualPair :=
      { q with attempt := 2, primary := none, shadow := none, used := q.used ++ p.runners.map coreOf }
    s.modDie d fun x => { x with
      dualFirst := x.dualFirst + 1, duals := updFirst (fun q => q.id == p.id) again x.duals }
  else
    let s := (s.dropPair d p.id).modDie d fun x => { x with dualSecond := x.dualSecond + 1 }
    { s.log d 10 0 p.record.w0 p.record.lid with out := s.out ++ [.faultMessage d] }

/-- A cluster's run of a pair. -/
def State.runOf (s : State) (c : Option CluIx) : Option DualRun := match c with | some c => (s.cluster c).dual | none => none

/-- DUAL_COMPARE (R338). (DEDUCED, log 49) -/
def execDualCompare (die : DieIx) (n : Nat) (s : State) : Result :=
  match (s.die die).duals.find? fun p => p.id = n with
  | none => s.stutter
  | some p =>
    let trapped (r : Option DualRun) : Bool := match r with | some r => r.trapped | none => false
    let a := s.runOf p.primary
    let b := s.runOf p.shadow
    if p.agreed then
      match p.primary, a with
      | some pc, some r => (match s.dualFinish die p pc r with | some s' => .next s' | none => s.stutter)
      | _, _ => s.stutter
    else if trapped a || trapped b then .next (s.dualMismatch die p)
    else match p.primary, p.shadow, a, b with
      | some pc, some sc, some ra, some rb =>
        if !ra.ended || !rb.ended then s.stutter
        else if ra.signature = rb.signature then .next (s.dualAgree die p pc sc ra)
        else .next (s.dualMismatch die p)
      | _, _, _, _ => s.stutter

end Sys2Proof.Machine
end

