-- ==== Sys2Proof/Machine/Series.lean ====
section
/-!
DEFINITION. Series: the Horizon accumulator, its two estimators and one checkpoint of a series (R130 to R135).
-/

namespace Sys2Proof.Machine

/-- a + b in F32 without its flags: the estimator raises none (R128). -/
def hzAdd (a b : W32) : W32 := (fmtF32.add (numF32 a) (numF32 b)).w32
/-- a - b in F32. -/
def hzSub (a b : W32) : W32 := (fmtF32.sub (numF32 a) (numF32 b)).w32
/-- a x b in F32. -/
def hzMul (a b : W32) : W32 := (fmtF32.mul (numF32 a) (numF32 b)).w32
/-- a / b in F32. -/
def hzDiv (a b : W32) : W32 := (fmtF32.div (numF32 a) (numF32 b)).w32
/-- |a|, exact. -/
def hzAbs (a : W32) : W32 := a &&& 0x7FFF_FFFF
/-- a < b; false with a NaN. -/
def hzLt (a b : W32) : Bool := (numF32 a).lt (numF32 b)
/-- a is a zero. -/
def hzZero (a : W32) : Bool := (numF32 a).isZero
/-- 1.0. -/
def hzOne : W32 := 0x3F80_0000

/-- One column of the epsilon table from the two before it; nothing on fallback (R133). -/
def epsColumn (floor : W32) : List W32 → List W32 → Option (List W32)
  | _ :: prev, a :: b :: cur =>
    let dlt := hzSub b a
    if hzZero dlt || !finiteF32 dlt || hzLt (hzAbs dlt) floor then none
    else
      let nxt := hzAdd (prev.headD 0) (hzDiv hzOne dlt)
      if !finiteF32 nxt then none else (epsColumn floor prev (b :: cur)).map (nxt :: ·)
  | _, _ => some []

/-- The columns of the epsilon table, to the last (R133). -/
def epsTable (floor : W32) : Nat → List W32 → List W32 → Option W32
  | 0, _, cur => cur.head?
  | m + 1, prev, cur =>
    match epsColumn floor prev cur with
    | none => none
    | some nxt => epsTable floor m cur nxt

/-- The estimate of EPS on the checkpoints, newest first; nothing on fallback (R133). -/
def epsEstimate (depth : Nat) (floor : W32) (hist : List W32) : Option W32 :=
  let m := min depth (hist.length - 1) / 2 * 2
  let w := (hist.take (m + 1)).reverse
  if m = 0 then hist.head? else epsTable floor m (List.replicate (m + 2) 0) w

/-- The differences of a window, oldest first (R134). -/
def diffs : List W32 → List W32
  | a :: b :: rest => hzSub b a :: diffs (b :: rest)
  | _ => []

/-- The sums num and den over neighbouring differences (R134). -/
def mixSums : List W32 → W32 × W32 → W32 × W32
  | d0 :: d1 :: rest, (num, den) => mixSums (d1 :: rest) (hzAdd num (hzMul d1 d0), hzAdd den (hzMul d0 d0))
  | _, r => r

/-- The estimate of MIX; nothing on fallback (R134).  1 - 2^-24 is the greatest F32 below 1. -/
def mixEstimate (depth : Nat) (floor : W32) (hist : List W32) : Option W32 :=
  let m := min depth (hist.length - 1)
  if m < 2 then hist.head?
  else
    let d := diffs (hist.take (m + 1)).reverse
    let (num, den) := mixSums d (0, 0)
    if hzZero den || hzLt den (hzMul floor floor) || !finiteF32 num || !finiteF32 den then none
    else
      let rho := hzDiv num den
      let rho := if hzLt rho 0 then 0 else rho
      let rho := if hzLt 0x3F7F_FFFF rho then 0x3F7F_FFFF else rho
      let q := hzDiv rho (hzSub hzOne rho)
      let t := hzAdd (hist.headD 0) (hzMul (d.getLastD 0) q)
      if finiteF32 t then some t else none

/-- A series takes no more checkpoints (R132). -/
def Series.closed (x : Series) (cfg : SeriesCfg) : Bool := x.conv || cfg.maxc ≤ x.n

/-- The result of a series (R132). -/
def Series.result (x : Series) : W32 := if x.conv then x.t else x.s

/-- A NaN becomes the canonical one (R104). -/
def canonF32 (v : W32) : W32 := if (numF32 v).isNan then BitVec.ofNat 32 fmtF32.qnan else v

/-- One checkpoint of a series (R132); a closed series is unchanged.  Of a NaN no payload or sign goes further (R104). -/
def Series.checkpoint (cfg : SeriesCfg) (x : Series) (v : W32) : Series :=
  if x.closed cfg then x
  else
    let v := canonF32 v
    let n := x.n + 1
    let hist := (v :: x.hist).take (cfg.depth + 1)
    let est := if cfg.mode = 0 ∨ !finiteF32 v then some v
      else if cfg.mode = 1 then epsEstimate cfg.depth cfg.floor hist else mixEstimate cfg.depth cfg.floor hist
    let t := est.getD v
    let nzd := x.nzd || est.isNone
    let tests := cfg.mode != 0 && 2 ≤ n && cfg.minc ≤ n && finiteF32 v
    let dT := hzAbs (hzSub t x.t)
    let dS := hzAbs (hzSub v x.s)
    let rel := hzMul cfg.rtol (hzAbs t)
    let tol := if hzLt cfg.atol rel then rel else cfg.atol
    let settled := tests && !(numF32 dT).isNan && !hzLt tol dT
    let moving := hzLt cfg.stagt dS
    let conv := settled && !moving
    { n := n, s := v, t := t, hist := hist, nzd := nzd, conv := conv, stag := x.stag || (settled && moving)
      lim := x.lim || (!conv && n == cfg.maxc && cfg.mode != 0) }

/-- The parameters of a slot (R131). -/
def HzSlot.cfg (h : HzSlot) : SeriesCfg where
  mode := bits h.ctl 8 2
  depth := bits h.ctl 12 4
  minc := bits h.ctl 16 8
  maxc := bits h.ctl 24 8
  atol := (h.tol >>> 32).setWidth 32
  rtol := h.tol.setWidth 32
  floor := (h.lim >>> 32).setWidth 32
  stagt := h.lim.setWidth 32

/-- FLAGS of a series: LIM STAG NZD CONV from bit 3 down (R131, R159). -/
def Series.flags (x : Series) : Nat := packNat [(3, flagNat x.lim), (2, flagNat x.stag), (1, flagNat x.nzd), (0, flagNat x.conv)]

/-- A tolerance or floor is finite and not negative (R130). -/
def hzFiniteOk (c : W32) : Bool := finiteF32 c && !c.getLsbD 31

/-- The parameters obey R130. -/
def SeriesCfg.ok (c : SeriesCfg) : Bool :=
  c.mode ≤ 2 && 1 ≤ c.minc && c.minc ≤ c.maxc && c.maxc ≤ 255 &&
  (match c.mode with
    | 0 => c.depth == 0
    | 1 => c.depth == 2 || c.depth == 4 || c.depth == 6
    | _ => 3 ≤ c.depth && c.depth ≤ 8) &&
  hzFiniteOk c.atol && hzFiniteOk c.rtol && hzFiniteOk c.floor && !c.stagt.getLsbD 31 && !(numF32 c.stagt).isNan

end Sys2Proof.Machine
end

