-- ==== Sys2Proof/Machine/Lanes.lean ====
section
/-!
DEFINITION. Lanes: the lane macro-instructions and their checks (R270 to R275, R283 to R291).
-/

namespace Sys2Proof.Machine

/-- The lanes of a stack die changed. -/
def State.modLanes (s : State) (d : DieIx) (f : Lanes → Lanes) : State := s.modDie d fun x => { x with lanes := f x.lanes }

/-- The lanes of the die of the cluster that issues. -/
def State.myLanes (s : State) : Lanes := s.myDie.lanes

/-- A word of major 0x32: AUT on a hub core (R28, R284). -/
def State.onLanes (s : State) (act : State) : Result := .next (if isHub s.myDieIx then s.trapFree .aut else act)

/-! ### The format table (R270 to R272) -/

/-- An entry of plane p, as the lanes hold it. -/
def Lanes.entry (x : Lanes) (p : Bool) (e : Nat) : FmtEntry := vget (if p then x.plane1 else x.plane0) e FmtEntry.reset

/-- An entry of the plane active in the issue view. -/
def Lanes.issueEntry (x : Lanes) (e : Nat) : FmtEntry := vget (if x.issApl then x.iss1 else x.iss0) e FmtEntry.reset

/-- An entry of the lanes' shadow plane written; its words are good again (R323). -/
def Lanes.setShadow (x : Lanes) (e : Nat) (v : FmtEntry) : Lanes :=
  let x := { x with fmtBad := x.fmtBad.filter fun b => b.1 != (if x.apl then e else e + 64) }
  if x.apl then { x with plane0 := vset x.plane0 e v } else { x with plane1 := vset x.plane1 e v }

/-- The uncorrectable words of an entry of a plane (R318). -/
def Lanes.entryBad (x : Lanes) (p : Bool) (e : Nat) : List (Nat × Nat) :=
  x.fmtBad.filter fun b => b.1 == if p then e + 64 else e

/-- An entry of the issue view's shadow plane written. -/
def Lanes.setIssueShadow (x : Lanes) (e : Nat) (v : FmtEntry) : Lanes :=
  if x.issApl then { x with iss0 := vset x.iss0 e v } else { x with iss1 := vset x.iss1 e v }

/-- NPL of an entry (R270). -/
def FmtEntry.npl (e : FmtEntry) : Nat := bits e.ctl 20 4
/-- Elements of an activation block, kb (R270 ABLK). -/
def FmtEntry.block (e : FmtEntry) : Nat := if bit e.ctl 0 then 64 else 32

/-- The series parameters of an entry (R269, R270). -/
def FmtEntry.cfg (e : FmtEntry) : SeriesCfg where
  mode := bits e.ctl 4 2
  depth := bits e.ctl 8 4
  minc := bits e.ctl 12 4
  maxc := bits e.ctl 16 4
  atol := (e.tol >>> 32).setWidth 32
  rtol := e.tol.setWidth 32
  floor := (e.lim >>> 32).setWidth 32
  stagt := e.lim.setWidth 32

/-- Bits of FTCTL that are not reserved, IDX among them (R270). -/
def fmtMask : Nat := maskAt 58 6 + maskAt 8 16 + maskAt 4 2 + 1

/-- The values of an entry obey R270, R130 and R285. -/
def FmtEntry.ok (e : FmtEntry) : Bool :=
  2 ≤ e.npl && e.npl ≤ 8 && e.cfg.maxc ≤ e.npl && e.cfg.ok

/-- A tolerance scaled by 2^TSH and rounded (R288). -/
def shiftTol (tsh : Int) (c : W32) : W32 := (fmtF32.ofNum false ((numF32 c).scale tsh)).w32

/-- The parameters of an entry under the Horizon defaults (R269, R288). -/
def FmtEntry.cfgUnder (e : FmtEntry) (hzdef : Word) : SeriesCfg :=
  let tsh := sextNat (bits hzdef 8 8) 8
  let c := { e.cfg with atol := shiftTol tsh e.cfg.atol, rtol := shiftTol tsh e.cfg.rtol }
  match bits hzdef 0 2 with
  | 1 => { c with mode := 0, maxc := e.npl }
  | 2 => { c with minc := c.maxc }
  | _ => c

/-! ### Entering the issue buffer (R273, R275) -/

/-- A macro of the cluster that issues, with nothing done of it. -/
def State.newMacro (s : State) (kind : LKind) (o : Cls) (gd ga gb : Word) : LMacro where
  seq := s.serial
  cl := s.focus
  cls := o
  kind := kind
  gd := gd
  ga := ga
  gb := gb
  entry := FmtEntry.reset
  hzdef := s.myLanes.issHzdef
  rmode := bits s.myLanes.issRmode 0 2
  obj := none
  dring := none
  dbase := 0
  fe := 0
  feBad := false
  results := []
  delivered := []
  landed := false
  flags := 0
  replays := []

/-- The waits for room in the issue buffer that stand before the cluster that issues: those that began earlier, or all of them where it
does not wait yet (R93, R273). -/
def State.laneAhead (s : State) : List (CluIx × Nat) :=
  (s.myLanes.waiters.filter fun w => (s.cluster w.1).since == w.2).takeWhile fun w => w != (s.focus, s.me.since)

/-- The issue buffer of 32 macros is full, but for places that earlier waits will take: the macro waits at issue (R273). -/
def State.laneFull (s : State) : Bool := decide (32 ≤ s.myLanes.buf.length + s.laneAhead.length)

/-- The cluster that issues enters the queue for room in the issue buffer, once, and waits as RCLAIM waits (R93, R273). -/
def State.laneWait (s : State) : State :=
  let w := s.waitNumber
  let ahead := s.myLanes.waiters.filter fun v => (s.cluster v.1).since == v.2
  if ahead.contains (s.focus, w.1) then s.stall
  else (w.2.modLanes s.myDieIx fun x => { x with waiters := ahead ++ [(s.focus, w.1)] }).stall

/-- A macro enters the issue buffer and counts in its interval (R273, R275), and its word completes. -/
def State.lanePush (s : State) (m : LMacro) (f : Lanes → Lanes) : State :=
  ((s.modLanes s.myDieIx fun x => f { x with
      buf := x.buf ++ [{ m with seq := s.serial }]
      waiters := x.waiters.filter fun w => w != (s.focus, s.me.since)
      intv := if m.kind = .lsafe then 0 else x.intv + 1 }).tick).advance

/-- PATH of a cause of a lane macro: L where an access failed (R45). -/
def lanePath : Cause → Nat
  | .aln | .xlt | .prm => Path.code .l
  | _ => noPath

/-- The least cause of a list, or the macro goes on (R52). -/
def State.laneChecked (s : State) (errs : List (Cause × Nat)) (otherwise : State) : State :=
  match leastErr errs with
  | some (cause, v) => s.trap cause (word v) (lanePath cause)
  | none => otherwise

/-- The cause of the lowest number of a list, and of several the one listed first (R52, R287). -/
def firstErr : List (Cause × Nat) → Option (Cause × Nat)
  | [] => none
  | x :: xs => match firstErr xs with
    | none => some x
    | some y => if x.1.code ≤ y.1.code then some x else some y

/-- The bytes of a scratchpad operand of a lane macro that are in range, for the check of their world (R312). -/
def State.laneBarred (s : State) (rs : List (Nat × Nat)) : List (Cause × Nat) × State :=
  let cap := spadBytes s.myCoreIx
  let w := s.spadBarred s.myCoreIx (rs.filterMap fun r => if r.1 < cap then some (r.1, min cap r.2) else none)
  ((match w.1 with | some b => [(.prm, b)] | none => []), w.2)

/-- The interval holds 256 counted macros already (R275). -/
def State.intervalErr (s : State) : List (Cause × Nat) := errIf (decide (256 ≤ s.myLanes.intv)) .lch 0x608

/-- A macro without a memory access: its checks, then room in the buffer. -/
def State.laneQueue (s : State) (errs : List (Cause × Nat)) (m : LMacro) (f : Lanes → Lanes) : Result :=
  s.onLanes (s.laneChecked errs (if s.laneFull then s.laneWait else s.lanePush m f))

/-- LFMT (R272, R285). -/
def execLfmt (d a b : Reg) (s : State) : Result :=
  let gd := s.g d
  let e : FmtEntry := ⟨word (bits gd 0 58), s.g a, s.g b⟩
  s.laneQueue (errIf (outside gd fmtMask) .lch 0x601 ++ errIf (!e.ok) .lch 0x60A ++ s.intervalErr)
    { s.newMacro .lfmt 0 gd (s.g a) (s.g b) with entry := e } fun x => x.setIssueShadow (bits gd 58 6) e

/-- LHZC (R288). -/
def execLhzc (a : Reg) (s : State) : Result :=
  let ga := s.g a
  let tsh := sextNat (bits ga 8 8) 8
  s.laneQueue (errIf (outside ga (maskAt 8 8 + 3)) .lch 0x601 ++
      errIf (bits ga 0 2 == 3 || decide (tsh < -32 ∨ 31 < tsh)) .lch 0x60A ++ s.intervalErr)
    (s.newMacro .lhzc 0 0 ga 0) fun x => { x with issHzdef := ga }

/-- LRTGT (R289). -/
def execLrtgt (a : Reg) (s : State) : Result :=
  let ga := s.g a
  s.laneQueue (errIf (outside ga 3) .lch 0x601 ++ errIf (bits ga 0 2 == 3) .lch 0x60A ++ s.intervalErr)
    (s.newMacro .lrtgt 0 0 ga 0) fun x => { x with issRmode := ga }

/-- LRSYNC (R272, R274, R290); register 0 names no operand and reads as SWAP = 0. -/
def execLrsync (a : Reg) (s : State) : Result :=
  let ga := s.g a
  s.laneQueue (errIf (outside ga 1) .lch 0x601 ++ s.intervalErr) (s.newMacro .lrsync 0 0 ga 0) fun x =>
    { x with issApl := x.issApl != bit ga 0 }

/-- LSAFE (R275): never counted and never refused. -/
def execLsafe (s : State) : Result := s.laneQueue [] (s.newMacro .lsafe 0 0 0 0) id

/-! ### LMCST (R286) -/

/-- Bytes of an activation vector of L elements in blocks of kb (R286). -/
def vectorBytes (len kb : Nat) : Nat := len / kb * (kb + 1)

/-- Lanes an LMCST names: the first, and how many. -/
def LMacro.mcstLanes (m : LMacro) : Nat × Nat := (bits m.gb 54 10, 2 ^ bits m.gb 50 4)
/-- Bytes that each lane receives. -/
def LMacro.mcstBytes (m : LMacro) : Nat := vectorBytes (64 * bits m.gb 36 12) (if bit m.gb 35 then 64 else 32)
/-- Scratchpad address of the source. -/
def LMacro.mcstSrc (m : LMacro) : Nat := bits m.ga 0 24
/-- Buffer slot. -/
def LMacro.mcstSlot (m : LMacro) : Nat := bits m.gb 48 2

/-- LMCST (R241, R286, R312): with LC = 0 there is no source byte. (DEDUCED, log 33) -/
def execLmcst (a b : Reg) (o : Cls) (s : State) : Result :=
  let m := s.newMacro .lmcst o 0 (s.g a) (s.g b)
  let lanes := m.mcstLanes
  let lc := bits m.gb 36 12
  let cap := spadBytes s.myCoreIx
  let n := m.mcstBytes * lanes.2
  let w := if isHub s.myDieIx then ([], s) else s.laneBarred [(m.mcstSrc, m.mcstSrc + n)]
  let s := w.2
  s.onLanes (s.laneChecked (
      errIf (decide (n ≠ 0 ∧ cap < m.mcstSrc + n)) .xlt (max m.mcstSrc cap) ++ w.1 ++
      errIf (outside m.ga (maskAt 0 24) || outside m.gb (maskAt 35 29)) .lch 0x601 ++
      errIf (decide (lc = 0 ∨ 64 < lc ∨ lanes.1 % lanes.2 ≠ 0 ∨ s.myDie.lanesN < lanes.1 + lanes.2 ∨
        8192 < 2048 * m.mcstSlot + m.mcstBytes)) .lch 0x606 ++ s.intervalErr) (
    if s.me.gated .l o then s.stall else if s.laneFull then s.laneWait else s.lanePush m id))

/-! ### LDOT (R271, R287) -/

/-- Bytes of a result: 2 in the BF16 mode (R287). -/
def LMacro.esz (m : LMacro) : Nat := if m.rmode = 2 then 2 else 4
/-- ROW0. -/
def LMacro.row0 (m : LMacro) : Nat := bits m.ga 0 32
/-- HANDLE. -/
def LMacro.handle (m : LMacro) : W32 := BitVec.ofNat 32 (bits m.ga 32 32)
/-- VSTR. -/
def LMacro.vstr (m : LMacro) : Nat := bits m.gd 24 16
/-- The address of the result of row ROW0 + j and vector v. -/
def LMacro.resultAddr (m : LMacro) (j v : Nat) : Nat := m.dbase + m.esz * (j + m.vstr * v)

/-- The entry that an LDOT selects (R271); nothing when its loop level is not active. -/
def LMacro.select (m : LMacro) (loops : Loops) : Option Nat :=
  let fe := bits m.gb 35 6
  let k := bits m.gb 41 2
  if !bit m.gb 43 then some fe
  else if k < loops.depth then some ((fe + 64 - (vget loops.cnt k 0).toNat % 64) % 64)
  else none

/-- The tensor of an LDOT, or why it is refused: checks 3, 5 and 6 of R287, made in the order of R309. -/
def State.laneObject (s : State) (h : W32) : Except (Cause × Nat) Obj × State :=
  let secure := s.myCore.secure
  let bad : Except (Cause × Nat) Obj := .error (.hdl, h.toNat)
  if h.getLsbD 23 then
    match s.importEntry s.myCoreIx (nbits h.toNat 0 23) with
    | (some e, s) => (if bits e 32 8 ≠ nbits h.toNat 24 8 then bad else .error (.lch, 0x603), s)
    | (none, s) => (bad, s)
  else match s.localHandle s.myCoreIx h true with
    | (none, s) => (bad, s)
    | (some o, s) =>
      if o.cls ≠ 1 then (.error (.lch, 0x602), s)
      else
        let w := s.objWorldOk o secure
        (if w.1 then .ok o else bad, w.2)

/-- Checks 1 and 2 of R287, on the addresses of the results. -/
def LMacro.addrErrs (m : LMacro) (cap : Nat) : List (Cause × Nat) :=
  errIf (m.dbase % m.esz != 0) .aln m.dbase ++
  ((m.vectors.filterMap fun v =>
      let lo := m.resultAddr 0 v
      if cap < lo + m.esz * m.rows then some (max lo cap) else none).foldl
    (fun acc a => match acc with | [] => [(Cause.xlt, a)] | (k, b) :: _ => [(k, min a b)]) [])

/-- Check 8 of R287: no vector is named, or one passes the end of the buffer. -/
def LMacro.vectorsBad (m : LMacro) (len : Nat) (entry : Option FmtEntry) : Bool :=
  m.vectors.isEmpty || match entry with
    | some e => m.vectors.any fun v => decide (8192 < 2048 * v + vectorBytes len e.block)
    | none => false

/-- Check 12 of R287. -/
def LMacro.ringErrs (m : LMacro) (ring : Option Ring) (off : Nat) : List (Cause × Nat) :=
  match ring with
  | none => []
  | some r =>
    if !r.enabled then [(.rng, 1)]
    else errIf (m.vectors.any fun v => decide (r.size < off + m.esz * (m.rows + m.vstr * v))) .rng 7

/-- Checks 4 to 11 of R287, after the tensor's own. -/
def State.ldotErrs (s : State) (m : LMacro) (ob : Except (Cause × Nat) Obj) (entry : Option FmtEntry) : List (Cause × Nat) :=
  errIf (outside m.gb (maskAt 35 29) || outside m.gd (maskAt 24 40 + maskAt 7 1)) .lch 0x601 ++
  (match ob with
    | .error e => [e]
    | .ok o => errIf (decide (o.rows < m.row0 + m.rows)) .lch 0x604) ++
  errIf (m.vectorsBad (match ob with | .ok o => o.sliceLen | .error _ => 0) entry) .lch 0x606 ++
  (match entry with
    | none => [(.lch, 0x607)]
    | some e => errIf (match ob with | .ok o => e.npl == 0 || e.npl != o.npl | .error _ => e.npl == 0) .lch 0x605) ++
  s.intervalErr

/-- LDOT (R241, R271, R272, R287). -/
def execLdot (d a b : Reg) (o : Cls) (s : State) : Result :=
  let gd := s.g d
  let m := s.newMacro .ldot o gd (s.g a) (s.g b)
  let rk := bits gd 58 6
  let off := bits gd 40 18
  let ring := if bit gd 7 then some (s.myCore.ring rk) else none
  let m := { m with
    dring := ring.map fun r => ⟨rk, r.clm⟩
    dbase := match ring with | some r => r.addr r.clm + off | none => bits gd 40 24 }
  s.onLanes (
    if m.rows = 0 then s.advance
    else
      let placed := match ring with | some r => r.enabled | none => true
      let ob := s.laneObject m.handle
      let entry := (m.select s.me.loops).map s.myLanes.issueEntry
      let w := ob.2.laneBarred (if placed then m.vectors.map fun v => (m.resultAddr 0 v, m.resultAddr m.rows v) else [])
      let errs := (if placed then m.addrErrs (spadBytes s.myCoreIx) ++ w.1 else []) ++ s.ldotErrs m ob.1 entry ++ m.ringErrs ring off
      match firstErr errs with
      | some (cause, v) => w.2.trap cause (word v) (lanePath cause)
      | none =>
        if s.me.gated .l o then s.stall
        else if s.laneFull then s.laneWait
        else
          let m := { m with entry := entry.getD FmtEntry.reset, fe := (m.select s.me.loops).getD 0, obj := match ob.1 with | .ok x => some x | .error _ => none }
          match m.dring with
          | none => w.2.lanePush m id
          | some r =>
            if s.ringGrants s.myCoreIx r.k s.myWaiter then (w.2.ringClaim s.myCoreIx r.k s.myWaiter).2.lanePush m id
            else s.ringWait r.k)

/-! ### Reports (R283, R291) -/

/-- Some earlier LDOT of the cluster that issues has results to deliver. -/
def State.ldotPending (s : State) : Bool :=
  (s.myLanes.buf ++ s.myLanes.live ++ s.myLanes.tail).any fun m => m.kind == .ldot && m.accessing && m.cl == s.focus

/-- LHZSUM (R283). -/
def Lanes.hzsum (x : Lanes) : Word := packWord [(48, x.hzConv), (32, x.hzStag), (16, x.hzNzd), (0, x.hzLim)]

/-- LPLH (R283). -/
def Lanes.planeCounts (x : Lanes) : Word := packWord ((List.range 8).map fun p => (8 * p, vget x.lplh p 0))

/-- A report register, by the number of LPOLL (R291). -/
def Lanes.report (x : Lanes) : Nat → Word
  | 0 => word x.lpois
  | 1 => x.lpfirst
  | 2 => x.hzsum
  | _ => x.planeCounts

/-- LPOLL (R291). -/
def execLpoll (d a : Reg) (s : State) : Result :=
  let ga := s.g a
  s.onLanes (s.laneChecked (errIf (outside ga 0x103) .lch 0x601) (
    if !bit ga 8 && s.ldotPending then s.stall else s.finish d (s.myLanes.report (bits ga 0 2))))

/-- The reports cleared; LPCNT is kept (R283, R291). -/
def Lanes.clearReports (x : Lanes) : Lanes :=
  { x with
    lpois := 0, lpfirst := 0, hzConv := 0, hzStag := 0, hzNzd := 0, hzLim := 0, lplh := Vector.replicate 8 0 }

/-- LCLR (R291). -/
def execLclr (s : State) : Result :=
  s.onLanes (if s.ldotPending then s.stall else (s.modLanes s.myDieIx Lanes.clearReports).advance)

/-- LSTAT (R291): the table as the lanes hold it, poison in place of a word that cannot be corrected, which is counted and logged
(R318, R323; the place of a table word is its number, DEDUCED, log 18). -/
def execLstat (d a : Reg) (s : State) : Result :=
  let ga := s.g a
  let e := s.myLanes.entry (bit ga 12) (bits ga 6 6)
  s.onLanes (s.laneChecked (errIf (outside ga 0x1FC3) .lch 0x601 ++ errIf (bits ga 0 2 == 3) .lch 0x60A) (
    let i := bits ga 0 2
    if (s.myLanes.entryBad (bit ga 12) (bits ga 6 6)).any fun b => b.2 == i then
      (((s.countUnc s.myDieIx 1).log s.myDieIx 4 0 (word (3 * bits ga 6 6 + i)) s.me.lid).countPoison s.myDieIx 1).finish d
        Config.poisonWord
    else s.finish d (match i with | 0 => e.ctl | 1 => e.tol | _ => e.lim)))

end Sys2Proof.Machine
end

