-- ==== Sys2Proof/Machine/LanesRun.lean ====
section
/-!
DEFINITION. LanesRun: broadcast, the lanes, the reduction tree, safe points, the watchdog and replay (R119 to R122, R135,
R268, R269, R272 to R275, R286 to R289, R322).
-/

namespace Sys2Proof.Machine

/-! ### Arithmetic of a slice (R108, R110, R119 to R121) -/

/-- Two bytes of a list as a number, low byte first. -/
def halfAt (bs : List Byte) (a : Nat) : Nat := leNat ((bs.drop a).take 2)

/-- The scale of an MXINT8 block: 2^(e - 127), or a NaN (R108). -/
def scaleNum (e : Byte) : Num := if e = 0xFF then .nan false else .fin false 1 ((e.toNat : Int) - 127)

/-- The prefix of p planes of weight i of a slice, q_p (R110, R111). -/
def prefixCode (data : List Byte) (len i p : Nat) : Nat :=
  (List.range p).foldl (fun q j =>
    2 * q + flagNat ((data.getD (32 * ceilDiv len 1024 + j * len / 8 + i / 8) 0).getLsbD (i % 8))) 0

/-- The term of element n of activation block h in G_h(p), (2 q_p - 2^p + 1) c: its product but for the scales (R119). -/
def laneTerm (data act : List Byte) (len kb h p n : Nat) : Int :=
  (2 * (prefixCode data len (h * kb + n) p : Int) - 2 ^ p + 1) * sextNat ((act.getD (h * (kb + 1) + n) 0).toNat) 8

/-- G_h(p) of R119, in its form as a sum over the elements of an activation block. -/
def blockSum (data act : List Byte) (len kb h p : Nat) : Int :=
  (List.range (min kb 64)).foldl (fun acc n => acc + laneTerm data act len kb h p n) 0

/-- Weight block b has products of both signs (R124). -/
def bothSigns (data act : List Byte) (len kb b p : Nat) : Bool :=
  let ts := (iota (b * (64 / kb)) (64 / kb)).flatMap fun h => (List.range kb).map (laneTerm data act len kb h p)
  ts.any (0 < ·) && ts.any (· < 0)

/-- The sum over the activation blocks of weight block b of X_h G_h(p); an exact zero is +0 (R119, R121). -/
def weightedSum (data act : List Byte) (len kb b p : Nat) : Num :=
  let hs := iota (b * (64 / kb)) (64 / kb)
  let xs := hs.map fun h => scaleNum (act.getD (h * (kb + 1) + kb) 0)
  if xs.any Num.isNan then .nan false
  else
    let d := (List.zip hs xs).foldl (fun acc r =>
      acc.add (match r.2 with | .fin _ _ e => ⟨blockSum data act len kb r.1 p, e⟩ | _ => Dyadic.zero)) Dyadic.zero
    .fin (d.i < 0) d.i.natAbs d.e

/-- f_b(p) of R119 and R121, with its flags.  Under an infinite scale products of both signs are infinities of both signs, and give the
NaN of R124, whatever the sum over h; of one sign, they give the infinity of R121 (DEDUCED, log 62). -/
def blockValue (data act : List Byte) (len kb b p : Nat) : Rounded :=
  let g := fmtBF16.decode (halfAt data (2 * b))
  let sum := weightedSum data act len kb b p
  let r : Num × Flags := match g with
    | .inf _ => if !sum.isNan && bothSigns data act len kb b p then (.nan false, flagNV) else g.mul sum
    | _ => g.mul sum
  fmtF32.close (r.1.scale (-(p : Int) - 6), r.2)

/-- P(p) of R120, with its flags. -/
def slicePartial (data act : List Byte) (len kb p : Nat) : W32 × Flags :=
  let f0 := blockValue data act len kb 0 p
  (iota 1 (len / 64 - 1)).foldl (fun acc b =>
    let f := blockValue data act len kb b p
    let r := addF32 acc.1 f.w32
    (r.1, acc.2 ||| f.flags ||| r.2)) (f0.w32, f0.flags)

/-- Neighbouring values of a level of the reduction tree added (R122). -/
def treePairs : List W32 → List W32 × Flags
  | a :: b :: rest =>
    let r := addF32 a b
    let t := treePairs rest
    (r.1 :: t.1, r.2 ||| t.2)
  | xs => (xs, 0)

/-- The reduction tree over n levels (R122). -/
def reduceTree : Nat → List W32 → W32 × Flags
  | 0, xs => (xs.headD 0, 0)
  | n + 1, xs =>
    let l := treePairs xs
    let r := reduceTree n l.1
    (r.1, l.2 ||| r.2)

/-! ### Progress of the lanes (R273) -/

/-- The number of macros a lane has completed, done(l). -/
def Lanes.doneOf (x : Lanes) (l : Nat) : Nat := vget x.done l 0

/-- The least done(l) over n working lanes. -/
def Lanes.least (x : Lanes) (n : Nat) : Nat := (x.done.toList.take n).foldl min (x.doneOf 0)
/-- The greatest done(l). -/
def Lanes.most (x : Lanes) (n : Nat) : Nat := (x.done.toList.take n).foldl max 0

/-- Occupancy of a lane's queue. -/
def Lanes.queued (x : Lanes) (l : Nat) : Nat := x.base + x.live.length - x.doneOf l

/-- The macro at the head of a lane's queue. -/
def Lanes.head (x : Lanes) (l : Nat) : Option LMacro := x.live[x.doneOf l - x.base]?

/-- An undrained LRSYNC has been broadcast (R274). -/
def Lanes.syncing (x : Lanes) : Bool := x.live.any fun m => m.kind == .lrsync

/-- Broadcasting may go on: no lane queue holds 64 entries, the drift is below 48, and no LRSYNC is undrained (R273, R274). -/
def Lanes.mayBroadcast (x : Lanes) (n : Nat) : Bool :=
  !x.stopped && !x.syncing && x.base + x.live.length < x.least n + 64 && x.most n < x.least n + 48

/-- The words of the entry that an LDOT uses and that cannot be corrected, as it is broadcast (R272, R318). -/
def Lanes.macroBad (x : Lanes) (m : LMacro) : List (Nat × Nat) := if m.kind == .ldot then x.entryBad x.apl m.fe else []

/-- What a macro does at its place in broadcast order (R272, R285, R288, R289). -/
def Lanes.broadcast (x : Lanes) (m : LMacro) : Lanes :=
  match m.kind with
  | .lfmt => x.setShadow (bits m.gd 58 6) m.entry
  | .lhzc => { x with lhzdef := m.ga }
  | .lrtgt => { x with lrmode := m.ga }
  | _ => x

/-- MACRO_BROADCAST (R273).  An LDOT whose format entry cannot be corrected has poison for its results (R318, R323; DEDUCED,
log 67). -/
def execMacroBroadcast (die : DieIx) (s : State) : Result :=
  let x := (s.die die).lanes
  match x.buf with
  | [] => s.stutter
  | m :: rest =>
    if x.mayBroadcast (s.die die).lanesN then
      let bad := x.macroBad m
      let s := bad.foldl (fun acc b => (acc.countUnc die 1).log die 4 0 (word (3 * m.fe + b.2)) (acc.cluster m.cl).lid) s
      .next (s.modLanes die fun x => { x.broadcast m with buf := rest, live := x.live ++ [{ m with feBad := !bad.isEmpty }] })
    else s.stutter

/-- Macros that every lane has completed leave the queues; an LDOT with results to deliver waits in the tree. -/
def Lanes.shift (n : Nat) : Nat → Lanes → Lanes
  | 0, x => x
  | fuel + 1, x =>
    match x.live with
    | [] => x
    | m :: rest =>
      if x.base < x.least n then
        Lanes.shift n fuel { x with live := rest, base := x.base + 1, tail := if m.accessing then x.tail ++ [m] else x.tail }
      else x

/-- A lane completes the macro at its head. -/
def State.laneComplete (s : State) (d : DieIx) (l : Nat) : State :=
  s.modLanes d fun x =>
    Lanes.shift (s.die d).lanesN (x.live.length) { x with
      done := vset x.done l (x.doneOf l + 1), runs := x.runs.filter fun r => r.lane != l }

/-! ### Slices (R268, R269, R135) -/

/-- Slice number of a lane in an object's rows, where it holds one. -/
def Obj.sliceIn (o : Obj) (l : Nat) : Option Nat := if o.lb ≤ l ∧ l < o.lb + 2 ^ o.spl then some (l - o.lb) else none

/-- A lane may read: its stack is not stopped, and its column is not being moved, and not at level 3 unless it runs at half
duty (R282). -/
def State.laneRuns (s : State) (d : DieIx) (l : Nat) : Bool :=
  !(s.die d).lanes.stopped && l < (s.die d).lanesN && (match (s.die d).mig with | some m => m.col != l / 8 | none => true) &&
    ((lookupNat (l / 8) (s.die d).levels).getD 0 < 3 || (s.die d).halfDuty.contains (l / 8))

/-- A result of row `row` and vector v has been delivered. -/
def LMacro.isDelivered (m : LMacro) (row v : Nat) : Bool := m.delivered.contains (4 * row + v)

/-- The next row, from a row on, with a result that a lane must still form: not delivered and not in the tree. -/
def LMacro.nextRow (m : LMacro) (k row : Nat) : Option Nat :=
  (iota row (m.rows - row)).find? fun i => m.vectors.any fun v =>
    !m.isDelivered i v && !m.results.any fun r => r.row == i && r.k == k && r.v == v

/-- A lane at the start of a slice. -/
def LMacro.freshRun (m : LMacro) (l row : Nat) : LaneRun :=
  ⟨l, row, 0, [], m.vectors.map fun _ => Series.reset, m.vectors.map fun _ => 0⟩

/-- The failed data beats of the frames that a lane's read moves are counted once in UNC and logged with kind 2, whether or not the
lane reads a byte of them (R269, R319). -/
def State.countBeats (s : State) (d : DieIx) (a n lid : Nat) : State :=
  (((s.framesMoved d a n).flatMap fun f => iota (8 * f) 8).filter fun b => (s.die d).dramBad.contains b || s.beatFails d b).foldl
    (fun acc b => (acc.countUnc d 1).log d 2 0 (acc.logWhere d (b * 128)) lid) s

/-- The one or two pieces of n bytes at y of a share, whose MiB are contiguous. -/
def shareCuts (y n : Nat) : List (Nat × Nat) :=
  let k := min n (2 ^ 20 - y % 2 ^ 20)
  (y, k) :: if k < n then [(y + k, n - k)] else []

/-- Bytes of a lane's share of an object read by the lane: they, whether a beat that holds one of them fails, and the state after it
(R242, R269, R277, R319). -/
def State.shareRead (s : State) (o : Obj) (l y n lid : Nat) : List Byte × Bool × State :=
  (shareCuts y n).foldl (fun acc c =>
    let p : Loc := .dram o.die (o.shareAddr l c.1)
    let t := acc.2.2
    (acc.1 ++ t.peek p c.2, acc.2.1 || !(t.badWords p c.2).isEmpty, (t.countBeats o.die p.addr c.2 lid).readDram p c.2))
    ([], false, s)

/-- A macro of the lanes with a number, changed. -/
def Lanes.modMacro (x : Lanes) (n : Nat) (f : LMacro → LMacro) : Lanes :=
  { x with live := updFirst (fun m => m.seq == n) f x.live, tail := updFirst (fun m => m.seq == n) f x.tail }

/-- A macro that has been broadcast, by its number. -/
def Lanes.macro? (x : Lanes) (n : Nat) : Option LMacro := (x.tail ++ x.live).find? fun m => m.seq == n

/-- The run of a lane replaced. -/
def Lanes.setRun (x : Lanes) (r : LaneRun) : Lanes := { x with runs := r :: x.runs.filter fun q => q.lane != r.lane }

/-- A slice ends: its results go to the reduction tree, and the lane turns to its next row or completes the macro. -/
def State.sliceEnd (s : State) (d : DieIx) (m : LMacro) (k : Nat) (r : LaneRun) (poison : Bool) : State :=
  let rs : List SliceRes := (m.vectors.zip (r.sers.zip r.flags)).map fun q =>
    ⟨r.row, k, q.1, q.2.1.result, r.p, q.2.1, poison, q.2.2⟩
  let rs := rs.filter fun q => !m.isDelivered q.row q.v
  let s := s.modLanes d fun x => x.modMacro m.seq fun y => { y with results := y.results ++ rs }
  match m.nextRow k (r.row + 1) with
  | some i => s.modLanes d fun x => x.setRun (m.freshRun r.lane i)
  | none => s.laneComplete d r.lane

/-- LANE_MACRO_RUN (R269, R273): the macro at the head of a lane's queue starts in it, or is completed by a lane that it does
not name; an LMCST is complete in a lane that holds its bytes. -/
def execLaneMacroRun (die : DieIx) (lane : Nat) (s : State) : Result :=
  let x := (s.die die).lanes
  if !s.laneRuns die lane || x.runs.any (fun r => r.lane == lane) || x.least (s.die die).lanesN + 48 ≤ x.doneOf lane then
    s.stutter
  else match x.head lane with
    | none => s.stutter
    | some m =>
      match m.kind with
      | .lrsync | .lsafe => s.stutter
      | .lmcst =>
        if m.landed || lane < m.mcstLanes.1 || m.mcstLanes.1 + m.mcstLanes.2 ≤ lane then .next (s.laneComplete die lane)
        else s.stutter
      | .ldot =>
        (match m.obj with
          | none => .next (s.laneComplete die lane)
          | some o => match o.sliceIn lane with
            | none => .next (s.laneComplete die lane)
            | some k => match m.nextRow k 0 with
              | none => .next (s.laneComplete die lane)
              | some i => .next (s.modLanes die fun x => x.setRun (m.freshRun lane i)))
      | .lfmt | .lhzc | .lrtgt => .next (s.laneComplete die lane)

/-- The activation bytes of vector v in a lane's buffer (R286). -/
def Lanes.activation (x : Lanes) (l v n : Nat) : List Byte := x.abuf.readN (8192 * l + 2048 * v) n

/-- One plane's checkpoints: P(p) is formed for every vector, with its flags (R120), and each series that is open takes it (R132, R135;
that P(p) raises its flags also where the series has closed: DEDUCED, log 63). -/
def Lanes.feed (x : Lanes) (m : LMacro) (o : Obj) (r : LaneRun) (cfg : SeriesCfg) : LaneRun :=
  let kb := m.entry.block
  let qs := (m.vectors.zip (r.sers.zip r.flags)).map fun q =>
    let c := slicePartial r.data (x.activation r.lane q.1 (vectorBytes o.sliceLen kb)) o.sliceLen kb r.p
    (q.2.1.checkpoint cfg c.1, q.2.2 ||| c.2)
  { r with sers := qs.map (·.1), flags := qs.map (·.2) }

/-- The bytes of the slice image that a lane holds at the end of plane p: the scales and planes 0 to p (R111, R268). -/
def Obj.prefixBytes (o : Obj) (p : Nat) : Nat := 32 * ceilDiv o.sliceLen 1024 + (p + 1) * (o.sliceLen / 8)

/-- Bytes of the beat that a lane reads next: 32 of the scales, or up to 256 weights of its plane (R242, R268). -/
def Obj.nextBeat (o : Obj) (r : LaneRun) : Nat :=
  let have_ := r.data.length
  if have_ < 32 * ceilDiv o.sliceLen 1024 then 32 else min 32 (o.prefixBytes r.p - have_)

/-- A lane reads the next beat of its slice: the scales, then plane by plane; at the end of a plane its series take their checkpoints
(R242, R268, R269). -/
def State.planeRead (s : State) (d : DieIx) (m : LMacro) (o : Obj) (k : Nat) (r : LaneRun) : State :=
  let cfg := m.entry.cfgUnder m.hzdef
  let q := s.shareRead o r.lane ((m.row0 + r.row) * o.rowBytes + r.data.length) (o.nextBeat r) (s.cluster m.cl).lid
  let s := q.2.2
  if q.2.1 || m.feBad then s.sliceEnd d m k r true
  else
    let r := { r with data := r.data ++ q.1 }
    if r.data.length < o.prefixBytes r.p then s.modLanes d fun x => x.setRun r
    else
      let r := (s.die d).lanes.feed m o { r with p := r.p + 1 } cfg
      if r.sers.all (fun q => q.closed cfg) || m.entry.npl ≤ r.p then s.sliceEnd d m k r false
      else s.modLanes d fun x => x.setRun r

/-- LANE_PLANE_READ (R135, R242, R269): a lane reads one beat of 32 B. -/
def execLanePlaneRead (die : DieIx) (lane : Nat) (s : State) : Result :=
  let x := (s.die die).lanes
  if !s.laneRuns die lane then s.stutter
  else match x.runs.find? fun r => r.lane == lane, x.head lane with
    | some r, some m =>
      (match m.obj with
        | none => s.stutter
        | some o => match o.sliceIn lane with
          | none => s.stutter
          | some k => .next (s.planeRead die m o k r))
    | _, _ => s.stutter

/-! ### Delivery (R122, R135, R269, R287, R289) -/

/-- The slice results of a row and vector, in slice order. -/
def LMacro.slices (m : LMacro) (row v n : Nat) : List SliceRes :=
  (List.range n).filterMap fun k => m.results.find? fun r => r.row == row && r.k == k && r.v == v

/-- Poison in a row result (R269), or the value of the tree, with its flags. -/
def rowValue (rs : List SliceRes) : W32 × Flags :=
  let r := reduceTree rs.length.log2 (rs.map (·.value))
  (r.1, rs.foldl (fun acc q => acc ||| q.flags) r.2)

/-- The poison value of a row result (R269, R323). -/
def rowPoison : Nat := 0x7FE0_0000

/-- Reports of a result: CONV, STAG, NZD and LIM over its slices, and its plane count (R135, R283). -/
def Lanes.countResult (x : Lanes) (rs : List SliceRes) : Lanes :=
  let up (n : Nat) (f : Series → Bool) : Nat := heldAt 65535 (n + flagNat (rs.any fun r => f r.ser))
  let p := rs.foldl (fun acc r => max acc r.planes) 0
  { x with
    hzConv := up x.hzConv Series.conv, hzStag := up x.hzStag Series.stag, hzNzd := up x.hzNzd Series.nzd
    hzLim := up x.hzLim Series.lim, lplh := vset x.lplh (p - 1) (heldAt 255 (vget x.lplh (p - 1) 0 + 1)) }

/-- A poisoned result is counted, and its place recorded when it is the first (R269, R283). -/
def Lanes.countPoisoned (x : Lanes) (h : W32) (row : Nat) : Lanes :=
  { x with
    lpfirst := if x.lpois = 0 then packWord [(32, h.toNat), (0, row % 2 ^ 32)] else x.lpfirst
    lpois := heldAt (2 ^ 32 - 1) (x.lpois + 1), lpcnt := heldAt (2 ^ 32 - 1) (x.lpcnt + 1) }

/-- The bytes that a delivery writes, and its flags (R289). -/
def State.deliverBytes (s : State) (k : CoreIx) (m : LMacro) (a : Nat) (poison : Bool) (r : W32) : List Byte × Flags × State :=
  if poison then (if m.rmode = 2 then leBytes 2 (rowPoison / 2 ^ 16) else leBytes 4 rowPoison, 0, s)
  else match m.rmode with
    | 1 =>
      let q := s.readEngine m.cl m.seq (.spad k a) 4 a .l
      let x := addF32 (BitVec.ofNat 32 (leNat q.1)) r
      (leBytes 4 x.1.toNat, x.2, q.2)
    | 2 => let x := fmtBF16.ofNum false (numF32 r); (leBytes 2 x.code, x.flags, s)
    | _ => (leBytes 4 (if (numF32 r).isNan then fmtF32.qnan else r.toNat), 0, s)

/-- The last result of a macro has been delivered: its flags are merged, and its ring slot filled (R128, R241). -/
def State.macroDelivered (s : State) (d : DieIx) (k : CoreIx) (m : LMacro) : State :=
  let s := s.mergeFlags m.cl m.seq m.flags
  let s := s.modLanes d fun x => { x with tail := x.tail.filter fun y => y.seq != m.seq }
  match m.dring with
  | some r => s.ringFill k r.k r.s
  | none => s

/-- A result is delivered: the store, the reports, ECU for poison under PTE, and what its being the last brings.  A poisoned result
keeps the flags of its lanes' roundings (R128) and has no arithmetic of the tree (R289). -/
def State.deliverRow (s : State) (d : DieIx) (k : CoreIx) (m : LMacro) (row v : Nat) (rs : List SliceRes) : State :=
  let poison := rs.any (·.poison)
  let value := if poison then (0, rs.foldl (fun acc q => acc ||| q.flags) 0) else rowValue rs
  let a := m.resultAddr row v
  let w := s.deliverBytes k m a poison value.1
  let s := w.2.2.store (.spad k a) w.1 (s.cluster m.cl).lid
  let s := s.modLanes d fun x => if poison then x.countPoisoned m.handle (m.row0 + row) else x.countResult rs
  let lanes := (s.die d).lanes
  let s := if poison && bit lanes.lctl 0 then
      s.modCluster m.cl fun c => c.addPend .ecu lanes.lpfirst (Path.code .l) else s
  let m' := { m with
    delivered := (4 * row + v) :: m.delivered, flags := m.flags ||| value.2 ||| w.2.1
    results := m.results.filter fun r => !(r.row == row && r.v == v) }
  let s := s.modLanes d fun x => x.modMacro m.seq fun _ => m'
  if m'.accessing then s else s.macroDelivered d k m'

/-- ROW_RESULT_DELIVERY (R241, R289): result j of the LDOT with number m, j being 4 x row + vector, once every slice of the row
has delivered and the banks are free. -/
def execRowResultDelivery (die : DieIx) (m j : Nat) (s : State) : Result :=
  match (s.die die).lanes.macro? m with
  | none => s.stutter
  | some x =>
    match x.obj, s.tableCore die with
    | some o, some k =>
      let rs := x.slices (j / 4) (j % 4) (2 ^ o.spl)
      if x.kind ≠ .ldot ∨ rs.length ≠ 2 ^ o.spl ∨ x.isDelivered (j / 4) (j % 4)
          ∨ s.bankWait (.spad k (x.resultAddr (j / 4) (j % 4))) x.esz then s.stutter
      else .next (s.deliverRow die k x (j / 4) (j % 4) rs)
    | _, _ => s.stutter

/-! ### Multicast (R286) -/

/-- The bytes of a multicast written to the buffers of its lanes. -/
def LMacro.spread (m : LMacro) (bs : List Byte) (abuf : Mem) : Mem :=
  (List.range m.mcstLanes.2).foldl (fun acc k =>
    acc.writeN (8192 * (m.mcstLanes.1 + k) + 2048 * m.mcstSlot) ((bs.drop (k * m.mcstBytes)).take m.mcstBytes)) abuf

/-- MULTICAST_LAND (R286): the LMCST with number m, at the head of every lane it names, is read and its bytes are held. -/
def execMulticastLand (die : DieIx) (m : Nat) (s : State) : Result :=
  let x := (s.die die).lanes
  match findIdx (fun q => q.seq == m) x.live, s.tableCore die with
  | some (i, q), some k =>
    let n := q.mcstBytes * q.mcstLanes.2
    if q.kind ≠ .lmcst ∨ q.landed ∨ x.stopped ∨ (iota q.mcstLanes.1 q.mcstLanes.2).any (fun l => x.doneOf l != x.base + i)
        ∨ s.bankWait (.spad k q.mcstSrc) n then s.stutter
    else
      let r := s.readEngine q.cl q.seq (.spad k q.mcstSrc) n q.mcstSrc .l
      .next (r.2.modLanes die fun x =>
        { x.modMacro m fun y => { y with landed := true } with abuf := q.spread r.1 x.abuf })
  | _, _ => s.stutter

/-! ### Drain points, safe points, the watchdog and replay (R272, R274, R275, R322) -/

/-- Every lane has reached the macro that is oldest in the queues. -/
def Lanes.gathered (x : Lanes) (n : Nat) : Bool := (x.done.toList.take n).all (· == x.base)

/-- Every lane completes the oldest macro. -/
def Lanes.pass (x : Lanes) (n : Nat) : Lanes :=
  { x with
    done := (List.range n).foldl (fun v l => vset v l (x.base + 1)) x.done, live := x.live.drop 1, base := x.base + 1 }

/-- LRSYNC_DRAIN (R272, R274). -/
def execLrsyncDrain (die : DieIx) (s : State) : Result :=
  let x := (s.die die).lanes
  let n := (s.die die).lanesN
  match x.live with
  | m :: _ =>
    if m.kind = .lrsync ∧ x.gathered n ∧ !x.stopped then
      .next (s.modLanes die fun x => { x.pass n with apl := x.apl != bit m.ga 0, syncn := (x.syncn + 1) % 256 })
    else s.stutter
  | [] => s.stutter

/-- LSAFE_COMPLETE (R275): every lane has reached the LSAFE and every earlier result has been delivered. -/
def execLsafeComplete (die : DieIx) (s : State) : Result :=
  let x := (s.die die).lanes
  let n := (s.die die).lanesN
  match x.live with
  | m :: _ =>
    if m.kind = .lsafe ∧ x.gathered n ∧ x.tail = [] ∧ !x.stopped then
      .next (s.modLanes die fun x =>
        { x.pass n with safen := (x.safen + 1) % 256, stopped := x.prep, prep := false })
    else s.stutter
  | [] => s.stutter

/-- A macro of an interrupted interval, to be run again: what it delivered stays delivered, and its slices are formed anew (R275). -/
def LMacro.again (m : LMacro) : LMacro := { m with results := [], replays := [] }

/-- The macros of the interrupted interval that have not completed go back before those that follow them (R275). -/
def Lanes.requeue (x : Lanes) : Lanes :=
  let kept := (x.tail ++ x.live).filter fun m => m.accessing || (m.kind != .ldot && m.kind != .lmcst)
  { x with
    buf := kept.map LMacro.again ++ x.buf, live := [], tail := [], runs := [], base := 0, done := Vector.replicate 1024 0 }

/-- The columns that hold a lane which has not reached the first LSAFE of the queues. -/
def Lanes.lagging (x : Lanes) (n : Nat) : List Nat :=
  let goal := x.base + (match findIdx (fun (m : LMacro) => m.kind == .lsafe) x.live with | some r => r.1 | none => x.live.length + 1)
  (List.range (n / 8)).filter fun c => (iota (8 * c) 8).any fun l => x.doneOf l < goal

/-- The error-log entry of columns that were reset: their count, and the place of the first. -/
def State.logColumns (s : State) (d : DieIx) (kind : Nat) (cols : List Nat) : State :=
  s.log d kind cols.length (s.logWhere d (Config.lanePhysBase + Config.laneBytes * (8 * cols.headD 0))) 0

/-- LANE_WATCHDOG_RESET (R275): 3,200,000 cycles after a pre-emption request without an LSAFE. -/
def execLaneWatchdogReset (die : DieIx) (s : State) : Result :=
  let x := (s.die die).lanes
  if x.prep && 3_200_000 ≤ x.prepAge then
    let s := s.logColumns die 7 (x.lagging (s.die die).lanesN)
    .next (s.modLanes die fun x => { x.requeue with wdr := true, prep := false, stopped := true })
  else s.stutter

/-- Replays a lane has made of a macro (R322). -/
def LMacro.replaysIn (m : LMacro) (l : Nat) : Nat := (lookupNat l m.replays).getD 0

/-- LANE_PARITY_REPLAY (R322): a lane that met a parity error forms its slice again; after two replays of one macro its column is
reset and the interval's work runs again. -/
def execLaneParityReplay (die : DieIx) (lane : Nat) (s : State) : Result :=
  let x := (s.die die).lanes
  match x.head lane, x.runs.find? fun r => r.lane == lane with
  | some m, some r =>
    if x.stopped then s.stutter
    else if 2 ≤ m.replaysIn lane then .next ((s.logColumns die 5 [lane / 8]).modLanes die Lanes.requeue)
    else .next (s.modLanes die fun x =>
      (x.modMacro m.seq fun y => { y with replays := setKey lane (y.replaysIn lane + 1) y.replays }).setRun (m.freshRun lane r.row))
  | _, _ => s.stutter

end Sys2Proof.Machine
end

