-- ==== Sys2Proof/Machine/Links.lean ====
section
/-!
DEFINITION. Links: turning the groups of a Dowel link (R292 to R295).
-/

namespace Sys2Proof.Machine

/-- Groups outbound from a die when the share is a: a at end A, 16 - a at end B (R292, R293). -/
def outGroups (l : LinkIx) (d : DieIx) (a : Nat) : Nat := if (linkEnds l).1 = d then a else 16 - a

/-- The state of a link as a die sees it (R295). -/
def Link.status (x : Link) (l : LinkIx) (d : DieIx) : Word :=
  packWord [(48, (x.nearEnd l d).fcnt), (44, x.queue.length), (40, outGroups l d (x.queue.getLastD x.share)),
    (36, outGroups l d x.share), (32, l.val), (0, heldAt (2 ^ 32 - 1) x.age)]

/-- Turns at the head of the queue that ask for the present share are removed at once (R293). -/
def Link.settle (x : Link) : Link :=
  if x.turning.isSome then x else { x with queue := x.queue.dropWhile (· == x.share) }

/-- The link that an operand names, and the checks of R295. -/
def linkAt (n : Nat) : Option LinkIx := if h : n < 9 then some ⟨n, h⟩ else none

/-- The checks of TURN and LNKQ: the lowest code is taken (R295). -/
def State.linkErrs (s : State) (ga : Word) (reserved bad : Bool) : List (Cause × Nat) :=
  errIf (outside ga 0xF || reserved) .lch 0x620 ++
  errIf (match linkAt (bits ga 0 4) with | some l => !onLink l s.myDieIx | none => true) .lch 0x621 ++ errIf bad .lch 0x622

/-- TURN (R293, R295): 1 when the queue holds eight turns. -/
def execTurn (d a b : Reg) (s : State) : Result :=
  let ga := s.g a
  let gb := s.g b
  let n := bits gb 0 5
  .next (match s.linkErrs ga false (outside gb 0x1F || n == 0 || decide (15 < n)), linkAt (bits ga 0 4) with
    | [], some l =>
      if 8 ≤ (s.link l).queue.length then s.finish d 1
      else (s.modLink l fun x => { x with queue := x.queue ++ [outGroups l s.myDieIx n] }.settle).finish d 0
    | (cause, v) :: _, _ => s.trap cause (word v)
    | [], none => s.stall)

/-- LNKQ (R295). -/
def execLnkq (d a b : Reg) (s : State) : Result :=
  let ga := s.g a
  let gb := s.g b
  .next (match s.linkErrs ga (outside gb 1) false, linkAt (bits ga 0 4) with
    | [], some l =>
      let w := (s.link l).status l s.myDieIx
      let s := if bit gb 0 then s.modLink l fun x => x.modNear l s.myDieIx fun e => { e with fcnt := 0 } else s
      s.finish d w
    | (cause, v) :: _, _ => s.trap cause (word v)
    | [], none => s.stall)

/-- A turn may start: none is in progress, and 3,200 cycles have passed since the last took effect (R293, R294). -/
def Link.mayTurn (x : Link) : Bool := x.turning.isNone && !x.retraining && 3200 ≤ x.age

/-- A direction holds one group and its flits have waited 32,000 cycles (R294). -/
def Link.starved (x : Link) : Bool := (x.share == 1 && 32000 ≤ x.endA.floorAge) || (x.share == 15 && 32000 ≤ x.endB.floorAge)

/-- TURN_START (R293): the groups that change stop taking flits.  A forced turn that is due goes ahead of the queue (R294). -/
def execTurnStart (link : LinkIx) (s : State) : Result :=
  let x := s.link link
  match x.queue.head? with
  | some a => if x.mayTurn && !x.starved && a != x.share then .next (s.modLink link fun x => { x with turning := some (a, false) }) else s.stutter
  | none => s.stutter

/-- TURN_EFFECT (R293): the share changes and the dead time of 77 cycles begins. -/
def execTurnEffect (link : LinkIx) (s : State) : Result :=
  match (s.link link).turning with
  | some (a, forced) =>
    .next (s.modLink link fun x =>
      { x with
        share := a, age := 0, dead := 77, turning := none, queue := if forced then x.queue else x.queue.drop 1
        endA := { x.endA with floorAge := 0 }, endB := { x.endB with floorAge := 0 } }.settle)
  | none => s.stutter

/-- DEAD_TIME_END (R293): 77 cycles after the turn, its groups carry their new direction. -/
def execDeadTimeEnd (link : LinkIx) (s : State) : Result :=
  let x := s.link link
  if x.dead ≠ 0 ∧ x.dead ≤ x.age then .next (s.modLink link fun x => { x with dead := 0 }) else s.stutter

/-- FORCED_TURN (R294): a turn to a = 8 ahead of the queue, counted at both ends. -/
def execForcedTurn (link : LinkIx) (s : State) : Result :=
  let x := s.link link
  let up (e : LinkEnd) : LinkEnd := { e with fcnt := heldAt 255 (e.fcnt + 1), floorAge := 0 }
  if x.mayTurn && x.starved then
    .next (s.modLink link fun x => { x with turning := some (8, true), endA := up x.endA, endB := up x.endB })
  else s.stutter

end Sys2Proof.Machine
end

