-- ==== Sys2Proof/Machine/Ethernet.lean ====
section
/-!
DEFINITION. Ethernet: the send windows and the receive rings of a hub die's ports (R301 to R303).
-/

namespace Sys2Proof.Machine

/-- A local port of a hub die. -/
def isPort (d : DieIx) (q : Nat) : Bool := isHub d && q < 3

/-! ### Sending (R301) -/

/-- SEND_DOORBELL (R301): an 8-byte write at offset 0xFFF8; it waits while the port holds the previous frame. -/
def execSendDoorbell (die : DieIx) (port : Nat) (v : Word) (s : State) : Result :=
  if !isPort die port || s.sendWait (.send die port 0xFFF8) 8 then s.stutter
  else .next (s.perform (.send die port 0xFFF8) (leBytes 8 v.toNat) 0)

/-- An earlier write to a port's frame buffer has not performed. -/
def State.bufferPending (s : State) (d : DieIx) (q : Nat) : Bool :=
  s.flits.any fun f => match f.dst with
    | .send e p _ => e == d && p == q
    | _ => false

/-- FRAME_TRANSMIT (R301): the port takes its frame; the frame check sequence that it appends is not part of the record. -/
def execFrameTransmit (die : DieIx) (port : Nat) (s : State) : Result :=
  let p := s.port die port
  match p.txLen with
  | some n =>
    if !isPort die port || s.bufferPending die port then s.stutter
    else
      let s := s.modPort die port fun x => { x with txLen := none, writers := [] }
      .next { s with out := s.out ++ [.frame die port (p.buf.readN 0 n)] }
  | none => s.stutter

/-! ### The receive ring (R302, R303) -/

/-- EN. -/
def EthPort.on (p : EthPort) : Bool := bit p.cfg 0
/-- log2 of the number of slots: 4 to 12, other values act as the nearest. -/
def erxLogn (cfg : Word) : Nat := max 4 (min 12 (bits cfg 8 4))
/-- Bytes of a slot, Z. -/
def erxSlot (cfg : Word) : Nat := 2048 * 2 ^ bits cfg 6 2
/-- Die physical address of the ring, B. -/
def erxBase (cfg : Word) : Nat := bits cfg 12 36 * 2 ^ 12
/-- Die physical address of slot 0, SB. -/
def erxSlots (cfg : Word) : Nat := erxBase cfg + alignUp (64 + 8 * 2 ^ erxLogn cfg) 4096
/-- Die physical address of the byte after the ring. -/
def erxEnd (cfg : Word) : Nat := erxSlots cfg + erxSlot cfg * 2 ^ erxLogn cfg
/-- SEC: the port writes the ring in the secure world. -/
def erxSecure (cfg : Word) : Bool := bit cfg 3

/-- Bits of ERXCFGq that are not reserved. -/
def erxMask : Nat := maskAt 12 36 + maskAt 8 4 + maskAt 3 5 + 1

/-- FULL, BIG and BAD as ERXDRPq shows them. -/
def EthPort.drops (p : EthPort) : Word := packWord [(32, p.full), (16, p.big), (0, p.bad)]

/-- The port keeps a frame with this destination address (R302). -/
def EthPort.keeps (p : EthPort) (frame : List Byte) : Bool :=
  let dst := leNat (frame.take 6)
  bit p.cfg 4 || dst == p.mac.toNat || dst == 2 ^ 48 - 1 || (bit p.cfg 5 && nbit dst 0)

/-- A frame dropped for want of room: FULL + 1. -/
def EthPort.dropFull (p : EthPort) : EthPort := { p with full := heldAt (2 ^ 32 - 1) (p.full + 1) }

/-- The world map forbids the port a write: EN is cleared, the frame is dropped, and the refusal is logged (R302). -/
def State.rxRefused (s : State) (d : DieIx) (q pa : Nat) : State :=
  (s.modPort d q fun p => { p with cfg := p.cfg &&& ~~~1, rxLen := none }.dropFull).log d 12 Cause.prm.code (word pa) 0

/-- Both writes of a kept frame have performed: HEAD advances and HEADM is released (R302). -/
def State.rxCommit (s : State) (d : DieIx) (q : Nat) : State :=
  let p := s.port d q
  match p.rxLen with
  | none => s
  | some _ =>
    let b := erxBase p.cfg
    let w := s.worldOk d (erxSecure p.cfg) b 8
    if !w.1 then w.2.rxRefused d q b
    else (w.2.modPort d q fun p => { p with head := p.head + 1, rxLen := none }).store (.hub d b)
        (leBytes 8 (p.head + 1).toNat)

/-- A kept frame is written to its slot, with its status word. -/
def State.rxWrite (s : State) (d : DieIx) (q : Nat) (frame : List Byte) : State :=
  let p := s.port d q
  let j := p.head.toNat % 2 ^ erxLogn p.cfg
  let a := erxSlots p.cfg + erxSlot p.cfg * j
  let st := erxBase p.cfg + 64 + 8 * j
  let w := s.worldOk d (erxSecure p.cfg) a frame.length
  let w' := w.2.worldOk d (erxSecure p.cfg) st 8
  if !w.1 then w.2.rxRefused d q a
  else if !w'.1 then w'.2.rxRefused d q st
  else (((w'.2.store (.hub d a) frame).store (.hub d st)
      (leBytes 8 (packNat [(32, p.head.toNat), (0, frame.length)]))).modPort d q fun p =>
        { p with rxLen := some frame.length })

/-- ETHERNET_FRAME_RECEIVE (R302): `fcsOk` says that the check sequence was good. -/
def execEthernetFrameReceive (die : DieIx) (port : Nat) (frame : List Byte) (fcsOk : Bool) (s : State) : Result :=
  if !isPort die port || !(s.die die).ready then s.stutter
  else
    let s := s.rxCommit die port
    let p := s.port die port
    if !fcsOk || frame.length < 60 || 9216 < frame.length then
      .next (s.modPort die port fun p => { p with bad := heldAt 65535 (p.bad + 1) })
    else if !p.keeps frame then .next s
    else if !p.on || (p.head - p.tail).toNat == 2 ^ erxLogn p.cfg then .next (s.modPort die port EthPort.dropFull)
    else if erxSlot p.cfg < frame.length then .next (s.modPort die port fun p => { p with big := heldAt 65535 (p.big + 1) })
    else .next (s.rxWrite die port frame)

/-- RX_FRAME_COMMIT (R302). -/
def execRxFrameCommit (die : DieIx) (port : Nat) (s : State) : Result :=
  if isPort die port && (s.port die port).rxLen.isSome then .next (s.rxCommit die port) else s.stutter

/-- A SETC of ERXCFGq (R302): the state after it, or its cause with the TVAL the manual gives.  While EN is 1 no field but EN
changes, and a frame that the port was still writing when EN was cleared completes in the old ring first.  SEC = 1 written from the non-secure world is PRM whether or not the write enables the port. -/
def State.writeErxcfg (s : State) (d : DieIx) (q : Nat) (v : Word) (secure : Bool) : Except (Cause × Option Nat) State :=
  let p := s.port d q
  if bit v 3 && !secure then .error (.prm, none)
  else if p.on then .ok (s.modPort d q fun p => { p with cfg := if bit v 0 then p.cfg else p.cfg &&& ~~~1 })
  else if !bit v 0 then .ok ((s.rxCommit d q).modPort d q fun p => { p with cfg := v })
  else
    let w := if bit v 3 then (false, s) else s.secureRange d (erxBase v) (erxEnd v)
    if w.1 then .error (.prm, none)
    else if Config.hubSramBytes < erxEnd v then .error (.lch, some 0x560)
    else .ok (((w.2.rxCommit d q).modPort d q fun p => { p with cfg := v, head := 0, tail := 0 }).store (.hub d (erxBase v)) (leBytes 8 0))

/-- ERXCFG_WRITE (R302, R303): a write that would raise a cause has no effect. -/
def execErxcfgWrite (die : DieIx) (port : Nat) (v : Word) (secure : Bool) (s : State) : Result :=
  if !isPort die port || outside v erxMask then s.stutter
  else match s.writeErxcfg die port v secure with
    | .ok s' => .next s'
    | .error _ => s.stutter

/-- A write of ERXTAILq: an "ahead" write to TAIL, ignored when it is ahead of HEAD (R302). -/
def EthPort.release (p : EthPort) (t : W32) : EthPort :=
  if aheadOf t p.head then p else if aheadOf t p.tail then { p with tail := t } else p

/-- ERXTAIL_RELEASE (R302, R303). -/
def execErxtailRelease (die : DieIx) (port : Nat) (v : Word) (s : State) : Result :=
  if !isPort die port || bits v 32 32 != 0 then s.stutter
  else .next (s.modPort die port fun p => p.release (v.setWidth 32))

end Sys2Proof.Machine
end

