-- ==== Sys2Proof/Machine/Vector.lean ====
section
/-!
DEFINITION. Vector: the vector unit's queue and the vector commands (R136 to R155), and the Horizon instructions
(R156 to R162).
-/

namespace Sys2Proof.Machine

/-! ### Checks at issue (R139) -/

/-- One operand of a command at issue: its address, or the RNG reason of its ring; and the slot it names. -/
inductive Operand where
  | at (base : Nat) (slot : Option (RingRef × Nat × Nat))
  | bad (reason : Nat)
  deriving DecidableEq, Repr

/-- The address of an operand.  -/
def Operand.base : Operand → Option Nat
  | .at b _ => some b
  | .bad _ => none

/-- The ring slot of an operand. -/
def Operand.ring : Operand → Option RingRef
  | .at _ (some r) => some r.1
  | _ => none

/-- A source field: an address, or a ring and sequence (R137, R142). -/
def Core.source (x : Core) (isRing : Bool) (f : Nat) : Operand :=
  if !isRing then .at f none
  else
    let k := nbits f 18 6
    let n := BitVec.ofNat 16 f
    let r := x.ring k
    if !r.enabled then .bad 1 else if !r.inReach n then .bad 5 else .at (r.addr n) (some (⟨k, n⟩, r.addr n, r.size))

/-- The destination field: an address, or an offset in the next slot of a ring (R137, R142). -/
def Core.destination (x : Core) (isRing : Bool) (f : Nat) : Operand :=
  if !isRing then .at f none
  else
    let k := nbits f 18 6
    let r := x.ring k
    if !r.enabled then .bad 1 else .at (r.addr r.clm + nbits f 0 18) (some (⟨k, r.clm⟩, r.addr r.clm, r.size))

/-- A vector command as it stands at issue. -/
structure VecArgs where
  op : VecOp
  imm : Bool
  t : ElemType
  ga : Word
  gb : Word
  dst : Operand
  s1 : Operand
  s2 : Operand
  deriving DecidableEq, Repr

/-- The shapes of the sources that are used and placed. -/
def VecArgs.sources (v : VecArgs) : List Shape :=
  (if usesFirst v.op v.imm then (match v.s1.base with | some b => [srcShape v.op v.t v.ga b] | none => []) else []) ++
  (if usesSecond v.op v.imm then (match v.s2.base with | some b => [srcShape v.op v.t v.ga b] | none => []) else [])

/-- The shape of the destination, where it is placed. -/
def VecArgs.dest (v : VecArgs) : List Shape :=
  match v.dst.base with
  | some b => [dstShape v.op v.t v.ga v.gb b]
  | none => []

/-- The predicate mask, where there is one. -/
def VecArgs.mask (v : VecArgs) : List Shape := if vFlag v.ga 3 then [maskShape v.ga v.gb] else []

/-- The alignment of an operand of a type (R138). -/
def vecAlign (t : ElemType) (ga : Word) : Nat := if vStride ga = 1 then 128 else elemBytes t

/-- The alignment of a destination (R138, R150, R152). -/
def VecArgs.dstAlign (v : VecArgs) : Nat :=
  if v.op.isRed then 4
  else match v.op with
    | .pred => 256
    | .cvt | .cvtz => vecAlign ((cvtType v.gb).getD v.t) v.ga
    | _ => vecAlign v.t v.ga

/-- The misaligned bases, as ALN values. -/
def VecArgs.alns (v : VecArgs) : List Int :=
  let off (n : Nat) (xs : List Shape) : List Int := (xs.filter fun x => x.base % (n : Int) != 0).map (·.base)
  off v.dstAlign v.dest ++ off (vecAlign v.t v.ga) v.sources

/-- The addresses of a shape that lie outside the scratchpad, the lowest as a 64-bit address of each element. (DEDUCED, log 33) -/
def Shape.outOf (cap : Nat) (x : Shape) : List Nat :=
  let r := x.span
  if 0 ≤ r.1 ∧ r.2 ≤ cap then []
  else (List.range x.n).filterMap fun i =>
    let a := x.at i
    if a < 0 then some (word ((a % 2 ^ 64).toNat)).toNat
    else if (cap : Int) < a + x.size then some (max a cap).toNat else none

/-- The reserved fields are zero: bit 0, the immediate's low byte, PBASE without P, fields of unused operands, and bits 17:16
of a ring source (R136, R137, R149). -/
def VecArgs.reservedOk (v : VecArgs) : Bool :=
  !bit v.ga 0 && (!v.imm || bits v.gb 16 8 == 0) && (vFlag v.ga 3 || bits v.gb 0 16 == 0) &&
  (if usesFirst v.op v.imm then !vFlag v.ga 6 || nbits (vS1base v.gb) 16 2 == 0 else vS1base v.gb == 0) &&
  (if v.op.isCvt then bits v.gb 20 20 == 0
   else v.imm || (if usesSecond v.op v.imm then !vFlag v.ga 5 || nbits (vS2base v.gb) 16 2 == 0 else vS2base v.gb == 0))

/-- A conversion has an MXI8 operand (R149). -/
def VecArgs.hasMx (v : VecArgs) : Bool := v.op.isCvt && (v.t == .mxi8 || cvtType v.gb == some .mxi8)

/-- SAT is permitted: integer sums and products, and |a| and -a of signed integers (R147). -/
def satOk (op : VecOp) (t : ElemType) : Bool :=
  match op, elemInt t with
  | .add, some _ | .sub, some _ | .mul, some _ | .mac, some _ => true
  | .abs, some (sg, _) | .neg, some (sg, _) => sg
  | _, _ => false

/-- The flags are permitted (R139 0x102, R142, R147, R149, R152).  RSA or RSB with no such source is a flag that is not permitted,
rather than a reserved field, and Z is permitted wherever P is, though a reduction and VPRED have no element for it to write
(DESIGN CHOICE, log 66). -/
def VecArgs.flagsOk (v : VecArgs) : Bool :=
  let rsa := vFlag v.ga 6
  let rsb := vFlag v.ga 5
  (!rsa || usesFirst v.op v.imm) && (!rsb || usesSecond v.op v.imm) && (!vFlag v.ga 4 || rsa || rsb) &&
  (!vFlag v.ga 1 || satOk v.op v.t) && (!vFlag v.ga 3 || !(v.op == .pred || v.hasMx))

/-- The destination type of a conversion is permitted (R149). -/
def VecArgs.cvtOk (v : VecArgs) : Bool :=
  !v.op.isCvt || (match cvtType v.gb with | some .bpn | none => false | some t => t != v.t)

/-- A source shares bytes with the destination in a way R140 forbids. -/
def VecArgs.overlaps (v : VecArgs) : Bool :=
  v.dest.any fun d =>
    (v.sources.any fun x => d.meets x && !(x.base == d.base && x.size == d.size && !v.op.isRed && v.op != .pred)) ||
    v.mask.any fun x => d.meets x

/-- The destination lies within its slot (R138, R139). -/
def VecArgs.slotOk (v : VecArgs) : Bool :=
  match v.dst with
  | .at _ (some (_, a, n)) => v.dest.all fun x => (a : Int) ≤ x.span.1 && x.span.2 ≤ a + n
  | _ => true

/-- The RNG reasons of a command. -/
def VecArgs.rings (v : VecArgs) : List Nat :=
  let reason (o : Operand) : List Nat := match o with | .bad r => [r] | _ => []
  reason v.dst ++ (if usesFirst v.op v.imm then reason v.s1 else []) ++
    (if usesSecond v.op v.imm then reason v.s2 else []) ++ (if v.slotOk then [] else [7])

/-- The least of a list of numbers. -/
def leastOf : List Nat → Option Nat
  | [] => none
  | x :: xs => some (xs.foldl min x)

/-- The LCH codes of a command (R139). -/
def VecArgs.lchs (v : VecArgs) : List Nat :=
  (if v.reservedOk then [] else [0x101]) ++ (if v.flagsOk then [] else [0x102]) ++ (if v.cvtOk then [] else [0x103]) ++
  (if v.overlaps then [0x104] else []) ++
  (if v.hasMx && (vStride v.ga != 1 || vCount v.ga % 32 != 0) then [0x105] else []) ++
  (if v.op == .scale && bits v.gb 32 8 != 0 then [0x106] else [])

/-- The bytes of every element of a command's operands and mask, from lo up to hi. -/
def VecArgs.ranges (v : VecArgs) : List (Nat × Nat) :=
  (v.dest ++ v.sources ++ v.mask).flatMap fun x => (List.range x.n).map fun i => ((x.at i).toNat, (x.at i + x.size).toNat)

/-- The cause and value of a command that fails a check: the lowest cause, then the lowest value (R52, R139).  `barred` is the lowest
byte that the world map closes to the core (R312). -/
def VecArgs.check (v : VecArgs) (cap : Nat) (barred : Option Nat) : Option (Cause × Nat) :=
  match leastOf (v.alns.map (fun a => (a % 2 ^ 64).toNat)),
    leastOf ((v.dest ++ v.sources ++ v.mask).flatMap (Shape.outOf cap)), barred, leastOf v.lchs, leastOf v.rings with
  | some a, _, _, _, _ => some (.aln, a)
  | none, some a, _, _, _ => some (.xlt, a)
  | none, none, some a, _, _ => some (.prm, a)
  | none, none, none, some c, _ => some (.lch, c)
  | none, none, none, none, some r => some (.rng, r)
  | none, none, none, none, none => none

/-- The operands of a vector command at issue. -/
def State.vecArgs (s : State) (op : VecOp) (imm : Bool) (t : ElemType) (ga gb : Word) : VecArgs :=
  let x := s.myCore
  { op, imm, t, ga, gb
    dst := x.destination (vFlag ga 7) (vDbase ga)
    s1 := x.source (vFlag ga 6) (vS1base gb)
    s2 := if imm || op.isCvt then .at 0 none else x.source (vFlag ga 5) (vS2base gb) }

/-! ### Issue (R142, R143) -/

/-- The vector unit has no room for a command of the cluster that issues: 8 of the cluster or 32 in all (R143). -/
def State.vqFull (s : State) : Bool :=
  32 ≤ s.myCore.vq.length || 8 ≤ (s.myCore.vq.filter fun c => c.cl == s.focus).length

/-- A command enters the queue and the range checker (R143, R228), and the word completes. -/
def State.vqEnter (s : State) (c : VCmd) : State :=
  ((s.modMyCore fun x => { x with vq := x.vq ++ [{ c with seq := s.serial, exempt := s.exemptNow s.myCoreIx }] }).tick).advance

/-- A command of the cluster that issues, with nothing in it yet. -/
def State.newVCmd (s : State) (kind : VecKind) (o : Cls) (ga gb : Word) : VCmd where
  seq := s.serial
  cl := s.focus
  cls := o
  kind := kind
  ga := ga
  gb := gb
  dst := 0
  s1 := 0
  s2 := 0
  dring := none
  aring := none
  bring := none
  exempt := []
  started := false
  writes := []
  flags := 0
  value := 0

/-- PATH of a vector cause: V where an access failed (R45). -/
def vecPath : Cause → Nat
  | .aln | .xlt | .prm => Path.code .v
  | _ => noPath

/-- A vector command issues (R139, R142, R143): checked whole, then it waits for room, for fences that name V and for a slot of
its destination ring, which it claims. -/
def State.vecIssue (s : State) (op : VecOp) (imm : Bool) (t : ElemType) (o : Cls) (a b : Reg) : Result :=
  let ga := s.g a
  let gb := s.g b
  .next (
    if vCount ga = 0 then s.advance
    else
      let v := s.vecArgs op imm t ga gb
      let w := s.spadBarred s.myCoreIx v.ranges
      let s := w.2
      match v.check (spadBytes s.myCoreIx) w.1 with
      | some (cause, tval) => (s.modMe fun c => { c with vlca := ga, vlcb := gb }).trap cause (word tval) (vecPath cause)
      | none =>
        if s.vqFull || s.me.gated .v o then s.stall
        else
          let c := { s.newVCmd (.vec op imm t) o ga gb with
            dst := v.dst.base.getD 0, s1 := v.s1.base.getD 0, s2 := v.s2.base.getD 0
            dring := v.dst.ring
            aring := if usesFirst op imm then v.s1.ring else none
            bring := if usesSecond op imm then v.s2.ring else none }
          match v.dst.ring with
          | none => s.vqEnter c
          | some r =>
            if s.ringGrants s.myCoreIx r.k s.myWaiter then (s.ringClaim s.myCoreIx r.k s.myWaiter).2.vqEnter c
            else s.ringWait r.k)

/-! ### Running a command (R141 to R143) -/

/-- Elements of the scratchpad of core k read for a command: each uncorrectable word that an element touches is counted once
and read as poison (R320, R323). -/
def State.readShape (s : State) (c : CluIx) (seq : Nat) (x : Shape) : List (List Byte) × State :=
  let k := coreOf c
  let touched (w : Nat) : Bool :=
    (List.range x.n).any fun i => decide (x.at i < (w + 1) * 8 ∧ (w : Int) * 8 < x.at i + x.size)
  let bad := (s.core k).spadBad.filter touched
  let reads := (List.range x.n).map fun i => s.peekPoisoned (.spad k (x.at i).toNat) x.size
  match bad with
  | [] => (reads, s)
  | w :: ws =>
    let d := dieOf k
    let s := (bad.foldl (fun acc w => acc.noteUnc (.spad k (8 * w)) 8 (s.cluster c).lid) s).countPoison d bad.length
    (reads, if (s.die d).ete ∧ (s.cluster c).runs seq then
      s.modCluster c fun y => y.addPend .ecu (word (8 * ws.foldl min w)) (Path.code .v) else s)

/-- The codes of a shape. -/
def State.readCodes (s : State) (c : CluIx) (seq : Nat) (x : Shape) : List Nat × State :=
  let r := s.readShape c seq x
  (r.1.map leNat, r.2)

/-- Adjacent pieces of a list of writes joined, so that whole words are written whole. -/
def joinWrites : List (Nat × List Byte) → List (Nat × List Byte)
  | (a, x) :: rest =>
    match joinWrites rest with
    | (b, y) :: more => if a + x.length = b then (a, x ++ y) :: more else (a, x) :: (b, y) :: more
    | [] => [(a, x)]
  | [] => []

/-- The writes of a destination from the bytes of each element, none for an element left alone.  With a stride of 0 the
highest-numbered active element is written (R138, R141). -/
def shapeWrites (x : Shape) (active : List Bool) (elems : List (Option (List Byte))) : List (Nat × List Byte) :=
  let ws := ((List.range x.n).zip elems).filterMap fun p => p.2.map fun bs => ((x.at p.1).toNat, bs)
  if x.step = 0 ∧ 1 < x.n then
    let act := (List.zip active elems).filterMap fun p => if p.1 then p.2 else none
    match act.getLast?, ws.getLast? with
    | some bs, _ => [(x.base.toNat, bs)]
    | none, some w => [w]
    | none, none => []
  else joinWrites ws

/-- The active elements by the predicate mask, read when the command starts (R141). -/
def State.vecActive (s : State) (c : VCmd) : List Bool × State :=
  let n := vCount c.ga
  if vFlag c.ga 3 then
    let r := s.readShape c.cl c.seq (maskShape c.ga c.gb)
    let m := leNat r.1.flatten
    ((List.range n).map (nbit m), r.2)
  else (List.replicate n true, s)

/-- The elements of a list whose place is active. -/
def pickActive (active : List Bool) (xs : List Nat) : List Nat :=
  (List.zip active xs).filterMap fun p => if p.1 then some p.2 else none

/-- What a command writes and the flags it raises, from its operands (R147 to R152). -/
structure VecOut where
  writes : List (Nat × List Byte)
  flags : Flags
  deriving DecidableEq, Repr

/-- A conversion (R149): elements, or blocks of 32, in and out. -/
def State.runCvt (s : State) (c : VCmd) (rtz : Bool) (t : ElemType) (active : List Bool) : VecOut × State :=
  let dt := (cvtType c.gb).getD t
  let src := srcShape .cvt t c.ga c.s1
  let dst := dstShape .cvt t c.ga c.gb c.dst
  let isInt := (elemInt t).isSome
  if t == .mxi8 then
    let r := s.readShape c.cl c.seq src
    let res := (r.1.flatMap mxNums).map (convNum dt rtz false)
    (⟨shapeWrites dst active (res.map fun x => some (leBytes (elemBytes dt) x.code)), orFlags (res.map (·.flags))⟩, r.2)
  else
    let r := s.readCodes c.cl c.seq src
    if dt == .mxi8 then
      let res := (chunks 32 (r.1.length / 32 + 1) (r.1.map (elemNum t))).map (mxEncode rtz)
      (⟨shapeWrites dst active (res.map fun x => some x.1), orFlags (res.map (·.2))⟩, r.2)
    else
      let res := (List.zip active r.1).map fun p => if p.1 then some (convNum dt rtz (isInt && (elemInt dt).isSome) (elemNum t p.2)) else none
      let bytes := res.map fun x => match x with
        | some y => some (leBytes (elemBytes dt) y.code)
        | none => if vFlag c.ga 2 then some (List.replicate (elemBytes dt) 0) else none
      (⟨shapeWrites dst active bytes, orFlags (res.map fun x => match x with | some y => y.flags | none => 0)⟩, r.2)

/-- VPRED (R152): the mask of the elements that are not zero; bits past COUNT keep their values. -/
def State.runPred (s : State) (c : VCmd) (t : ElemType) : VecOut × State :=
  let n := vCount c.ga
  let r := s.readCodes c.cl c.seq (srcShape .pred t c.ga c.s1)
  let m := packNat ((List.range n).zip (r.1.map fun x => flagNat (x != 0)))
  let last := (r.2.peek (.spad (coreOf c.cl) (c.dst + ceilDiv n 8 - 1)) 1).headD 0
  let keep := if n % 8 = 0 then 0 else last.toNat / 2 ^ (n % 8) * 2 ^ n
  (⟨[(c.dst, leBytes (ceilDiv n 8) (m + keep))], 0⟩, r.2)

/-- An elementwise command (R147, R148, R151, R152). -/
def State.runElems (s : State) (c : VCmd) (op : VecOp) (imm : Bool) (t : ElemType) (active : List Bool) : VecOut × State :=
  let n := vCount c.ga
  let iv := bits c.gb 24 16
  let imms := (List.range n).map fun i => immElem t iv i
  let (as, s) := if usesFirst op imm then s.readCodes c.cl c.seq (srcShape op t c.ga c.s1) else (imms, s)
  let (bs, s) := if usesSecond op imm then s.readCodes c.cl c.seq (srcShape op t c.ga c.s2)
    else (if op == .scale then List.replicate n iv else imms, s)
  let dst := dstShape op t c.ga c.gb c.dst
  let (ds, s) := if op.readsDst then s.readCodes c.cl c.seq dst else (List.replicate n 0, s)
  let as := if op == .fill && !imm then List.replicate n (as.headD 0) else as
  let res := (List.zip active (List.zip as (List.zip bs ds))).map fun p =>
    if p.1 then some (vecElem op t (vFlag c.ga 1) p.2.1 p.2.2.1 p.2.2.2) else none
  let bytes := res.map fun x => match x with
    | some y => some (leBytes dst.size y.code)
    | none => if vFlag c.ga 2 then some (List.replicate dst.size 0) else none
  (⟨shapeWrites dst active bytes, orFlags (res.map fun x => match x with | some y => y.flags | none => 0)⟩, s)

/-- A reduction (R150). -/
def State.runRed (s : State) (c : VCmd) (op : VecOp) (t : ElemType) (active : List Bool) : VecOut × State :=
  let (as, s) := s.readCodes c.cl c.seq (srcShape op t c.ga c.s1)
  let (bs, s) := if usesSecond op false then s.readCodes c.cl c.seq (srcShape op t c.ga c.s2) else ([], s)
  let r := vecReduce op t (pickActive active as) (pickActive active bs)
  (⟨[(c.dst, leBytes 4 r.code)], r.flags⟩, s)

/-- A vector command reads its operands. -/
def State.runVec (s : State) (c : VCmd) (op : VecOp) (imm : Bool) (t : ElemType) : VecOut × State :=
  let a := s.vecActive c
  if op.isRed then a.2.runRed c op t a.1
  else match op with
    | .cvt => a.2.runCvt c false t a.1
    | .cvtz => a.2.runCvt c true t a.1
    | .pred => a.2.runPred c t
    | _ => a.2.runElems c op imm t a.1

/-- The Horizon slot an operation of the queue works on (R162). -/
def VCmd.slot (c : VCmd) : Option Nat :=
  match c.kind with
  | .vec _ _ _ => none
  | .push k _ | .result k => some k

/-- Horizon slot k of a core. -/
def Core.hzSlot (x : Core) (k : Nat) : HzSlot := vget x.hz k HzSlot.reset

/-- Horizon slot k of a core changed. -/
def Core.modHz (x : Core) (k : Nat) (f : HzSlot → HzSlot) : Core := { x with hz := vset x.hz k (f (x.hzSlot k)) }

/-- A queued operation on slot k has not been applied: it is still in the queue, or, of HZRD, has not started (R159 to R162). -/
def Core.hzPending (x : Core) (k before : Nat) : Bool :=
  x.vq.any fun c => c.seq < before && c.slot == some k && (match c.kind with | .result _ => !c.started | _ => true)

/-- A queued command may start (R142, R143, R162, R228, R230): its ring sources have been filled, the range checker releases it, no
bank it reads is locked, earlier commands of its cluster and class have started, earlier operations on its slot are applied, and no
context operation stops it (R145).  A source slot that was filled and has since been released counts as filled (DEDUCED, log 54). -/
def State.vecReady (s : State) (k : CoreIx) (c : VCmd) : Bool :=
  let filled (r : Option RingRef) : Bool := match r with | some q => ((s.core k).ring q.k).wasFilled q.s | none => true
  (c.entry.reads ++ c.entry.rings.map (·.2.2)).all (fun e => !(s.core k).locked e.1 (e.2 - e.1)) &&
  !c.started && !(s.core k).cxPend && filled c.aring && filled c.bring && !s.held k c.entry &&
  (s.core k).vq.all (fun e => e.seq ≥ c.seq || e.started || !(e.cl == c.cl && e.cls == c.cls)) &&
  (match c.slot with | some q => !(s.core k).hzPending q c.seq | none => true)

/-- The command with a number in a core's vector queue. -/
def Core.vcmd (x : Core) (n : Nat) : Option VCmd := x.vq.find? fun c => c.seq = n

/-- A command of a core's vector queue changed. -/
def State.modVCmd (s : State) (k : CoreIx) (n : Nat) (f : VCmd → VCmd) : State :=
  s.modCore k fun x => { x with vq := updFirst (fun c => c.seq == n) f x.vq }

/-- A command starts: it reads its operands (R141, R143, R158, R160). -/
def State.vecStart (s : State) (k : CoreIx) (c : VCmd) : State :=
  match c.kind with
  | .vec op imm t =>
    let r := s.runVec c op imm t
    r.2.modVCmd k c.seq fun x => { x with started := true, writes := r.1.writes, flags := r.1.flags }
  | .push _ fromReg =>
    if fromReg then s.modVCmd k c.seq fun x => { x with started := true, value := c.gb.setWidth 32 }
    else
      let r := s.readCodes c.cl c.seq ⟨(bits c.ga 0 24 : Nat), 1, 0, 4⟩
      r.2.modVCmd k c.seq fun x => { x with started := true, value := BitVec.ofNat 32 (r.1.headD 0) }
  | .result q =>
    let v := ((s.core k).hzSlot q).ser.result
    s.modVCmd k c.seq fun x => { x with started := true, writes := [(bits c.ga 0 24, leBytes 4 v.toNat)] }

/-- VECTOR_COMMAND_START (R142). -/
def execVectorCommandStart (core : CoreIx) (n : Nat) (s : State) : Result :=
  match (s.core core).vcmd n with
  | some c => if s.vecReady core c then .next (s.vecStart core c) else s.stutter
  | none => s.stutter

/-- A command may complete: it has started, it is no HZPSH, every earlier command of its cluster and class has completed (R143),
and no bank it writes is locked (R230). -/
def State.vecDone (s : State) (k : CoreIx) (c : VCmd) : Bool :=
  c.started && (s.core k).vq.all (fun e => e.seq ≥ c.seq || !(e.cl == c.cl && e.cls == c.cls)) &&
  c.writes.all fun w => !(s.core k).locked w.1 w.2.length

/-- A command completes (R142, R143, R128): its writes perform, it fills its slot, releases its sources and merges its flags. -/
def State.vecComplete (s : State) (k : CoreIx) (c : VCmd) : State :=
  let s := s.modCore k fun x => { x with vq := x.vq.filter fun e => e.seq != c.seq }
  let s := s.storeAll (c.writes.map fun w => (.spad k w.1, w.2)) (s.cluster c.cl).lid
  let s := match c.dring with | some r => s.ringFill k r.k r.s | none => s
  let rel (s : State) (r : Option RingRef) : State := match r with | some q => s.ringRelease k q.k q.s | none => s
  let s := if vFlag c.ga 4 then (match c.kind with
      | .vec _ _ _ => rel (rel s c.aring) (if c.bring = c.aring then none else c.bring)
      | _ => s) else s
  s.mergeFlags c.cl c.seq c.flags

/-- VECTOR_COMMAND_COMPLETE (R143).  A queued HZPSH completes by HORIZON_CHECKPOINT. -/
def execVectorCommandComplete (core : CoreIx) (n : Nat) (s : State) : Result :=
  match (s.core core).vcmd n with
  | some c =>
    (match c.kind with
      | .push _ _ => s.stutter
      | _ => if s.vecDone core c then .next (s.vecComplete core c) else s.stutter)
  | none => s.stutter

/-- HORIZON_CHECKPOINT (R132 to R134, R158): an HZPSH that has its value applies it to its slot and completes. -/
def execHorizonCheckpoint (core : CoreIx) (n : Nat) (s : State) : Result :=
  match (s.core core).vcmd n with
  | some c =>
    (match c.kind with
      | .push k _ =>
        if s.vecDone core c then
          .next ((s.modCore core fun x => x.modHz k fun h => { h with ser := h.ser.checkpoint h.cfg c.value }).vecComplete core c)
        else s.stutter
      | _ => s.stutter)
  | none => s.stutter

end Sys2Proof.Machine
end

