-- ==== Sys2Proof/Machine/VectorOps.lean ====
section
/-!
DEFINITION. VectorOps: the words of the vector unit and of the Horizon slots (R147 to R162).
-/

namespace Sys2Proof.Machine

/-- VADD (R147). -/
def execVadd (i : Bool) (o : Cls) (a b : Reg) (t : ElemType) (s : State) : Result := s.vecIssue .add i t o a b
/-- VSUB (R147). -/
def execVsub (i : Bool) (o : Cls) (a b : Reg) (t : ElemType) (s : State) : Result := s.vecIssue .sub i t o a b
/-- VMUL (R147). -/
def execVmul (i : Bool) (o : Cls) (a b : Reg) (t : ElemType) (s : State) : Result := s.vecIssue .mul i t o a b
/-- VMAC (R147). -/
def execVmac (i : Bool) (o : Cls) (a b : Reg) (t : ElemType) (s : State) : Result := s.vecIssue .mac i t o a b
/-- VMIN (R147). -/
def execVmin (i : Bool) (o : Cls) (a b : Reg) (t : ElemType) (s : State) : Result := s.vecIssue .min i t o a b
/-- VMAX (R147). -/
def execVmax (i : Bool) (o : Cls) (a b : Reg) (t : ElemType) (s : State) : Result := s.vecIssue .max i t o a b
/-- VABS (R147). -/
def execVabs (o : Cls) (a b : Reg) (t : ElemType) (s : State) : Result := s.vecIssue .abs false t o a b
/-- VNEG (R147). -/
def execVneg (o : Cls) (a b : Reg) (t : ElemType) (s : State) : Result := s.vecIssue .neg false t o a b
/-- VSCALE (R147). -/
def execVscale (o : Cls) (a b : Reg) (t : ElemType) (s : State) : Result := s.vecIssue .scale true t o a b
/-- VEXP (R148). -/
def execVexp (o : Cls) (a b : Reg) (t : ElemType) (s : State) : Result := s.vecIssue .exp false t o a b
/-- VLOG (R148). -/
def execVlog (o : Cls) (a b : Reg) (t : ElemType) (s : State) : Result := s.vecIssue .log false t o a b
/-- VRCP (R148). -/
def execVrcp (o : Cls) (a b : Reg) (t : ElemType) (s : State) : Result := s.vecIssue .rcp false t o a b
/-- VRSQRT (R148). -/
def execVrsqrt (o : Cls) (a b : Reg) (t : ElemType) (s : State) : Result := s.vecIssue .rsqrt false t o a b
/-- VTANH (R148). -/
def execVtanh (o : Cls) (a b : Reg) (t : ElemType) (s : State) : Result := s.vecIssue .tanh false t o a b
/-- VSIGM (R148). -/
def execVsigm (o : Cls) (a b : Reg) (t : ElemType) (s : State) : Result := s.vecIssue .sigm false t o a b
/-- VCVT (R149). -/
def execVcvt (o : Cls) (a b : Reg) (t : ElemType) (s : State) : Result := s.vecIssue .cvt false t o a b
/-- VCVTZ (R149). -/
def execVcvtz (o : Cls) (a b : Reg) (t : ElemType) (s : State) : Result := s.vecIssue .cvtz false t o a b
/-- VSUM (R150). -/
def execVsum (o : Cls) (a b : Reg) (t : ElemType) (s : State) : Result := s.vecIssue .sum false t o a b
/-- VRMAX (R150). -/
def execVrmax (o : Cls) (a b : Reg) (t : ElemType) (s : State) : Result := s.vecIssue .rmax false t o a b
/-- VDOT (R150). -/
def execVdot (o : Cls) (a b : Reg) (t : ElemType) (s : State) : Result := s.vecIssue .dot false t o a b
/-- VCMPEQ (R151). -/
def execVcmpeq (i : Bool) (o : Cls) (a b : Reg) (t : ElemType) (s : State) : Result := s.vecIssue .cmpeq i t o a b
/-- VCMPLT (R151). -/
def execVcmplt (i : Bool) (o : Cls) (a b : Reg) (t : ElemType) (s : State) : Result := s.vecIssue .cmplt i t o a b
/-- VCMPLE (R151). -/
def execVcmple (i : Bool) (o : Cls) (a b : Reg) (t : ElemType) (s : State) : Result := s.vecIssue .cmple i t o a b
/-- VSEL (R151). -/
def execVsel (i : Bool) (o : Cls) (a b : Reg) (t : ElemType) (s : State) : Result := s.vecIssue .sel i t o a b
/-- VAND (R151). -/
def execVand (i : Bool) (o : Cls) (a b : Reg) (t : ElemType) (s : State) : Result := s.vecIssue .and i t o a b
/-- VOR (R151). -/
def execVor (i : Bool) (o : Cls) (a b : Reg) (t : ElemType) (s : State) : Result := s.vecIssue .or i t o a b
/-- VXOR (R151). -/
def execVxor (i : Bool) (o : Cls) (a b : Reg) (t : ElemType) (s : State) : Result := s.vecIssue .xor i t o a b
/-- VSHL (R151). -/
def execVshl (i : Bool) (o : Cls) (a b : Reg) (t : ElemType) (s : State) : Result := s.vecIssue .shl i t o a b
/-- VSHR (R151). -/
def execVshr (i : Bool) (o : Cls) (a b : Reg) (t : ElemType) (s : State) : Result := s.vecIssue .shr i t o a b
/-- VCOPY (R152). -/
def execVcopy (o : Cls) (a b : Reg) (t : ElemType) (s : State) : Result := s.vecIssue .copy false t o a b
/-- VFILL (R152). -/
def execVfill (i : Bool) (o : Cls) (a b : Reg) (t : ElemType) (s : State) : Result := s.vecIssue .fill i t o a b
/-- VPRED (R152). -/
def execVpred (o : Cls) (a b : Reg) (t : ElemType) (s : State) : Result := s.vecIssue .pred false t o a b

/-- The queued commands of the cluster that issues. -/
def State.myVcmds (s : State) : List VCmd := s.myCore.vq.filter fun c => c.cl == s.focus

/-- VFENCE (R153): a wait for the cluster's earlier vector and Horizon commands, in the classes of gA when A is not 0; then a
delivery point. -/
def execVfence (a : Reg) (s : State) : Result :=
  .next (if s.myVcmds.any (fun c => a = 0 || bit (s.g a) c.cls.toNat) then s.stall else s.advanceDeliver)

/-- VBUSY (R154). -/
def execVbusy (d : Reg) (s : State) : Result :=
  let cs := s.myVcmds
  .next (s.finish d (packWord ((16, cs.length) :: (List.range 16).map fun k => (k, flagNat (cs.any fun c => c.cls.toNat == k)))))

/-! ### Horizon (R156 to R162) -/

/-- An operation on slot k that has issued has not been applied. -/
def State.hzWaits (s : State) (k : BitVec 4) : Bool := s.myCore.hzPending k.toNat s.serial

/-- HZCFG (R157). -/
def execHzcfg (k : BitVec 4) (d a b : Reg) (s : State) : Result :=
  let h : HzSlot := ⟨s.g a, s.g b, s.g d, Series.reset⟩
  .next (
    if outside h.ctl (maskAt 12 20 + maskAt 8 2) then s.trap .lch 0x202
    else if !h.cfg.ok then s.trap .lch 0x201
    else if s.hzWaits k then s.stall
    else (s.modMyCore fun x => x.modHz k.toNat fun _ => h).advance)

/-- The checks of the address of HZPSH and HZRD (R158, R312), and the entry into the queue; a trap copies gA and gB, which is g0, to
VLCA and VLCB, as of any vector command (R155, R156). (DEDUCED, log 55) -/
def State.hzAccess (s : State) (kind : VecKind) (a : Reg) (o : Cls) : Result :=
  let ga := s.g a
  let p := Path.code .v
  let w := s.spadBarred s.myCoreIx [(bits ga 0 24, bits ga 0 24 + 4)]
  let s := w.2
  let fails (cause : Cause) (v : Word) (p : Nat) : State := (s.modMe fun c => { c with vlca := ga, vlcb := 0 }).trap cause v p
  .next (
    if bits ga 0 2 ≠ 0 then fails .aln ga p
    else if spadBytes s.myCoreIx ≤ bits ga 0 24 then fails .xlt (word (bits ga 0 24)) p
    else if w.1.isSome then fails .prm (word (w.1.getD 0)) p
    else if bits ga 24 40 ≠ 0 then fails .lch 0x202 noPath
    else if s.vqFull || s.me.gated .v o then s.stall
    else s.vqEnter (s.newVCmd kind o ga 0))

/-- HZPSH in the memory form (R158). -/
def execHzpsh (k : BitVec 4) (a : Reg) (o : Cls) (s : State) : Result := s.hzAccess (.push k.toNat false) a o

/-- HZPSH.R (R158): the form names no class, and the command is in class 0. -/
def execHzpshR (k : BitVec 4) (b : Reg) (s : State) : Result :=
  .next (if s.vqFull || s.me.gated .v 0 then s.stall else s.vqEnter (s.newVCmd (.push k.toNat true) 0 0 (s.g b)))

/-- HZEST (R159). -/
def execHzest (d : Reg) (k : BitVec 4) (s : State) : Result :=
  let h := s.myCore.hzSlot k.toNat
  .next (if s.hzWaits k then s.stall
    else s.finish d (packWord [(48, flagNat (h.ser.closed h.cfg)), (40, h.ser.n), (32, h.ser.flags), (0, h.ser.t.toNat)]))

/-- HZRD (R160). -/
def execHzrd (k : BitVec 4) (a : Reg) (o : Cls) (s : State) : Result := s.hzAccess (.result k.toNat) a o

/-- HZCLR (R161). -/
def execHzclr (k : BitVec 4) (s : State) : Result :=
  .next (if s.hzWaits k then s.stall
    else (s.modMyCore fun x => x.modHz k.toNat fun h => { h with ser := Series.reset }).advance)

end Sys2Proof.Machine
end

