-- ==== Sys2Proof/Machine/Creg.lean ====
section
/-!
DEFINITION. Creg: the configuration registers, GETC and SETC (R37 to R45, R87, and the register tables of the later chapters).
-/

namespace Sys2Proof.Machine

/-! ### Allocation and access (R38 to R40) -/

/-- Who may write a register (R40). -/
inductive CAcc where
  | r | w | h | sec
  deriving DecidableEq, Repr

/-- The per-cluster and per-core ranges. -/
def coreAcc (a : Nat) : Option CAcc :=
  if a = 0x000 then some .r
  else if 0x001 ≤ a ∧ a ≤ 0x005 then some .h
  else if a = 0x008 ∨ a = 0x009 then some .w
  else if 0x010 ≤ a ∧ a ≤ 0x018 then some .r
  else if 0x020 ≤ a ∧ a ≤ 0x03F then some .h
  else if a = 0x040 ∨ a = 0x041 then some .r
  else if a = 0x100 ∨ a = 0x102 ∨ a = 0x104 ∨ a = 0x105 then some .h
  else if a = 0x101 ∨ a = 0x103 then some .r
  else if 0x110 ≤ a ∧ a ≤ 0x1AF then some .r
  else if a = 0x200 then some .h
  else if (0x300 ≤ a ∧ a ≤ 0x303) ∨ a = 0x305 ∨ a = 0x306 then some .h
  else if a = 0x304 ∨ a = 0x307 then some .r
  else none

/-- The per-engine range. -/
def engineAcc (a : Nat) : Option CAcc :=
  if a = 0x400 then some .r
  else if 0x480 ≤ a ∧ a ≤ 0x4FF then (if a % 8 ≤ 4 then some .r else none)
  else if 0x500 ≤ a ∧ a ≤ 0x582 then some .r
  else if 0x600 ≤ a ∧ a ≤ 0x73F then (if a % 16 = 4 then some .w else if a % 16 ≤ 6 then some .r else none)
  else if a = 0x740 then some .w
  else if 0x741 ≤ a ∧ a ≤ 0x74D then some .r
  else if 0x7C0 ≤ a ∧ a ≤ 0x7C2 then some .r
  else none

/-- The per-die range: some addresses are allocated on one kind of die only (R303, R343). -/
def dieAcc (hub : Bool) (a : Nat) : Option CAcc :=
  if 0x800 ≤ a ∧ a ≤ 0x803 then some .r
  else if a = 0x804 then some .h
  else if a = 0x805 ∨ a = 0x806 then some .r
  else if a = 0x808 ∨ a = 0x809 then some .sec
  else if 0x80A ≤ a ∧ a ≤ 0x80C then some .r
  else if a = 0x900 ∨ a = 0x902 then some .h
  else if a = 0x901 ∨ a = 0x904 then some .r
  else if a = 0x903 then some .w
  else if 0x910 ≤ a ∧ a ≤ 0x91F then some .h
  else if 0x920 ≤ a ∧ a ≤ 0x92F then some .r
  else if a = 0xA08 then some .sec
  else if a = 0xA09 then some .r
  else if hub then
    if 0xA20 ≤ a ∧ a ≤ 0xA2B then (match a % 4 with | 0 => some .h | 2 => some .w | _ => some .r)
    else if 0xA2C ≤ a ∧ a ≤ 0xA2E then some .h
    else none
  else if 0xA00 ≤ a ∧ a ≤ 0xA06 then some .sec
  else if a = 0xA07 ∨ a = 0xA0B then some .r
  else if a = 0xA0A then some .sec
  else none

/-- The secure-only range. -/
def secureAcc (a : Nat) : Option CAcc :=
  if a = 0xC00 ∨ a = 0xC01 ∨ a = 0xC03 ∨ a = 0xC20 ∨ a = 0xC21 then some .sec
  else if a = 0xC02 then some .r
  else none

/-- The access of a register; nothing for an address that is not allocated (R39). -/
def cregAcc (hub : Bool) (a : Nat) : Option CAcc :=
  if a < 0x400 then coreAcc a else if a < 0x800 then engineAcc a else if a < 0xC00 then dieAcc hub a else secureAcc a

/-- An allocated address lies in the block of a unit that the core lacks: AUT (R39). -/
def State.cregAbsent (s : State) (k : CoreIx) (a : Nat) : Bool :=
  let hub := isHub (dieOf k)
  (0x500 ≤ a && a ≤ 0x582 && !hub) || (0x740 ≤ a && a ≤ 0x74D && hub) ||
  (0x600 ≤ a && a ≤ 0x73F && s.engineCount k ≤ (a - 0x600) / 16)

/-- The bits of a writable register that are not reserved. (DEDUCED, log 40) -/
def cregMask (a : Nat) : Nat :=
  if 0x020 ≤ a ∧ a ≤ 0x03F then 2 ^ 64 - 1
  else if 0x600 ≤ a ∧ a ≤ 0x73F then maskAt 32 16 + maskAt 16 16 + maskAt 8 5
  else if 0x910 ≤ a ∧ a ≤ 0x91F then maskAt 36 12 + 0xF
  else if 0xA01 ≤ a ∧ a ≤ 0xA04 then 2 ^ 64 - 1
  else if 0xA20 ≤ a ∧ a ≤ 0xA2B then (if a % 4 = 0 then erxMask else maskAt 0 32)
  else if 0xA2C ≤ a ∧ a ≤ 0xA2E then maskAt 0 48
  else match a with
    | 0x001 => 0xC71F
    | 0x002 => maskAt 0 18
    | 0x003 => 2 ^ 64 - 1
    | 0x004 => 0x1F
    | 0x005 => maskAt 2 16
    | 0x008 | 0x009 => 0x1F
    | 0x100 => 2 ^ 64 - 1
    | 0x102 => maskAt 12 36 + 0xF
    | 0x104 => 0x7F
    | 0x105 => 0x1F
    | 0x200 => 0xF
    | 0x300 => maskAt 12 36 + 1
    | 0x301 | 0x302 | 0x303 => maskAt 12 36 + 0x1F
    | 0x305 => maskAt 0 33
    | 0x306 => 0xFFFF
    | 0x740 => 1
    | 0x804 => 1
    | 0x808 => maskAt 48 8 + maskAt 32 8 + maskAt 16 16
    | 0x809 => maskAt 16 16 + 1
    | 0x900 => 0x1F
    | 0x902 => maskAt 15 33
    | 0x903 => maskAt 0 44
    | 0xA00 => 0xFF
    | 0xA05 => 0x807F_807F_807F_807F
    | 0xA06 => maskAt 8 8 + maskAt 1 3 + 1
    | 0xA08 => 0xFFFF
    | 0xA0A => 0xFFF
    | 0xC00 => maskAt 16 32 + 1
    | 0xC01 => maskAt 0 24
    | 0xC03 => 0x3FF
    | 0xC20 => maskAt 13 35 + 1
    | 0xC21 => 2 ^ 64 - 1
    | _ => 0

/-- The bits of a read-only register that are not reserved; ORIENT takes any value to its check of R12. -/
def readMask (a : Nat) : Nat :=
  if 0x010 ≤ a ∧ a ≤ 0x013 then maskAt 0 32
  else if 0x014 ≤ a ∧ a ≤ 0x017 then maskAt 32 18 + maskAt 0 18
  else if 0x110 ≤ a ∧ a ≤ 0x14F then maskAt 23 41 + 1
  else if 0x150 ≤ a ∧ a ≤ 0x1AF then maskAt 48 16 + maskAt 24 16
  else if 0x480 ≤ a ∧ a ≤ 0x4FF then (match a % 8 with
    | 0 => maskAt 12 20 + maskAt 8 2
    | 3 => maskAt 40 8 + 0xF
    | _ => 2 ^ 64 - 1)
  else if 0x500 ≤ a ∧ a ≤ 0x53F then (match a % 32 with
    | 0 => maskAt 0 21
    | 1 => maskAt 0 20
    | 26 | 28 => maskAt 0 48
    | 27 | 29 => 2 ^ 64 - 1
    | 31 => 0
    | i => if i ≤ 7 then maskAt 0 11 else maskAt 0 32)
  else if 0x600 ≤ a ∧ a ≤ 0x73F then (match a % 16 with
    | 0 => maskAt 16 10 + 0xFB
    | 1 => maskAt 0 60
    | 3 => maskAt 16 32 + maskAt 8 2 + 0x1F
    | 6 => maskAt 16 48 + 3
    | _ => 2 ^ 64 - 1)
  else if 0x7C0 ≤ a ∧ a ≤ 0x7C2 then maskAt 0 56
  else match a with
    | 0x000 => maskAt 7 9 + 3
    | 0x018 => 7
    | 0x101 => maskAt 0 8
    | 0x103 => maskAt 32 32 + 0xFFF3
    | 0x307 => maskAt 16 4 + maskAt 8 6 + maskAt 0 6
    | 0x400 => maskAt 0 22
    | 0x580 => maskAt 22 2 + maskAt 8 10 + 0x3F
    | 0x741 => maskAt 12 45 + 0xE1
    | 0x742 | 0x746 => maskAt 0 32
    | 0x747 => maskAt 8 8 + 3
    | 0x748 => 3
    | 0x74D => maskAt 8 8 + 3
    | 0x800 | 0x801 => 2 ^ 64 - 1
    | 0x802 => maskAt 8 8 + 3
    | 0x803 => maskAt 8 48
    | 0x80A => maskAt 32 32 + 3
    | 0x80C => maskAt 24 40 + maskAt 8 4 + 0x1F
    | 0x901 => maskAt 23 26
    | 0xA07 => maskAt 32 32 + maskAt 0 18
    | 0xA09 => maskAt 48 16 + maskAt 8 6 + maskAt 0 6
    | 0xA0B => maskAt 63 1 + maskAt 32 11 + maskAt 16 11 + maskAt 0 11
    | 0xC02 => maskAt 8 8 + 1
    | _ => 2 ^ 64 - 1

/-- A value that a field does not take: a LOGN above its table's largest (R306), or a Span number above 639 (R313). (DEDUCED, log 40) -/
def cregValueBad (a : Nat) (v : Word) : Bool :=
  match a with
  | 0x301 => 16 < bits v 0 5
  | 0x302 | 0x303 => 12 < bits v 0 5
  | 0xC03 => 639 < v.toNat
  | _ => false

/-! ### Reading -/

/-- The link of logical port p of a die (R295): RING+ or STACKL, RING− or STACKH, HUB or PEER. -/
def portLink (d : DieIx) (p : Nat) : LinkIx :=
  match d.val, p with
  | 0, 0 => 0 | 0, 1 => 3 | 0, _ => 4
  | 1, 0 => 1 | 1, 1 => 0 | 1, _ => 6
  | 2, 0 => 2 | 2, 1 => 1 | 2, _ => 7
  | 3, 0 => 3 | 3, 1 => 2 | 3, _ => 5
  | 4, 0 => 4 | 4, 1 => 5 | 4, _ => 8
  | _, 0 => 6 | _, 1 => 7 | _, _ => 8

/-- The registers of a cluster. -/
def State.cluRead (s : State) (c : CluIx) (a : Nat) : Word :=
  let x := s.cluster c
  if 0x020 ≤ a ∧ a ≤ 0x03F then x.ug (BitVec.ofNat 5 (a - 0x020))
  else if 0x010 ≤ a ∧ a ≤ 0x013 then (vget x.loops.cnt (a - 0x010) 0).setWidth 64
  else if 0x014 ≤ a ∧ a ≤ 0x017 then
    packWord [(32, (vget x.loops.start (a - 0x014) 0).toNat), (0, (vget x.loops.stop (a - 0x014) 0).toNat)]
  else match a with
    | 0x000 => s.clid c
    | 0x001 => x.tcause
    | 0x002 => x.tepc
    | 0x003 => x.tval
    | 0x004 => packWord [(4, flagNat x.solo), (3, flagNat x.pworld), (2, flagNat x.pmode),
        (1, flagNat (s.core (coreOf c)).secure), (0, flagNat (x.mode == .handler))]
    | 0x005 => x.thvec
    | 0x008 => x.fpflg.setWidth 64
    | 0x009 => x.fpxen.setWidth 64
    | 0x018 => word x.loops.depth
    | 0x040 => x.vlca
    | 0x041 => x.vlcb
    | _ => 0

/-- CXST (R329). -/
def Core.cxst (x : Core) : Word :=
  packWord [(32, x.cxLen.toNat), (8, x.cxErr), (4, x.cxLop), (1, flagNat x.cxDone), (0, flagNat x.cxPend)]

/-- BARk (R95). -/
def Barrier.status (b : Barrier) : Word := packWord [(48, b.phase.toNat), (32, b.members.length), (24, b.arrived.length)]

/-- RCOCC (R306): the matrix entries are the nests, the SQLDs, the MXDRAINs and an MXIDX that waits (R228). -/
def Core.rcocc (x : Core) : Word :=
  let drains := (x.tiles.filter fun t => match t.owner with | .drain _ _ => true | _ => false).length
  packWord [(16, min 15 (flagNat x.mx.run.isSome + flagNat x.mx.armed.isSome + x.mx.sqlds.length + flagNat x.mx.idxq.isSome + drains)),
    (8, min 63 (x.ce.toList.foldl (fun n e => n + e.queue.length) 0)), (0, x.vq.length)]

/-- VUSTAT (R155). -/
def Core.vustat (x : Core) : Word :=
  packWord ((16, x.vq.length) :: (List.range 4).map fun c => (4 * c, min 15 (x.vq.filter fun q => cluNo q.cl == c).length))

/-- A register of Horizon slot k (R131). -/
def HzSlot.reg (h : HzSlot) (j : Nat) : Word :=
  match j with
  | 0 => h.ctl
  | 1 => h.tol
  | 2 => h.lim
  | 3 => packWord [(40, h.ser.n), (0, h.ser.flags)]
  | _ => packWord [(32, h.ser.s.toNat), (0, h.ser.t.toNat)]

/-- Register j of an index table: entry 4j + h in bits 16h + 15:16h (R163). -/
def tableReg (t : Vector (BitVec 16) 128) (j : Nat) : Word :=
  packWord ((List.range 4).map fun h => (16 * h, (vget t (4 * j + h) 0).toNat))

/-- Register i of a configuration plane as it is read: its reserved bits read as zero (R6, R163, R164). -/
def planeRead (p : Vector Word 32) (i : Nat) : Word :=
  let w := planeReg p i
  match i with
  | 0 => w.setWidth 21 |>.setWidth 64
  | 1 => w.setWidth 20 |>.setWidth 64
  | 26 | 28 => w.setWidth 48 |>.setWidth 64
  | 27 => if bit (planeReg p 0) 20 then w else w.setWidth 48 |>.setWidth 64
  | 29 => w
  | 31 => 0
  | _ => if i ≤ 7 then w.setWidth 11 |>.setWidth 64 else w.setWidth 32 |>.setWidth 64

/-- A register of the matrix engine (R163). -/
def Matrix.reg (m : Matrix) (a : Nat) : Word :=
  if a < 0x520 then planeRead m.act (a - 0x500)
  else if a < 0x540 then planeRead m.shd (a - 0x520)
  else if a < 0x560 then tableReg m.iact (a - 0x540)
  else if a < 0x580 then tableReg m.ishd (a - 0x560)
  else match a with
    | 0x580 => m.status
    | 0x581 => m.progress
    | _ => m.fa

/-- A register of copy engine e (R196). -/
def State.copyReg (s : State) (k : CoreIx) (e j : Nat) : Word :=
  let x := (s.core k).engine e
  match j with
  | 0 => s.cpst k e
  | 1 => x.progress
  | 2 => x.fa
  | 3 => x.cperr
  | 4 => x.scfg
  | 5 => x.cpscnt
  | _ => x.cpswin

/-- Level of a logical column (R279). -/
def Die.columnLevel (x : Die) (c : Nat) : Nat := (lookupNat c x.levels).getD 0

/-- LSTATUS (R283). -/
def Die.lstatus (x : Die) : Word :=
  let l := x.lanes
  let qs := (List.range x.lanesN).map l.queued
  packWord [(48, l.intv), (41, qs.foldl max 0), (34, qs.foldl min 127 % 127), (28, l.most x.lanesN - l.least x.lanesN),
    (20, l.syncn % 256), (12, l.safen % 256), (7, flagNat l.wdr), (6, flagNat l.prep), (5, flagNat x.mig.isSome), (0, flagNat l.apl)]

/-- MIGST (R283). -/
def Die.migst (x : Die) : Word :=
  match x.mig with
  | some m => packWord [(15, 1), (8, m.col), (0, m.spare)]
  | none => 0

/-- LVLMAPj (R283). -/
def Die.lvlmap (x : Die) (j : Nat) : Word :=
  packWord ((List.range 32).map fun c => (2 * c, x.columnLevel (32 * j + c)))

/-- A register of the lanes (R283). -/
def Die.laneReg (x : Die) (a : Nat) : Word :=
  match a with
  | 0x740 => x.lanes.lctl
  | 0x741 => x.lstatus
  | 0x742 => word x.lanes.lpois
  | 0x743 => x.lanes.lpfirst
  | 0x744 => x.lanes.hzsum
  | 0x745 => x.lanes.planeCounts
  | 0x746 => word x.lanes.lpcnt
  | 0x747 => x.lanes.lhzdef
  | 0x748 => x.lanes.lrmode
  | 0x74D => x.migst
  | _ => x.lvlmap (a - 0x749)

/-- The per-core registers. -/
def State.coreRead (s : State) (k : CoreIx) (a : Nat) : Word :=
  let x := s.core k
  let hub := isHub (dieOf k)
  if 0x110 ≤ a ∧ a < 0x150 then (x.ring (a - 0x110)).cfg
  else if 0x150 ≤ a ∧ a ≤ 0x1AF then (x.bar (a - 0x150)).status
  else match a with
    | 0x100 => x.syncwd
    | 0x101 => packWord [(3, s.engineCount k), (2, flagNat !hub), (1, flagNat hub), (0, 1)]
    | 0x102 => x.preq
    | 0x103 => x.cxst
    | 0x104 => word x.hlim
    | 0x105 => packWord [(4, flagNat x.dbgStep)]
    | 0x200 => x.schen.setWidth 64
    | 0x300 => x.ptroot
    | 0x301 => x.htcfg
    | 0x302 => x.pitcfg
    | 0x303 => x.xfqb
    | 0x304 => packWord [(32, x.xfTail.toNat), (0, (x.xfHead.toNat + flagNat x.xfAns.isSome) % 2 ^ 32)]
    | 0x305 => x.xfresp
    | 0x306 => x.owntag.setWidth 64
    | 0x307 => x.rcocc
    | _ => 0

/-- The registers of the units of a core. -/
def State.unitRead (s : State) (k : CoreIx) (a : Nat) : Word :=
  let x := s.core k
  let d := dieOf k
  if a = 0x400 then x.vustat
  else if a < 0x500 then (x.hzSlot ((a - 0x480) / 8)).reg (a % 8)
  else if a < 0x600 then x.mx.reg a
  else if a < 0x740 then s.copyReg k ((a - 0x600) / 16) (a % 16)
  else if a < 0x7C0 then (s.die d).laneReg a
  else
    let l := portLink d (a - 0x7C0)
    (s.link l).status l d

/-- The state of a slot, as QSLOTk shows it (R252). -/
def SlotState.code : SlotState → Nat
  | .free => 0 | .mapping => 1 | .active => 2 | .unmapping => 3

/-- QSLOTk (R252). -/
def QSlot.reg (q : QSlot) : Word :=
  packWord [(36, q.qnum), (2, q.st.code), (1, flagNat q.devq), (0, flagNat q.map)]

/-- TCLVL (R44): zero on a hub die. -/
def Die.tclvl (x : Die) : Word :=
  let ls := (List.range x.lcol).map x.columnLevel
  packWord [(8, (ls.filter (· == 3)).length), (0, (ls.filter (· != 3)).foldl max 0)]

/-- RESCNT (R43). -/
def Die.rescnt (x : Die) : Word :=
  packWord [(48, x.cores), (40, x.copye), (32, x.spcol), (24, x.lcol), (12, x.lanesN), (8, 3)]

/-- BOOTST (R348). -/
def Die.bootst (x : Die) : Word :=
  packWord [(32, x.svn.toNat), (24, x.minsvn), (8, x.bootErr), (4, flagNat x.ready), (0, x.stage)]

/-- The site that VBSEL names holds a vertical bus (R343). -/
def siteOk (d : DieIx) (site : Nat) : Bool := (siteAt (rotOf d) (site % 16) (site / 16)).isSome

/-- A repair field as last written: pending, in force, or 0 (R343). (DEDUCED, log 41) -/
def Die.repair (x : Die) (site g : Nat) : BitVec 16 :=
  match (x.vbpend ++ x.vbrep).find? fun r => r.1 == site && r.2.1 == g with
  | some r => r.2.2
  | none => 0

/-- VBREPk of the selected site; zero where there is no bus (R343). -/
def Die.vbrepReg (x : Die) (d : DieIx) (k : Nat) : Word :=
  if siteOk d x.vbsel then packWord ((List.range 4).map fun j => (16 * j, (x.repair x.vbsel (4 * k + j)).toNat)) else 0

/-- The receive registers of a hub die (R303). -/
def Die.erxReg (x : Die) (a : Nat) : Word :=
  if 0xA2C ≤ a then (vget x.eth (a - 0xA2C) EthPort.reset).mac.setWidth 64
  else
    let p := vget x.eth ((a - 0xA20) / 4) EthPort.reset
    match a % 4 with
    | 0 => p.cfg
    | 1 => packWord [(32, p.head.toNat), (0, p.tail.toNat)]
    | 2 => p.tail.setWidth 64
    | _ => p.drops

/-- Requests that the management firmware has and has not answered (R313). -/
def Die.wsPending (x : Die) : Nat := (x.ws.filter fun r => r.reply.isNone).length

/-- The per-die and secure-only registers. -/
def State.dieRead (s : State) (d : DieIx) (a : Nat) : Word :=
  let x := s.die d
  if 0x910 ≤ a ∧ a ≤ 0x91F then (x.slot (a - 0x910)).reg
  else if 0x920 ≤ a ∧ a ≤ 0x92F then
    packWord [(32, (x.slot (a - 0x920)).tail.toNat), (0, (x.slot (a - 0x920)).head.toNat)]
  else if 0xA01 ≤ a ∧ a ≤ 0xA04 then x.vbrepReg d (a - 0xA01)
  else if 0xA20 ≤ a ∧ a ≤ 0xA2E then x.erxReg a
  else match a with
    | 0x800 => x.orient
    | 0x801 => x.cycle
    | 0x802 => x.tclvl
    | 0x803 => x.rescnt
    | 0x804 => flagWord x.ete
    | 0x805 => packWord [(48, x.dramc), (32, x.hubc), (16, x.spc), (0, x.regc)]
    | 0x806 => packWord [(32, x.unc), (0, x.poisn)]
    | 0x808 => x.scrub
    | 0x809 => x.ckcfg
    | 0x80A => packWord [(32, x.ckNum.toNat), (1, flagNat x.ckBusy), (0, flagNat x.ckValid)]
    | 0x80B => packWord [(32, x.dualFirst.toNat), (0, x.dualSecond.toNat)]
    | 0x80C => x.bootst
    | 0x900 => word x.agel
    | 0x901 => packWord [(36, x.resv.length), (23, x.store.length)]
    | 0x902 => x.qtbase
    | 0x903 => x.notify
    | 0x904 => packWord [(32, x.ndrop), (0, x.badrec)]
    | 0xA00 => word x.vbsel
    | 0xA05 => x.cremap
    | 0xA06 => x.tectl
    | 0xA07 => x.test
    | 0xA08 => x.pwrcap.setWidth 64
    | 0xA09 => x.pwrst
    | 0xA0A => x.vbtdrv
    | 0xA0B => x.vbtrcv
    | 0xC00 => x.wmapb
    | 0xC01 => x.blkw.setWidth 64
    | 0xC02 => packWord [(8, min 255 x.wsPending), (0, flagNat x.mbRun)]
    | 0xC03 => x.spnum.setWidth 64
    | 0xC20 => x.elbase
    | 0xC21 => packWord [(40, x.elWr.toNat), (16, x.elRd.toNat), (0, x.elOvf)]
    | _ => 0

/-- The value of a register outside the per-cluster range, of a core or its die (R38). -/
def State.sharedRead (s : State) (k : CoreIx) (a : Nat) : Word :=
  if a < 0x400 then s.coreRead k a else if a < 0x800 then s.unitRead k a else s.dieRead (dieOf k) a

/-- The value of a register as a cluster reads it (R38). -/
def State.cregRead (s : State) (c : CluIx) (a : Nat) : Word :=
  if a < 0x100 then s.cluRead c a else s.sharedRead (coreOf c) a

/-! ### Writing -/

/-- A register of a cluster written. -/
def Cluster.cregWrite (c : Cluster) (a : Nat) (v : Word) : Cluster :=
  if 0x020 ≤ a ∧ a ≤ 0x03F then c.setUg (BitVec.ofNat 5 (a - 0x020)) v
  else match a with
    | 0x001 => { c with tcause := v }
    | 0x002 => { c with tepc := v }
    | 0x003 => { c with tval := v }
    | 0x004 => { c with solo := bit v 4, pworld := bit v 3, pmode := bit v 2 }
    | 0x005 => { c with thvec := v }
    | 0x008 => { c with fpflg := v.setWidth 5 }
    | 0x009 => { c with fpxen := v.setWidth 5 }
    | _ => c

/-- What a save, a restore or a clear begins with (R329). -/
def Core.beginCtx (x : Core) (v : Word) (op : CtxOp) : Core :=
  { x with preq := v, cxPend := true, cxDone := false, cxErr := 0, cxFail := false, ctxOp := op, cxTag := x.owntag }

/-- Lanes asked for a safe point by a pre-emption of their stack core (R275). -/
def Lanes.askPrep (x : Lanes) : Lanes := { x with prep := true, prepAge := 0 }

/-- A save has failed and may be tried again: of the part's own, or by the CSAVE of a handler (R329, R334). -/
def Core.saveFailed (x : Core) : Bool :=
  x.cxPend && x.cxFail && match x.ctxOp with | .saving _ _ | .trapping _ => true | _ => false

/-- A write of PREQ (R329, R330): while a save has failed, OP 1 makes the part write the image at the new IMG. -/
def State.writePreq (s : State) (k : CoreIx) (v : Word) : State :=
  let x := s.core k
  let img := bits v 12 36 * 2 ^ 12
  if x.cxPend then
    (if x.saveFailed && bits v 0 3 == 1 then s.setCore k { x with preq := v, cxErr := 0, cxFail := false, ctxOp := .saving img false } else s)
  else match bits v 0 3 with
    | 1 =>
      let s := s.setCore k (x.beginCtx v (.saving img (bit v 3)))
      if isHub (dieOf k) then s else s.modLanes (dieOf k) Lanes.askPrep
    | 2 => s.setCore k (x.beginCtx v (.restoring img))
    | 3 => s.setCore k (x.beginCtx v .clearing)
    | _ => s.setCore k { x with preq := v }

/-- Clusters of a core that a DBGREQ.HALT names take DBG at their next boundary (R337). -/
def State.haltClusters (s : State) (k : CoreIx) (m : Nat) : State :=
  (clustersOf k).foldl (fun acc c => if nbit m (cluNo c) then acc.pendOn c .dbg 0x100 else acc) s

/-- An answer that has been written acts now. -/
def State.flushAnswer (s : State) (k : CoreIx) : State :=
  match (s.core k).xfAns with
  | some true => s.answerFault k fun s w => s.stopXlt k w.eng w.va
  | some false => s.answerFault k fun s w => s.modDie (dieOf k) fun d => { d with walkWait := d.walkWait ++ [w] }
  | none => s

/-- A write of XFRESP: SEQ must equal HEAD, of a record that is there (R305, R306). -/
def State.writeXfresp (s : State) (k : CoreIx) (v : Word) : State :=
  let s := s.flushAnswer k
  let x := s.core k
  if bits v 0 32 = x.xfHead.toNat ∧ !x.xfq.isEmpty then s.setCore k { x with xfresp := v, xfAns := some (bit v 32) } else s

/-- A field of SCRUB takes the nearest value in range (R324). -/
def scrubClamp (v : Word) : Word :=
  packWord [(48, max 1 (min 48 (bits v 48 8))), (32, max 1 (min 60 (bits v 32 8))), (16, max 10 (min 10000 (bits v 16 16)))]

/-- Four repair fields of the selected site, written and not yet in force; ignored where there is no bus (R343). (DEDUCED, log 41) -/
def Die.writeVbrep (x : Die) (d : DieIx) (k : Nat) (v : Word) : Die :=
  if siteOk d x.vbsel then
    let new := (List.range 4).map fun j => (x.vbsel, 4 * k + j, BitVec.ofNat 16 (bits v (16 * j) 16))
    { x with vbpend := new ++ x.vbpend.filter fun r => !(r.1 == x.vbsel && r.2.1 / 4 == k) }
  else x

/-- A write of VBTDRV (R354): a beat is asked for, or VBTRCV shows that none ran. -/
def Die.writeVbtdrv (x : Die) (d : DieIx) (v : Word) : Die :=
  if 1055 < bits v 0 11 ∨ bit x.tectl 0 ∨ !siteOk d x.vbsel then
    { x with vbtdrv := v, vbtrcv := 0x8000_0000_07FF_07FF }
  else { x with vbtdrv := v, beat := some (x.vbsel, v) }

/-- A write of OWNTAG (R336); until a save that has been asked for sets it to 0xFFFF, it is the tag that the image records (R331). -/
def Core.writeOwntag (x : Core) (v : BitVec 16) : Core :=
  match x.ctxOp with
  | .saving _ _ => { x with owntag := v, cxTag := if x.owntag = 0xFFFF then x.cxTag else v }
  | _ => { x with owntag := v }

/-- A register of a core written. -/
def State.coreWrite (s : State) (k : CoreIx) (a : Nat) (v : Word) : State :=
  match a with
  | 0x100 => s.modCore k fun x => { x with syncwd := v }
  | 0x102 => s.writePreq k v
  | 0x104 => s.modCore k fun x => { x with hlim := bits v 0 7 }
  | 0x105 => (s.modCore k fun x => { x with dbgStep := bit v 4 }).haltClusters k (bits v 0 4)
  | 0x200 => s.modCore k fun x => { x with schen := v.setWidth 4 }
  | 0x300 => s.modCore k fun x => { x with ptroot := v }
  | 0x301 => s.modCore k fun x => { x with htcfg := v }
  | 0x302 => s.modCore k fun x => { x with pitcfg := v }
  | 0x303 => s.modCore k fun x => { x with xfqb := v }
  | 0x305 => s.writeXfresp k v
  | 0x306 => s.modCore k fun x => x.writeOwntag (v.setWidth 16)
  | _ => s

/-- A per-die or secure-only register written by an agent of a core and a world: the state, or a cause with the TVAL that the
manual gives. -/
def State.dieWrite (s : State) (k : CoreIx) (secure : Bool) (a : Nat) (v : Word) : Except (Cause × Option Nat) State :=
  let d := dieOf k
  if 0x910 ≤ a ∧ a ≤ 0x91F then
    (match s.writeQslot d (a - 0x910) k secure v with
      | .ok s' => .ok s'
      | .error e => .error (.lch, some e))
  else if 0xA01 ≤ a ∧ a ≤ 0xA04 then .ok (s.modDie d fun x => x.writeVbrep d (a - 0xA01) v)
  else if 0xA2C ≤ a ∧ a ≤ 0xA2E then .ok (s.modPort d (a - 0xA2C) fun p => { p with mac := v.setWidth 48 })
  else if 0xA20 ≤ a ∧ a ≤ 0xA2B then
    (if a % 4 = 0 then s.writeErxcfg d ((a - 0xA20) / 4) v secure
     else .ok (s.modPort d ((a - 0xA20) / 4) fun p => p.release (v.setWidth 32)))
  else .ok (match a with
    | 0x804 => s.modDie d fun x => { x with ete := bit v 0 }
    | 0x808 => s.modDie d fun x => { x with scrub := scrubClamp v }
    | 0x809 => s.modDie d fun x => { x with ckcfg := v }
    | 0x900 => s.modDie d fun x => { x with agel := bits v 0 5 }
    | 0x902 => s.modDie d fun x => { x with qtbase := v }
    | 0x903 => (s.modDie d fun x => x.putNotify v).takeNotify d k secure v
    | 0xA00 => s.modDie d fun x => { x with vbsel := bits v 0 8 }
    | 0xA05 => s.modDie d fun x => { x with cremap := v }
    | 0xA06 => s.modDie d fun x => { x with tectl := v }
    | 0xA08 => s.modDie d fun x => { x with pwrcap := v.setWidth 16 }
    | 0xA0A => s.modDie d fun x => x.writeVbtdrv d v
    | 0xC00 => s.modDie d fun x => { x with wmapb := v }
    | 0xC01 => s.modDie d fun x => { x with blkw := v.setWidth 24 }
    | 0xC03 => s.modDie d fun x => { x with spnum := v.setWidth 10 }
    | 0xC20 => s.modDie d fun x => { x with elbase := v }
    | 0xC21 => s.modDie d fun x => { x with elRd := (v >>> 16).setWidth 24 }
    | _ => s)

/-- A register outside the per-cluster range written (R38). -/
def State.cregWrite (s : State) (k : CoreIx) (secure : Bool) (a : Nat) (v : Word) : Except (Cause × Option Nat) State :=
  if a < 0x400 then .ok (s.coreWrite k a v)
  else if a = 0x740 then .ok (s.modLanes (dieOf k) fun x => { x with lctl := v })
  else if a < 0x800 then .ok (s.modEngine k ((a - 0x600) / 16) fun x => { x with scfg := v })
  else s.dieWrite k secure a v

/-! ### GETC and SETC (R87, R39) -/

/-- The checks of a GETC, in the order of R39, whose causes rise in it (R52). (DEDUCED, log 39) -/
def State.getcErr (s : State) (a : Nat) : Option Cause :=
  match cregAcc (isHub s.myDieIx) a with
  | none => some .udi
  | some _ =>
    if s.cregAbsent s.myCoreIx a then some .aut
    else if 0xC00 ≤ a ∧ !s.myCore.secure then some .prm
    else none

/-- The access of a register is refused to the cluster that issues (R37, R39). -/
def State.setcBarred (s : State) (a : Nat) (acc : CAcc) : Bool :=
  acc == .r || (0xC00 ≤ a && !s.myCore.secure) || (acc == .h && s.me.mode == .user) ||
  (acc == .sec && (s.me.mode == .user || !s.myCore.secure))

/-- The checks of a SETC: of several causes the lowest number is taken, so that a reserved bit is UDI whatever the unit, the access and
the mode (R39, R52); ORIENT raises PRM with any value (R12). (DEDUCED, log 39) -/
def State.setcErr (s : State) (a : Nat) (v : Word) : Option Cause :=
  match cregAcc (isHub s.myDieIx) a with
  | none => some .udi
  | some acc =>
    if outside v (if acc = .r then readMask a else cregMask a) || cregValueBad a v then some .udi
    else if s.cregAbsent s.myCoreIx a then some .aut
    else if s.setcBarred a acc then some .prm
    else none

/-- A fence that names the scalar path in some class holds back the register accesses of its cluster (R39, R216). -/
def Cluster.gatedCreg (c : Cluster) : Bool := c.fences.any fun f => f.paths.getLsbD 0 && f.mask != 0

/-- GETC (R87), after every earlier scalar access of the cluster (R225). -/
def execGetc (d : Reg) (c : BitVec 12) (s : State) : Result :=
  .next (match s.getcErr c.toNat with
    | some cause => s.trapFree cause
    | none =>
      if s.me.gatedCreg || s.postedScalar s.focus then s.stall else s.finish d (s.cregRead s.focus c.toNat))

/-- SETC of a register that takes effect at once. -/
def State.setcNow (s : State) (a : Nat) (v : Word) : State :=
  if a < 0x100 then (s.advance).modMe fun c => c.cregWrite a v
  else match s.cregWrite s.myCoreIx s.myCore.secure a v with
    | .ok s' => s.schedWord s'.advance
    | .error (cause, some t) => s.trap cause (word t)
    | .error (cause, none) => s.trapFree cause

/-- SETC (R87): of VBTDRV it completes when VBTRCV holds the result, and waits while another beat is asked for (R354). -/
def execSetc (c : BitVec 12) (a : Reg) (s : State) : Result :=
  let v := s.g a
  .next (match s.setcErr c.toNat v with
    | some cause => s.trapFree cause
    | none =>
      if s.me.gatedCreg || s.postedScalar s.focus then s.stall
      else if c.toNat = 0xA0A then
        (if s.me.beatWait || s.myDie.beat.isSome then s.stall
         else
          let s' := s.modMyDie fun x => x.writeVbtdrv s.myDieIx v
          if s'.myDie.beat.isSome then (s'.modMe fun c => { c with beatWait := true }).beginWait else s'.advance)
      else s.setcNow c.toNat v)

end Sys2Proof.Machine
end

