-- ==== Sys2Proof/Machine/System.lean ====
section
/-!
DEFINITION. System: BRK, RETT, IDLE, TLBINV and WSCALL, and the traps that come between words (R52, R316, R317, R326 to R328,
R337).
-/

namespace Sys2Proof.Machine

/-! ### BRK, RETT and IDLE (R328) -/

/-- BRK (R328): DBG, synchronously. -/
def execBrk (k : BitVec 5) (s : State) : Result := .next (s.trap .dbg (k.setWidth 64))

/-- RETT (R328): of the causes it meets the lowest number is taken (R52). (DEDUCED, log 47) -/
def execRett (s : State) : Result :=
  .next (
    if bits s.me.tepc 0 2 ≠ 0 then s.trap .aln s.me.tepc
    else if s.me.mode = .user then s.trapFree .prm
    else { s.modMe (fun c => c.rett s.myCore.dbgStep) with note := .done })

/-- IDLE's second end (R328): in user mode an asynchronous cause can be taken, or a record that the cluster may take waits at a
level above the current record's PRIO. -/
def State.idleEnds (s : State) : Bool :=
  s.me.mode == .user && (!s.me.pend.isEmpty ||
    s.waitingAt (1 + match s.me.record with | some r => r.prio | none => 0))

/-- IDLE (R328): the count is taken as the word issues, and a count of 0 waits one cycle.  An IDLE that waits has issued, in a bundle
too (R32; DEDUCED, log 25). -/
def execIdle (a : Reg) (s : State) : Result :=
  let v := s.g a
  .next (
    if bits v 32 32 ≠ 0 then s.trap .lch 0x550
    else match s.me.idle with
      | none => if s.idleEnds then s.advance else (s.modMe fun c => { c with idle := some (max 1 (bits v 0 32)) }).beginWait
      | some n => if n = 0 || s.idleEnds then s.advance else s.stall)

/-- IDLE_TIMEOUT (R328): the count of a waiting IDLE has run out. -/
def execIdleTimeout (cl : CluIx) (s : State) : Result :=
  let c := s.cluster cl
  if c.idle = some 0 ∧ c.record.isSome ∧ !c.held then .next (s.modCluster cl Cluster.advance) else s.stutter

/-! ### TLBINV (R316) -/

/-- The checks of TLBINV (R316, R37). -/
def tlbinvErrs (ga gb : Word) : List (Cause × Nat) :=
  let code := bits gb 0 3
  errIf (code == 7 || outside gb 0x107) .lch 0x701 ++
  errIf (match code with
    | 0 => bits ga 48 16 != 0
    | 2 => bits ga 32 32 != 0 || bit ga 23
    | 4 => bits ga 23 41 != 0
    | _ => false) .lch 0x702

/-- The cores whose TLB a TLBINV drops from. -/
def State.tlbinvCores (s : State) (gb : Word) : List CoreIx := if bit gb 8 then coresOf s.myDieIx else [s.myCoreIx]

/-- An access admitted under an entry that the TLBINV drops has not performed: another cluster's load or atomic whose data has
not returned, or its reduction store that has not been applied at its home; an entry of a switch keeps no virtual address, and is
waited for whatever the page (R212, R316). -/
def State.tlbinvWaits (s : State) (ga gb : Word) : Bool :=
  let under (ks : List CoreIx) (p : Nat → Bool) : Bool :=
    (ks.any fun k => (clustersOf k).any fun c => match (s.cluster c).remote with | some r => p r.va.toNat | none => false) ||
    (s.flits.any fun f => f.agent == 0 && f.path == .a && ks.contains (coreOf f.cl) && p f.va) ||
    s.merges.any fun m => m.from_.any fun x => ks.contains (coreOf x.1)
  match bits gb 0 3 with
  | 0 => under (s.tlbinvCores gb) fun va => va / 2 ^ 21 == ga.toNat / 2 ^ 21
  | 1 => under (s.tlbinvCores gb) fun _ => true
  | 4 | 5 => under (coresOf s.myDieIx) fun _ => true
  | _ => false

/-- Translations of a core dropped: all, or those of the page that holds an address.  The steps and walks in flight read the
tables again. -/
def Core.dropTlb (x : Core) (all : Bool) (va : Nat) : Core :=
  let keep (e : TlbEntry) : Bool := !(all || e.covers va)
  { x with tlb := x.tlb.filter keep, mx := { x.mx with xl := x.mx.xl.filter keep } }

/-- What a TLBINV drops (R316). -/
def State.tlbDrop (s : State) (ga gb : Word) : State :=
  let drop (all : Bool) : State := (s.tlbinvCores gb).foldl (fun acc k => acc.modCore k fun x => x.dropTlb all ga.toNat) s
  match bits gb 0 3 with
  | 0 => drop false
  | 1 => drop true
  | 2 => s.modMyDie fun x => { x with hcache := x.hcache.filter fun e => e.slot != bits ga 0 24 }
  | 3 => s.modMyDie fun x => { x with hcache := [] }
  | 4 => s.modMyDie fun x => { x with icache := x.icache.filter fun e => e.1 != bits ga 0 23 }
  | 5 => s.modMyDie fun x => { x with icache := [] }
  | 6 => s.modMyDie fun x => { x with wcache := [] }
  | _ => s

/-- TLBINV (R316): it waits for the cluster's S and A accesses and for the accesses admitted under what it drops, which then is
dropped at one moment. (DEDUCED, log 46) -/
def execTlbinv (a b : Reg) (s : State) : Result :=
  let ga := s.g a
  let gb := s.g b
  .next (
    if s.me.mode = .user ∨ (bits gb 0 3 = 6 ∧ !s.myCore.secure) then s.trapFree .prm
    else match leastErr (tlbinvErrs ga gb) with
      | some (cause, v) => s.trap cause (word v)
      | none =>
        if s.postedAt s.focus false || s.tlbinvWaits ga gb then s.stall else (s.tlbDrop ga gb).advance)

/-! ### WSCALL (R317) -/

/-- The request that a WSCALL of the present mode finds outstanding: in user mode by the tag the cluster keeps, in handler mode
the handler's own (R317). -/
def State.wsMine (s : State) : Option WsReq :=
  match s.me.mode with
  | .user => s.me.wstag.bind fun t => s.myDie.ws.find? fun r => r.tag == t
  | .handler => s.myDie.ws.find? fun r => r.cl == s.focus && !r.user && s.me.runs r.seq

/-- A request of the cluster is outstanding and unanswered, of a WSCALL that has trapped or of a record that has been pre-empted there: the
cluster has at most one (R317; DEDUCED, log 45). -/
def State.wsOther (s : State) : Bool := s.myDie.ws.any fun r => r.cl == s.focus && r.reply.isNone

/-- A tag of 16 bits that no request of the die has (R331 WAIT). -/
def Die.freshWsTag (x : Die) : Nat :=
  ((List.range (x.ws.length + 1)).find? fun n => x.ws.all fun r => r.tag != n).getD 0

/-- WSCALL (R317).  Once the request is sent the word has issued, in a bundle too, and only waits (R32; DEDUCED, log 25). (DEDUCED, log 45) -/
def execWscall (d a b : Reg) (s : State) : Result :=
  .next (
    match s.wsMine with
    | some r =>
      (match r.reply with
        | some v =>
          ((s.modMyDie fun x => { x with ws := x.ws.filter fun q => q.tag != r.tag }).modMe fun c =>
            if r.user then { c with wstag := none } else c).finish d v
        | none => s.stall)
    | none =>
      if s.postedAt s.focus false || s.wsOther then s.stall
      else if !s.myDie.mbRun then s.finish d 0xFFFF_FFFF_FFFF_FFFE
      else
        let user := s.me.mode == .user
        let r : WsReq := ⟨s.focus, s.serial, s.myDie.freshWsTag, user, s.myCore.secure, s.me.lid, s.g a, s.g b, none, none⟩
        let s' := (s.modMyDie fun x => { x with ws := x.ws ++ [r] }).tick
        { (s'.modMe fun c => if user then { c with wstag := some r.tag } else c).beginWait with
          out := s.out ++ [.service s.myDieIx] })

/-- A request for one of the two services of R355 that is well formed: secure, a site alone in gB, and a bus there. -/
def WsReq.busOk (r : WsReq) (d : DieIx) : Bool := r.secure && bits r.gb 8 56 == 0 && siteOk d (bits r.gb 0 8)

/-- Requests for a service of R355 on a stack die. -/
def WsReq.isBus (r : WsReq) (d : DieIx) : Bool := !isHub d && (r.ga == 0x20 || r.ga == 0x21)

/-- What firmware answers a request with now; nothing while a bus service has not been performed (R317, R355). -/
def WsReq.answer (r : WsReq) (d : DieIx) : Option Word :=
  if r.isBus d then (if r.busOk d then r.result else some 0xFFFF_FFFF_FFFF_FFFD) else some allOnes

/-- WSCALL_REPLY (R317, R355): the oldest unanswered request of a cluster is answered; the waiting word takes the reply when it
issues again. (DEDUCED, log 45) -/
def execWscallReply (cl : CluIx) (s : State) : Result :=
  let d := dieOfClu cl
  match (s.die d).ws.find? fun r => r.cl = cl ∧ r.reply.isNone with
  | some r =>
    (match r.answer d with
      | some v => .next (s.modDie d fun x => { x with ws := updFirst (fun q => q.tag == r.tag) (fun q => { q with reply := some v }) x.ws })
      | none => s.stutter)
  | none => s.stutter

/-! ### Traps between words -/

/-- A cluster can take an asynchronous cause: between words, in user mode, and MCK in handler mode as a double trap
(R52, R326, R327).  A load or atomic whose data has not returned is waited for first (R213). -/
def Cluster.mayTake (c : Cluster) (p : Pend) : Bool :=
  c.record.isSome && !c.stopped && !c.held && c.remote.isNone && !c.reasks && (c.mode == .user || p.cause == .mck)

/-- The cause a cluster takes next at a boundary. -/
def Cluster.nextAsync (c : Cluster) : Option Pend :=
  match c.firstPend with
  | some p => if c.mayTake p then some p else none
  | none => none

/-- The cause is taken: it is no longer pending (R52); the cluster that takes PRE may then CSAVE (R334). -/
def State.takeAsync (s : State) (cl : CluIx) (p : Pend) : State :=
  (s.modCluster cl fun c =>
    { c with pend := c.pend.filter fun q => q.cause != p.cause, saver := c.saver || p.cause == .pre }).takeTrap cl true false false p.path
    p.cause p.tval

/-- ASYNC_TRAP_ENTRY (R52, R326, R327). -/
def execAsyncTrapEntry (cl : CluIx) (s : State) : Result :=
  match (s.cluster cl).nextAsync with
  | some p => .next (s.takeAsync cl p)
  | none => s.stutter

/-- DEBUG_HALT (R337): a write of DBGREQ.HALT names the cluster. -/
def execDebugHalt (cl : CluIx) (s : State) : Result :=
  if (s.cluster cl).record.isSome then .next (s.pendOn cl .dbg 0x100) else s.stutter

end Sys2Proof.Machine
end

