-- ==== Sys2Proof/Machine/Context.lean ====
section
/-!
DEFINITION. Context: pre-emption, context images, restore and clear (R329 to R335, R267).
-/

namespace Sys2Proof.Machine

/-! ### Tokens (R332) -/

/-- Maximal runs of equal words. -/
def wordRuns : List Word → List (Word × Nat)
  | [] => []
  | w :: ws => match wordRuns ws with
    | (v, n) :: rest => if v = w then (v, n + 1) :: rest else (w, 1) :: (v, n) :: rest
    | [] => [(w, 1)]

/-- A literal token and its words; nothing for no words. -/
def literalToken (ws : List Word) : List Word := if ws.isEmpty then [] else word ws.length :: ws

/-- The tokens of a list of runs, with the literal words gathered so far. -/
def runTokens (lit : List Word) : List (Word × Nat) → List Word
  | [] => literalToken lit
  | (w, n) :: rest =>
    if w = 0 ∧ 2 ≤ n then literalToken lit ++ packWord [(62, 1), (0, n)] :: runTokens [] rest
    else if w ≠ 0 ∧ 3 ≤ n then literalToken lit ++ packWord [(62, 2), (0, n)] :: w :: runTokens [] rest
    else runTokens (lit ++ List.replicate n w) rest

/-- The tokens that a save codes words in (R332). -/
def encodeTokens (ws : List Word) : List Word := runTokens [] (wordRuns ws)

/-- n words decoded from tokens, and what follows them; nothing for an invalid token or another count (R332). -/
def decodeTokens : Nat → Nat → List Word → Option (List Word × List Word)
  | _, 0, ws => some ([], ws)
  | 0, _, _ => none
  | fuel + 1, n, t :: ws =>
    let k := bits t 0 32
    if bits t 32 30 ≠ 0 ∨ k = 0 ∨ 2 ^ 20 < k ∨ n < k then none
    else
      let part : Option (List Word × List Word) := match bits t 62 2, ws with
        | 0, ws => if ws.length < k then none else some (ws.take k, ws.drop k)
        | 1, ws => some (List.replicate k 0, ws)
        | 2, w :: ws => some (List.replicate k w, ws)
        | _, _ => none
      match part with
      | some (xs, ws) => (decodeTokens fuel (n - k) ws).map fun r => (xs ++ r.1, r.2)
      | none => none
  | _, _, [] => none

/-! ### Sections (R331, R333) -/

/-- A section word. -/
def sectionWord (id n : Nat) : Word := packWord [(56, id), (0, n)]

/-- A cluster as an image records it: between words, or at TEPC when it is in handler mode (R330, R334), a FENCE that waits at
its own PC (R218). -/
def Cluster.recorded (c : Cluster) : Cluster :=
  match c.mode with
  | .handler => { c with pc := c.tepc.setWidth 18, mode := .user, fences := c.fences.filter (·.passed) }
  | .user =>
    let p := c.trapPoint true
    { c with pc := p.1, loops := p.2, fences := c.fences.filter (·.passed) }

/-- The WAIT word of a recorded cluster (R331). -/
def State.waitWord (s : State) (c : Cluster) : Word :=
  match c.barv, c.wstag with
  | some w, t =>
    if w.pc = c.pc then packWord [(32, w.phase.toNat), (16, s.coreNo w.core), (8, w.k), (0, 1)]
    else (match t with | some t => packWord [(32, t), (0, 2)] | none => 0)
  | none, some t => packWord [(32, t), (0, 2)]
  | none, none => 0

/-- The 50 words of a cluster that holds a record (R331). -/
def State.clusterWords (s : State) (c : Cluster) (r : Record) : List Word :=
  let ends := (List.range 4).map fun k => packWord [(32, (vget c.loops.start k 0).toNat), (0, (vget c.loops.stop k 0).toNat)]
  [r.w0, r.w1, r.w2, r.w3, c.pc.setWidth 64, s.waitWord c] ++ c.regs.toList.drop 1 ++
    c.loops.cnt.toList.map (·.setWidth 64) ++ ends ++
    [word c.loops.depth, c.fpflg.setWidth 64, c.fpxen.setWidth 64, c.vlca, c.vlcb]

/-- The sections of the clusters of a core. -/
def State.clusterSections (s : State) (k : CoreIx) : List (List Word) :=
  (clustersOf k).filterMap fun c =>
    let x := (s.cluster c).recorded
    x.record.map fun r => sectionWord (1 + cluNo c) 50 :: encodeTokens (s.clusterWords x r)

/-- Words from bytes. -/
def wordsOf (n : Nat) (bs : List Byte) : List Word := (chunks 8 (n + 1) bs).map fun c => word (leNat c)

/-- The section of some granules: each an index word, then the tokens of its 512 words. -/
def granuleSection (id : Nat) (gs : List Nat) (bytes : Nat → List Byte) : List Word :=
  sectionWord id gs.length :: gs.flatMap fun g => word g :: encodeTokens (wordsOf 512 (bytes g))

/-- Bytes of instruction memory as a save reads them, with poison in place of uncorrectable words (R318, R323). -/
def Core.imemPoisoned (x : Core) (a n : Nat) : List Byte :=
  (List.zip (iota a n) (x.imem.readN a n)).map fun c => if x.imemBad.contains (c.1 / 8) then poisonByte c.1 else c.2

/-- Instruction-memory granules below the handler area (R329 CXCFG). -/
def Core.belowHandler (x : Core) (gs : List Nat) : List Nat := gs.filter fun g => g < min 64 x.hlim

/-- The units of a core as a save finds them; its lanes run what they have not completed again (R275). -/
def State.unitSave (s : State) (k : CoreIx) : UnitSave :=
  ⟨k, s.core k, (s.die (dieOf k)).lanes.requeue, (clustersOf k).map fun c => (s.cluster c).recorded⟩

/-- Sections 5 to 9, and 10 on a stack core, in a layout of the model's (R331; DESIGN CHOICE, log 16). -/
def State.unitSections (s : State) (k : CoreIx) : List (List Word) :=
  ((s.unitSave k).words (isHub (dieOf k))).map fun p => sectionWord p.1 p.2.length :: encodeTokens p.2

/-- The uncorrectable words that a save of a core reads are counted and logged (R320, R325). -/
def State.noteImage (s : State) (k : CoreIx) : State :=
  let d := dieOf k
  let x := s.core k
  let s := x.sdirty.foldl (fun acc g => acc.noteUnc (.spad k (4096 * g)) 4096) s
  (x.imemBad.filter fun w => (x.belowHandler x.idirty).contains (8 * w / 4096)).foldl
    (fun acc w => (acc.countUnc d 1).log d 4 1 (word (8 * w)) 0) s

/-- An image of a core as words (R331). -/
def State.imageWords (s : State) (k : CoreIx) : List Word :=
  let x := s.core k
  let hub := isHub (dieOf k)
  let secs := s.clusterSections k ++ s.unitSections k ++
    [granuleSection 11 x.sdirty fun g => s.peekPoisoned (.spad k (4096 * g)) 4096,
     granuleSection 12 (x.belowHandler x.idirty) fun g => x.imemPoisoned (4096 * g) 4096]
  let body := secs.flatten
  let bytes := body.flatMap fun w => leBytes 8 w.toNat
  let c0 : CluIx := ⟨4 * k.val, by omega⟩
  [packWord [(32, 64 + bytes.length), (24, 1), (16, flagNat !hub), (0, x.cxTag.toNat)], s.clid c0, word (crc64 bytes),
    word secs.length, (s.die (dieOf k)).cycle, 0, 0, 0] ++ body

/-! ### Image memory (R329, R330) -/

/-- Bytes written at an address by the context machinery, page by page; false where an access fails.  The scratchpad window
never holds an image. -/
def State.imgWrite (s : State) (k : CoreIx) : Nat → Nat → List Byte → Bool × State
  | 0, _, bs => (bs.isEmpty, s)
  | fuel + 1, va, bs =>
    if bs.isEmpty then (true, s)
    else if va < 0x100_0000 then (false, s)
    else
      let n := 2 ^ 16 - va % 2 ^ 16
      match s.schedWrite k (s.core k).secure va (bs.take n) with
      | (true, s) => s.imgWrite k fuel (va + n) (bs.drop n)
      | (false, s) => (false, s)

/-- n bytes read at an address, page by page. -/
def State.imgRead (s : State) (k : CoreIx) : Nat → Nat → Nat → Option (List Byte) × State
  | 0, _, n => (if n = 0 then some [] else none, s)
  | fuel + 1, va, n =>
    if n = 0 then (some [], s)
    else if va < 0x100_0000 then (none, s)
    else
      let m := min n (2 ^ 16 - va % 2 ^ 16)
      match s.schedRead k (s.core k).secure va m with
      | (some bs, s) =>
        (match s.imgRead k fuel (va + m) (n - m) with
          | (some more, s) => (some (bs ++ more), s)
          | (none, s) => (none, s))
      | (none, s) => (none, s)

/-! ### Stopping (R267, R330) -/

/-- A DUAL copy that a cluster runs is discarded with its pair, and its record stands there unstarted (R338). (DEDUCED, log 49) -/
def State.unstartDual (s : State) (c : CluIx) : State :=
  match (s.cluster c).dual, (s.cluster c).record with
  | some r, some rec =>
    let d := dieOfClu c
    let others := match (s.die d).duals.find? fun p => p.id = r.pair with
      | some p => p.runners.filter (· != c)
      | none => []
    ((others.foldl State.retireCluster s).dropPair d r.pair).modCluster c fun x => x.begin rec s.serial none
  | _, _ => s

/-- The core is asked to stop. -/
def Core.stopAsked (x : Core) : Bool :=
  match x.ctxOp with
  | .saving _ _ | .checkpoint => true
  | _ => false

/-- A cluster stands between words, or waits in one that is recorded at its own PC; an access whose data is to come, and a
register write under way, are waited for (R213, R267). -/
def Cluster.stoppable (c : Cluster) : Bool := c.taken.isNone && c.remote.isNone && !c.reasks && !c.beatWait

/-- Every cluster of a core that holds a record is held. -/
def State.allHeld (s : State) (k : CoreIx) : Bool :=
  (clustersOf k).all fun c => (s.cluster c).record.isNone || (s.cluster c).held

/-- A cluster stops where it stands. -/
def State.holdCluster (s : State) (c : CluIx) : State :=
  if (s.cluster c).record.isSome then
    (s.modCluster c fun x => { x with held := true, syncWait := false, syncAge := 0, idle := none }).dequeue c
  else s

/-- PREEMPT (R330, R267): the clusters of a core that is asked to stop are held at their boundaries. -/
def execPreempt (core : CoreIx) (s : State) : Result :=
  let cs := clustersOf core
  if (s.core core).stopAsked && !s.allHeld core && cs.all fun c => (s.cluster c).stoppable && !s.dualEnds c then
    let s := cs.foldl State.unstartDual s
    .next (cs.foldl State.holdCluster s)
  else s.stutter

/-- A tile transfer that a pre-emption waits for: one of a nest or of a copy, or one that holds its banks (R230, R267). -/
def Tile.completes (t : Tile) : Bool := match t.owner with | .drain _ _ => t.locked | _ => true

/-- The rest of a copy, some of whose bytes have been written into a core's scratchpad under the owner's tag, is on its way there (R336). -/
def State.piecesInto (s : State) (k : CoreIx) : Bool :=
  s.flits.any fun f => f.agent != 0 && f.agent ≤ 20 && f.tag.isNone && match (s.flitPlaces f).1 with
    | some ps => ps.any fun p => match p.1 with | .spad q _ => q == k | _ => false
    | none => false

/-- The units of a core have stopped (R267): no vector command runs, the matrix engine stands at a chunk boundary of a
nest, tile transfers are done, no copy
stands half written in the scratchpad (R336), and the lanes are at a safe point. -/
def State.unitsStopped (s : State) (k : CoreIx) : Bool :=
  let x := s.core k
  let l := (s.die (dieOf k)).lanes
  x.vq.all (fun c => !c.started) && !x.mx.drained && x.tiles.all (fun t => !t.completes) && !s.piecesInto k &&
  (isHub (dieOf k) || l.stopped || (l.buf.isEmpty && l.live.isEmpty && l.tail.isEmpty))

/-- The copies of a core that are on their way and not into its scratchpad are abandoned: their flits leave the fabric, and each is
performed again whole when its engine goes on (R192, R267). -/
def State.abandonCopies (s : State) (k : CoreIx) : State :=
  let mine (f : Flit) : Bool := coreOf f.cl == k && f.agent != 0 && f.agent ≤ 20
  let s := (s.flits.filter mine).foldl (fun acc f => acc.dropFlit f) s
  s.modCore k fun x =>
    { x with ce := (List.range 20).foldl (fun v e =>
        let y := x.engine e
        vset v e { y with queue := y.queue.map fun c => { c with flying := false, counts := (0, 0, 0) } }) x.ce }

/-- The units of a core after their work has been saved: nothing is queued. -/
def Engine.emptied (x : Engine) : Engine :=
  { x with queue := [], hold := false, pause := false, supp := false, readAge := none, stopAt := none }

/-- Every copy engine of a core changed. -/
def Core.eachEngine (x : Core) (f : Engine → Engine) : Core :=
  { x with ce := (List.range 20).foldl (fun v e => vset v e (f (x.engine e))) x.ce }

/-- The matrix engine with no nest, no SQLD and no MXIDX. -/
def Matrix.emptied (m : Matrix) : Matrix :=
  { m with run := none, armed := none, sqlds := [], undone := [], idxq := none, cxFrz := false, frozen := false, sqef := false, flt := false, drained := false, xl := [], flags := 0 }

/-- The lanes with nothing queued and no safe point asked for. -/
def Lanes.emptied (x : Lanes) : Lanes := { x.requeue with buf := [], waiters := [], prep := false, stopped := false }

/-- A fault record that no engine waits for any more. -/
def orphan (w : Walk × Nat) : Walk × Nat := ({ w.1 with eng := goneEng }, w.2)

/-- The units of a core emptied after a save. -/
def State.emptyUnits (s : State) (k : CoreIx) : State :=
  let d := dieOf k
  let s := s.modCore k fun x =>
    { x.eachEngine Engine.emptied with
      vq := [], mx := x.mx.emptied, tiles := [], xfq := x.xfq.map orphan, xfWait := [] }
  let s := s.modDie d fun x => { x with
    walkWait := x.walkWait.filter (fun w => w.core != k), walks := x.walks.filter fun w => w.core != k }
  if isHub d then s else s.modLanes d Lanes.emptied

/-- A cluster left idle by a save, a restore or a clear. -/
def State.idleCluster (s : State) (c : CluIx) : State :=
  (s.modCluster c fun x => { x.retire with pend := [], held := false, saver := false, stale := [], fences := [] }).dequeue c

/-- An operation has ended (R329 CXST). -/
def Core.endCtx (x : Core) (op err : Nat) : Core :=
  { x with cxPend := false, cxDone := true, cxLop := op, cxErr := err, cxFail := false, ctxOp := .none }

/-- A CREST has ended with an error number, 0 for none.  Where another operation of its core is in progress, that one goes on, but for a
save that a handler makes, which a restore ends (R329, R335; DESIGN CHOICE, log 91). -/
def Core.endCrest (x : Core) (err : Nat) : Core :=
  match x.ctxOp, err with
  | .none, _ | .trapping _, 0 => x.endCtx 2 err
  | _, _ => { x with cxLop := 2, cxErr := err }

/-- The image of a core is written, and every cluster becomes idle; a failed access leaves the core stopped (R330). -/
def State.writeImage (s : State) (k : CoreIx) (img : Nat) : Bool × State :=
  let bytes := (s.imageWords k).flatMap fun w => leBytes 8 w.toNat
  match (s.noteImage k).imgWrite k (bytes.length / 2 ^ 16 + 2) img bytes with
  | (false, s) => (false, s.modCore k fun x => { x with cxErr := 1, cxFail := true })
  | (true, s) =>
    (true, ((clustersOf k).foldl State.idleCluster (s.emptyUnits k)).modCore k fun x =>
      { x.endCtx 1 0 with cxLen := BitVec.ofNat 32 bytes.length })

/-- A pre-emption freezes the running nest, as MXFRZ does; one that was armed and whose turn has come swaps its planes in and is frozen
before its first step (R168, R178). -/
def Matrix.stop (m : Matrix) : Matrix :=
  if m.frozen then m
  else match m.run, m.armed with
    | some _, _ => { m with frozen := true, cxFrz := true }
    | none, some l => { m.start l with frozen := true, cxFrz := true }
    | none, none => m

/-- PREEMPT_UNITS_STOPPED (R330): copies on their way are abandoned (R267), the matrix engine is frozen (R178), OWNTAG changes, and either
the lowest-numbered cluster with a record is given PRE or the image is written. -/
def execPreemptUnitsStopped (core : CoreIx) (s₀ : State) : Result :=
  match (s₀.core core).ctxOp with
  | .saving img trap =>
    if (s₀.core core).cxFail || !s₀.allHeld core || !(clustersOf core).all (fun c => (s₀.cluster c).stoppable) ||
        !s₀.unitsStopped core then s₀.stutter
    else
      let s := (s₀.abandonCopies core).modCore core fun x => { x with owntag := 0xFFFF, mx := x.mx.stop }
      match trap, (clustersOf core).find? fun c => (s.cluster c).record.isSome with
      | true, some c =>
        .next (((s.modCluster c fun x =>
          Cluster.addPend { x with held := false } .pre (word img)).enqueue c).modCore core fun x =>
            { x with ctxOp := .trapping img })
      | _, _ => s₀.schedEvent (dieOf core) (s.writeImage core img).2
  | _ => s₀.stutter

/-! ### CSAVE (R334) -/

/-- The checks of CSAVE: alignment, the mapping, the privilege and the place of the image. -/
def State.csaveErrs (s : State) (ga : Word) : List (Cause × Option Nat) :=
  let a := ga.toNat
  (if a % 4096 ≠ 0 then [(Cause.aln, some a)] else []) ++
  (if s.me.mode = .user then [(.prm, none)] else []) ++
  (if a < 0x100_0000 then [(.lch, some 0x540)]
   else match (s.xlate s.myCoreIx false s.myCore.secure .write a).1 with
    | .ok _ => []
    | .xlt | .hole _ => [(.xlt, some a)]
    | _ => [(.prm, some a)]) ++
  (if s.me.saver then [] else [(.lch, some 0x541)])

/-- The cause of the lowest number, the first of its kind in the list. -/
def firstOf : List (Cause × Option Nat) → Option (Cause × Option Nat)
  | [] => none
  | x :: xs => match firstOf xs with
    | none => some x
    | some y => if x.1.code ≤ y.1.code then some x else some y

/-- A cause with the TVAL that the manual gives, or a free one (DESIGN CHOICE, log 6). -/
def State.trapErr (s : State) (e : Cause × Option Nat) : State :=
  match e.2 with
  | some v => s.trap e.1 (word v)
  | none => s.trapFree e.1

/-- CSAVE (R334): on success the cluster becomes idle and CSAVE does not return. -/
def execCsave (d a : Reg) (s : State) : Result :=
  let ga := s.g a
  .next (match firstOf (s.csaveErrs ga) with
    | some e => s.trapErr e
    | none =>
      s.schedWord (match s.writeImage s.myCoreIx ga.toNat with
        | (true, s') => { s' with note := .done }
        | (false, s') => s'.finish d s'.myCore.cxst))

/-! ### Restore (R335) -/

/-- Granules of a section. -/
def parseGranules : Nat → List Word → Option (List (Nat × List Word) × List Word)
  | 0, ws => some ([], ws)
  | n + 1, w :: ws =>
    match decodeTokens 513 512 ws with
    | some (g, ws) =>
      if bits w 32 32 ≠ 0 then none else (parseGranules n ws).map fun r => ((bits w 0 32, g) :: r.1, r.2)
    | none => none
  | _ + 1, [] => none

/-- One section read into an image. -/
def parseSection (im : Image) (ws : List Word) : Option (Image × List Word) :=
  match ws with
  | [] => none
  | w :: ws =>
    let id := bits w 56 8
    let n := bits w 0 32
    if bits w 32 24 ≠ 0 then none
    else if 1 ≤ id ∧ id ≤ 4 then
      if n = 50 then (decodeTokens 51 50 ws).map fun r => ({ im with clus := im.clus ++ [(id - 1, r.1)] }, r.2) else none
    else if 5 ≤ id ∧ id ≤ 10 then
      (decodeTokens (n + 1) n ws).map fun r => ({ im with units := im.units ++ [(id, r.1)] }, r.2)
    else if id = 11 then (parseGranules n ws).map fun r => ({ im with spad := im.spad ++ r.1 }, r.2)
    else if id = 12 then (parseGranules n ws).map fun r => ({ im with imem := im.imem ++ r.1 }, r.2)
    else none

/-- The sections of an image, which end where its words do. -/
def parseSections : Nat → Image → List Word → Option Image
  | 0, im, ws => if ws.isEmpty then some im else none
  | n + 1, im, ws => match parseSection im ws with
    | some (im, ws) => parseSections n im ws
    | none => none

/-- An image read and checked before any state is written: its tag and contents, or the error number of CXST (R331, R335). -/
def State.readImage (s : State) (k : CoreIx) (img : Nat) : Except Nat (BitVec 16 × Nat × Image) × State :=
  let most := if isHub (dieOf k) then 4 * 2 ^ 20 else 13 * 2 ^ 20
  match s.imgRead k 2 img 64 with
  | (none, s) => (.error 1, s)
  | (some hd, s) =>
    let h := wordsOf 8 hd
    let w (i : Nat) : Word := h.getD i 0
    let len := bits (w 0) 32 32
    if bits (w 0) 24 8 ≠ 1 ∨ bits (w 0) 16 8 ≠ flagNat (!isHub (dieOf k)) then (.error 4, s)
    else if len < 64 ∨ most < len ∨ len % 8 ≠ 0 ∨ bits (w 3) 8 56 ≠ 0 ∨ w 5 ≠ 0 ∨ w 6 ≠ 0 ∨ w 7 ≠ 0 then (.error 3, s)
    else match s.imgRead k (len / 2 ^ 16 + 2) (img + 64) (len - 64) with
      | (none, s) => (.error 1, s)
      | (some body, s) =>
        if word (crc64 body) ≠ w 2 then (.error 3, s)
        else match parseSections (bits (w 3) 0 8) ⟨[], [], [], []⟩ (wordsOf (len / 8) body) with
          | some im => (.ok ((w 0).setWidth 16, len, im), s)
          | none => (.error 3, s)

/-- A core is quiescent; the issuer of a CREST may hold a record (R335). -/
def State.quiescent (s : State) (k : CoreIx) (issuer : Option CluIx) : Bool :=
  let x := s.core k
  let l := (s.die (dieOf k)).lanes
  (clustersOf k).all (fun c => ((s.cluster c).record.isNone && (s.cluster c).taken.isNone) || issuer == some c) &&
  (List.range (s.engineCount k)).all (fun e => s.engineQuiet k e) && x.vq.isEmpty && x.tiles.isEmpty &&
  x.mx.run.isNone && x.mx.armed.isNone && x.mx.sqlds.isEmpty && x.mx.idxq.isNone &&
  (isHub (dieOf k) || (l.buf.isEmpty && l.live.isEmpty && l.tail.isEmpty))

/-- A cluster of a saved core, on the core that restores it. -/
def reCluster (old new : CoreIx) (c : CluIx) : CluIx :=
  if coreOf c = old then ⟨4 * new.val + c.val % 4, by omega⟩ else c

/-- A saved launch on the core that restores it. -/
def Launch.moved (l : Launch) (f : CluIx → CluIx) : Launch := { l with cl := f l.cl }

/-- The matrix engine of a saved core on the core that restores it: a nest that the pre-emption froze runs on, and translations are made
afresh. -/
def Matrix.moved (m : Matrix) (f : CluIx → CluIx) : Matrix :=
  { m with
    frozen := m.frozen && !m.cxFrz, cxFrz := false, idxq := m.idxq.map fun q => { q with cl := f q.cl }
    run := m.run.map fun l => l.moved f, armed := m.armed.map fun l => l.moved f
    sqlds := m.sqlds.map fun q => { q with cl := f q.cl }, xl := [] }

/-- The owner of a saved tile transfer on the core that restores it. -/
def TileOwner.moved (f : CluIx → CluIx) : TileOwner → TileOwner
  | .drain cl cls => .drain (f cl) cls
  | o => o

/-- The barriers of a saved core on the core that restores it. -/
def Core.movedBars (x : Core) (f : CluIx → CluIx) : Vector Barrier 96 :=
  (List.range 96).foldl (fun v k =>
    let b := x.bar k
    vset v k { b with members := b.members.map f, arrived := b.arrived.map f, leaving := b.leaving.map f }) x.bars

/-- The rings of a saved core; the waits of its clusters begin afresh (R93). -/
def Core.movedRings (x : Core) : Vector Ring 64 :=
  (List.range 64).foldl (fun v k =>
    vset v k { x.ring k with waiters := (x.ring k).waiters.filter fun w => match w with | .cluster _ _ => false | .engine _ => true })
    x.rings

/-- Sections 5 to 10 restored: per-core registers, rings, barriers, the vector queue, the Horizon slots, the matrix engine, the copy
engines, whose block caches are empty (R188), and the lanes; LPCNT counts on (R283; DESIGN CHOICE, log 16). -/
def State.restoreUnits (s : State) (k : CoreIx) (u : UnitSave) : State :=
  let f := reCluster u.ix k
  let o := u.core
  let s := s.modCore k fun x => { x with
    syncwd := o.syncwd, dbgStep := o.dbgStep, schen := o.schen, ptroot := o.ptroot, htcfg := o.htcfg, pitcfg := o.pitcfg
    xfqb := o.xfqb, xfresp := o.xfresp, rings := o.movedRings, bars := o.movedBars f
    vq := o.vq.map fun c => { c with cl := f c.cl }
    hz := o.hz, mx := o.mx.moved f
    ce := (o.eachEngine fun e =>
      { e with queue := e.queue.map fun c => { c with cl := f c.cl, flying := false }, pause := false, supp := false, cache := [], readAge := none, stopAt := none }).ce
    tiles := o.tiles.filterMap fun t => match t.owner with
      | .drain _ _ => some { t with owner := t.owner.moved f }
      | _ => none }
  if isHub (dieOf k) then s
  else s.modLanes (dieOf k) fun l =>
    let r := u.lanes.requeue
    { r with buf := r.buf.map (fun m => { m with cl := f m.cl }), waiters := [], lpcnt := l.lpcnt, wdr := false, prep := false, stopped := false }

/-- Memory rebuilt from granules over what is kept. -/
def putGranules (m : Mem) (gs : List (Nat × List Word)) : Mem :=
  gs.foldl (fun acc g => acc.writeN (4096 * g.1) (g.2.flatMap fun w => leBytes 8 w.toNat)) m

/-- A DUAL record that resumes unstarted is again the primary of a new pair (R338). (DEDUCED, log 49) -/
def State.resumeDual (s : State) (c : CluIx) : State :=
  match (s.cluster c).record with
  | some r =>
    if r.isDual ∧ (s.cluster c).dual.isNone then
      let id := s.serial
      let p : DualPair := ⟨id, r, (s.core (coreOf c)).secure, 1, some c, none, [], false⟩
      ((s.modDie (dieOfClu c) fun x => { x with duals := x.duals ++ [p] }).modCluster c fun x =>
        { x with dual := some (newDual id true) }).tick
    else s
  | none => s

/-- A saved record resumes on a cluster in user mode (R331, R335).  A WSCALL tag is looked for among the requests of the die that restores
(R317; DESIGN CHOICE, log 87). -/
def State.resumeCluster (s : State) (c : CluIx) (u : UnitSave) (ws : List Word) : State :=
  let w (i : Nat) : Word := ws.getD i 0
  let was := u.clusters.getD (cluNo c) Cluster.reset
  let wait := w 5
  let pc : PC := (w 4).setWidth 18
  let barv : Option BarvWait := match bits wait 0 4, s.coreAt (dieOfClu c) (bits wait 16 5) with
    | 1, some h => some ⟨h, bits wait 8 7, BitVec.ofNat 16 (bits wait 32 16), pc⟩
    | _, _ => none
  let tag := if bits wait 0 4 = 2 then some (bits wait 32 16) else none
  let loops : Loops := {
    cnt := #v[(w 37).setWidth 32, (w 38).setWidth 32, (w 39).setWidth 32, (w 40).setWidth 32]
    start := #v[BitVec.ofNat 18 (bits (w 41) 32 18), BitVec.ofNat 18 (bits (w 42) 32 18), BitVec.ofNat 18 (bits (w 43) 32 18),
      BitVec.ofNat 18 (bits (w 44) 32 18)]
    stop := #v[(w 41).setWidth 18, (w 42).setWidth 18, (w 43).setWidth 18, (w 44).setWidth 18]
    depth := bits (w 45) 0 3 }
  let s := s.modCluster c fun x => { x.retire with
    record := some ⟨w 0, w 1, w 2, w 3⟩, pc := pc, begun := was.begun, atag := was.atag, fences := was.fences
    held := false, saver := false, stale := []
    regs := (iota 1 31).foldl (fun v i => vset v i (w (5 + i))) (vset x.regs 0 0)
    loops := loops, fpflg := (w 46).setWidth 5, fpxen := (w 47).setWidth 5, vlca := w 48, vlcb := w 49
    barv := barv, wstag := tag }
  let s := match tag with
    | some t => s.modDie (dieOfClu c) fun x => { x with ws := updFirst (fun r => r.tag == t) (fun r => { r with cl := c }) x.ws }
    | none => s
  (s.enqueue c).resumeDual c

/-- A checked image written into a core (R333, R335). (DEDUCED, log 42) -/
def State.applyImage (s : State) (k : CoreIx) (tag : BitVec 16) (len : Nat) (im : Image) (u : UnitSave) : State :=
  let lim := min 64 (s.core k).hlim
  let spads := im.spad.filter fun g => g.1 < spadBytes k / 4096
  let imems := im.imem.filter fun g => g.1 < lim
  let s := (clustersOf k).foldl State.idleCluster s
  let s := (s.modCore k fun x => { x with
    spad := putGranules [] spads, spadBad := [], sdirty := insertAll (spads.map (·.1)) []
    imem := putGranules (x.imem.clear 0 (4096 * lim)) imems
    imemBad := x.imemBad.filter fun w => 4096 * lim ≤ 8 * w
    idirty := insertAll (imems.map (·.1)) (x.idirty.filter fun g => lim ≤ g)
    owntag := tag, cxLen := BitVec.ofNat 32 len }).restoreUnits k u
  im.clus.foldl (fun acc c => match (clustersOf k)[c.1]? with
    | some i => acc.resumeCluster i u c.2
    | none => acc) s

/-- A restore (R335): the error number, 0 for none, and the state. -/
def State.restore (s : State) (k : CoreIx) (img : Nat) (issuer : Option CluIx) : Nat × State :=
  if !s.quiescent k issuer then (2, s)
  else match s.readImage k img with
    | (.error e, s) => (e, s)
    | (.ok (tag, len, im), s) =>
      match readUnits (isHub (dieOf k)) (s.die (dieOf k)).lanes.abuf im.units with
      | some u => (0, s.applyImage k tag len im u)
      | none => (3, s)

/-- CONTEXT_RESTORE (R329, R335): PREQ OP 2. -/
def execContextRestore (core : CoreIx) (s : State) : Result :=
  match (s.core core).ctxOp with
  | .restoring img =>
    let r := s.restore core img none
    s.schedEvent (dieOf core) (r.2.modCore core fun x => x.endCtx 2 r.1)
  | _ => s.stutter

/-- CREST (R335): ALN before PRM (R52). -/
def execCrest (d a : Reg) (s : State) : Result :=
  let ga := s.g a
  .next (
    if ga.toNat % 4096 ≠ 0 then s.trap .aln ga
    else if s.me.mode = .user then s.trapFree .prm
    else
      let r := s.restore s.myCoreIx ga.toNat (some s.focus)
      let s' := r.2.modMyCore fun x => x.endCrest r.1
      s.schedWord (if r.1 = 0 then { s' with note := .done } else s'.finish d s'.myCore.cxst))

/-! ### Clear (R330) -/

/-- The scratchpad and the instruction memory below the handler area zeroed. (DEDUCED, log 42) -/
def Core.cleared (x : Core) : Core :=
  let lim := min 64 x.hlim
  { x with
    spad := [], spadBad := [], sdirty := []
    imem := x.imem.clear 0 (4096 * lim), imemBad := x.imemBad.filter fun w => 4096 * lim ≤ 8 * w
    idirty := [], owntag := 0 }

/-- CONTEXT_CLEAR (R329, R330): PREQ OP 3. -/
def execContextClear (core : CoreIx) (s : State) : Result :=
  match (s.core core).ctxOp with
  | .clearing =>
    if s.quiescent core none then .next (s.modCore core fun x => x.cleared.endCtx 3 0)
    else .next (s.modCore core fun x => x.endCtx 3 2)
  | _ => s.stutter

end Sys2Proof.Machine
end

