-- ==== Sys2Proof/Machine/Checkpoint.lean ====
section
/-!
DEFINITION. Checkpoint: checkpoints of a die, CKPT, and the send logs of links (R339 to R341).
-/

namespace Sys2Proof.Machine

/-! ### Beginning (R339, R341) -/

/-- The home die of a die's checkpoints (R339). -/
def ckHome (d : DieIx) : DieIx := match d.val with | 0 => 1 | 1 => 2 | 2 => 3 | 3 => 0 | 4 => 3 | _ => 2

/-- A die's slots in its home's DRAM, newest first, at most two (R339). -/
def Die.slotsOf (home : Die) (d : DieIx) : List Ckpt := (home.ckSlots.filter (·.1 == d)).map (·.2)

/-- A committed checkpoint takes the place of the older of a die's two slots (R339 step 2). -/
def Die.keepSlot (home : Die) (d : DieIx) (k : Ckpt) : Die :=
  { home with ckSlots := (d, k) :: (home.ckSlots.filter (·.1 == d)).take 1 ++ home.ckSlots.filter (·.1 != d) }

/-- The newest committed checkpoint of a die: there is none while VALID is 0, nor once its home's DRAM has been initialised
(R339, R342). -/
def State.committed (s : State) (d : DieIx) : Option Ckpt :=
  if (s.die d).ckValid then ((s.die (ckHome d)).slotsOf d).head? else none

/-- A die may begin a checkpoint: none is in progress, its home can take it, and no core of it is in a context operation. -/
def State.mayCheckpoint (s : State) (d : DieIx) : Bool :=
  !(s.die d).ckBusy && (s.die (ckHome d)).ready && (coresOf d).all fun k => !(s.core k).cxPend

/-- A checkpoint of a die begins: every core of it is asked to stop (R339 step 1). -/
def State.beginCheckpoint (s : State) (d : DieIx) : State :=
  let s := s.modDie d fun x => { x with ckBusy := true }
  let s := (coresOf d).foldl (fun acc k => acc.modCore k fun x => { x with ctxOp := .checkpoint, cxPend := true }) s
  if isHub d then s else s.modLanes d Lanes.askPrep

/-- CKPT (R341): with CKCFG.EN = 0 all ones and no checkpoint; otherwise its cluster waits for the commit, as a word that has issued,
in a bundle too (R32; DEDUCED, log 25). -/
def execCkpt (d : Reg) (s : State) : Result :=
  .next (
    if s.me.mode = .user then s.trapFree .prm
    else if !bit s.myDie.ckcfg 0 then s.finish d allOnes
    else if s.me.ckWait.isSome || !s.mayCheckpoint s.myDieIx then s.stall
    else ((s.beginCheckpoint s.myDieIx).modMe fun c => { c with ckWait := some d }).beginWait)

/-- CHECKPOINT_TIMER (R339): periodic checkpoints, every INTMS ms of 1,600,000 cycles. -/
def execCheckpointTimer (die : DieIx) (s : State) : Result :=
  let x := s.die die
  let ms := bits x.ckcfg 16 16
  if bit x.ckcfg 0 && ms != 0 && ms * 1600000 ≤ x.ckAge && x.ready && s.mayCheckpoint die then .next (s.beginCheckpoint die)
  else s.stutter

/-! ### Commit (R339) -/

/-- Every core of a die is stopped for the checkpoint. -/
def State.checkpointStopped (s : State) (d : DieIx) : Bool :=
  (s.die d).ckBusy && (coresOf d).all fun k =>
    (s.core k).ctxOp == .checkpoint && s.allHeld k && (clustersOf k).all (fun c => (s.cluster c).stoppable) && s.unitsStopped k

/-- The CKPT of a cluster completes with NUM (R341). -/
def Cluster.ckptDone (num : W32) (c : Cluster) : Cluster :=
  match c.ckWait with
  | some r => ({ c with ckWait := none }.setG r (num.setWidth 64)).advance
  | none => c

/-- A cluster that the checkpoint stopped goes on. -/
def State.resumeHeld (s : State) (c : CluIx) : State :=
  if (s.cluster c).record.isSome ∧ (s.cluster c).held then
    (((s.modCluster c fun x => { x with held := false }).enqueue c).resumeDual c)
  else s

/-- The image of a core, but for clusters whose CKPT the checkpoint completes (R331, R341). -/
def State.coreImage (s : State) (k : CoreIx) : UnitSave × Image :=
  let x := s.core k
  let cs := (clustersOf k).map fun c => (s.cluster c).recorded
  let clus := (List.zip (clustersOf k) cs).filterMap fun p =>
    if (s.cluster p.1).ckWait.isSome then none else p.2.record.map fun r => (cluNo p.1, s.clusterWords p.2 r)
  (⟨k, { x with ctxOp := .none, cxPend := false }, (s.die (dieOf k)).lanes, cs⟩,
   ⟨clus, [],
    x.sdirty.map fun g => (g, wordsOf 512 (s.peekPoisoned (.spad k (4096 * g)) 4096)),
    (x.belowHandler x.idirty).map fun g => (g, wordsOf 512 (x.imemPoisoned (4096 * g) 4096))⟩)

/-- Hub SRAM with poison in place of uncorrectable words (R323). -/
def poisonedMem (m : Mem) (bad : List Nat) : Mem :=
  bad.foldl (fun acc w => acc.writeN (8 * w) (leBytes 8 Config.poisonWord.toNat)) m

/-- Links of a die. -/
def linksOf (d : DieIx) : List LinkIx := allLinks.filter fun l => onLink l d

/-- What a commit writes into the older slot (R339 step 2). -/
def State.snapshot (s : State) (d : DieIx) (num : W32) : Ckpt :=
  let x := s.die d
  { num := num
    images := (coresOf d).map s.coreImage
    issuers := (clustersOn d).filterMap fun c =>
      if (s.cluster c).ckWait.isSome then some (c, { (s.cluster c).ckptDone num with held := false }) else none
    hub := poisonedMem x.hub x.hubBad
    ends := (linksOf d).map fun l => (l, (s.link l).nearEnd l d)
    qslots := x.qslots, store := x.store, resv := x.resv, duals := x.duals, eth := x.eth, tags := x.tags }

/-- The lanes go on after a checkpoint: what they had not done is broadcast again (R275). -/
def Lanes.goOn (x : Lanes) : Lanes := { x.requeue with prep := false, stopped := false, wdr := false }

/-- The cores of a die resume after a commit, and its CKPTs complete (R339 step 4, R341). -/
def State.resumeCores (s : State) (d : DieIx) (num : W32) : State :=
  let s := (clustersOn d).foldl (fun acc c => acc.modCluster c (Cluster.ckptDone num)) s
  let s := (coresOf d).foldl (fun acc k => acc.modCore k fun x => { x with ctxOp := .none, cxPend := false }) s
  let s := if isHub d then s else s.modLanes d Lanes.goOn
  (clustersOn d).foldl State.resumeHeld s

/-- What a commit reads to write its slot: uncorrectable words are counted and logged (R320, R325). -/
def State.noteCheckpoint (s : State) (d : DieIx) : State :=
  ((coresOf d).foldl (fun acc k => acc.noteImage k) s).noteUnc (.hub d 0) Config.hubSramBytes

/-- The numbers that a die has sent on its links before a commit are not sent again (R342). -/
def LinkEnd.commit (e : LinkEnd) : LinkEnd := { e with since := [], again := [] }

/-- CHECKPOINT_COMMIT (R339, R325 kind 15): the slot lies in the home die's DRAM, and is written once that die is READY; copies on their
way have been abandoned, as a pre-emption abandons them (R267, R330). -/
def execCheckpointCommit (die : DieIx) (s : State) : Result :=
  if !s.checkpointStopped die || !(s.die (ckHome die)).ready then s.stutter
  else
    let num := (s.die die).ckNum + 1
    let s := ((coresOf die).foldl (fun acc k => acc.abandonCopies k) s).noteCheckpoint die
    let s := (linksOf die).foldl (fun acc l => acc.modLink l fun x => x.modNear l die LinkEnd.commit) s
    let snap := s.snapshot die num
    let s := (s.resumeCores die num).modDie die fun x =>
      { x with ckNum := num, ckBusy := false, ckValid := true, ckAge := 0 }
    let s := s.modDie (ckHome die) fun x => x.keepSlot die snap
    let s := (linksOf die).foldl (fun acc l => acc.modLink l fun x => x.modFar l die fun e => { e with ckAsked := false }) s
    .next (s.log die 15 0 0 0 num.toNat)

/-! ### Send logs (R340) -/

/-- The die at an end of a link: 0 end A, 1 end B. -/
def endDie (l : LinkIx) (e : Nat) : DieIx := if e = 0 then (linkEnds l).1 else (linkEnds l).2

/-- The numbers applied at an end that the committed checkpoint of its die holds. -/
def State.committedEnd (s : State) (d : DieIx) (l : LinkIx) : Option LinkEnd :=
  match s.committed d with
  | some k => (k.ends.find? fun p => p.1 == l).map (·.2)
  | none => none

/-- The log of an end without the flits that the far end's checkpoint holds. -/
def LinkEnd.free (e : LinkEnd) (far : LinkEnd) : LinkEnd :=
  { e with log := e.log.filter (fun f => !far.hasApplied f.num), reported := far.applied }

/-- CHECKPOINT_REPORT (R340): the die at end e reports what its committed checkpoint holds, and the sender frees its log. -/
def execCheckpointReport (link : LinkIx) (e : Nat) (s : State) : Result :=
  if 1 < e then s.stutter
  else
    let d := endDie link e
    match s.committedEnd d link with
    | some x =>
      if ((s.link link).farEnd link d).reported = x.applied then s.stutter
      else .next (s.modLink link fun y => y.modFar link d fun z => z.free x)
    | none => s.stutter

/-- SEND_LOG_CHECKPOINT_REQUEST (R340): a log that is three-quarters full asks the far end for a checkpoint. -/
def execSendLogCheckpointRequest (link : LinkIx) (e : Nat) (s : State) : Result :=
  if 1 < e then s.stutter
  else
    let d := endDie link e
    let far := endDie link (1 - e)
    let x := (s.link link).nearEnd link d
    if 3 * logFlits d ≤ 4 * x.logged && !x.ckAsked && (s.die far).ready && s.mayCheckpoint far then
      .next ((s.modLink link fun y => y.modNear link d fun z => { z with ckAsked := true }).beginCheckpoint far)
    else s.stutter

end Sys2Proof.Machine
end

