-- ==== Sys2Proof/Machine/Recovery.lean ====
section
/-!
DEFINITION. Recovery: replay of words and flits, the sync-wait watchdog, flits that cannot be delivered, and patrol scrub
(R34, R318, R321, R323, R324, R347).
-/

namespace Sys2Proof.Machine

/-! ### Words (R34, R321) -/

/-- SYNC_WAIT_WATCHDOG (R34): a cluster in sync wait for more than SYNCWD cycles raises WDG with TVAL 1; SYNCWD = 0 disables it. -/
def execSyncWaitWatchdog (cl : CluIx) (s : State) : Result :=
  let c := s.cluster cl
  let wd := (s.core (coreOf cl)).syncwd.toNat
  if c.record.isSome && c.syncWait && wd != 0 && decide (wd < c.syncAge) && !c.pend.any (fun p => p.cause == .wdg) then
    .next (s.modCluster cl fun c => c.addPend .wdg 1)
  else s.stutter

/-- The word at PC has begun and taken effect, and only waits: nothing of it can be replayed (R321). -/
def State.hasBegun (s : State) (cl : CluIx) : Bool :=
  let c := s.cluster cl
  c.idle.isSome || c.beatWait || c.ckWait.isSome || c.barvWait.isSome ||
  (c.waiting && (match c.mode with
    | .user => c.wstag.isSome
    | .handler => (s.die (dieOfClu cl)).ws.any fun r => r.cl == cl && !r.user && c.runs r.seq)) ||
  (match c.dual with | some r => r.ended | none => false) || (match c.remote with | some r => r.bundled | none => false)

/-- The PC and tag of an atomic whose request has been carried out: its word, if it issues again, asks under the same tag (R213). -/
def Cluster.carriedTag (c : Cluster) : Option (PC × BitVec 6) :=
  match c.remote with
  | some r => (match r.kind with
    | .load _ _ => none
    | _ => if r.executed && c.mode == .user then some (c.pc, r.tag) else none)
  | none => none

/-- The word of a cluster is to be performed again: an atomic that has been carried out keeps its tag (R213, R321). -/
def Cluster.again (c : Cluster) (replays : Nat) : Cluster :=
  { c with remote := none, replays := replays, retag := match c.carriedTag with | some t => some t | none => c.retag }

/-- PIPELINE_REPLAY (R321): the word at PC is performed again from committed state, an atomic under its old tag; a third
detection raises MCK with TVAL 2, and the word is not performed.  The error log has an entry of kind 5 or 6 (R325). -/
def execPipelineReplay (cl : CluIx) (s : State) : Result :=
  let c := s.cluster cl
  let d := dieOfClu cl
  if c.record.isNone || c.held || s.hasBegun cl then s.stutter
  else if c.replays < 2 then
    .next ((s.modCluster cl fun c => c.again (c.replays + 1)).log d 5 0 0 c.lid)
  else .next ((s.modCluster cl fun c => (c.again 0).addPend .mck 2).log d 6 Cause.mck.code 0 c.lid)

/-! ### Flits (R318, R347) -/

/-- A request of a cluster, or the response to it, is under way, and its way uses a link (R318, R340). -/
def State.requestOn (s : State) (l : LinkIx) (c : CluIx) : Bool :=
  match (s.cluster c).remote with
  | some r => if r.executed then (match r.resp with | some (m, _) => m == l | none => false) else (r.way c ++ r.wayBack c).any (·.1 == l)
  | none => false

/-- A flit is under way on a link: a posted access, or a request or response of a load or atomic. -/
def State.linkBusy (s : State) (l : LinkIx) : Bool := s.flits.any (fun f => f.link == some l) || allClusters.any (s.requestOn l)

/-- FLIT_CRC_RETRY (R318): the flit is sent again; once 16 retries of it have failed the lane group retrains. (DEDUCED, log 52) -/
def execFlitCrcRetry (link : LinkIx) (s : State) : Result :=
  let x := s.link link
  if x.retraining || !s.linkBusy link then s.stutter
  else if x.retries < 16 then .next (s.modLink link fun x => { x with retries := x.retries + 1 })
  else .next (s.modLink link fun x => { x with retraining := true })

/-- GROUP_RETRAIN_DONE (R318): the group has retrained, and the flit is sent again. (DEDUCED, log 52) -/
def execGroupRetrainDone (link : LinkIx) (s : State) : Result :=
  if (s.link link).retraining then .next (s.modLink link fun x => { x with retraining := false, retries := 0 }) else s.stutter

/-- A load or atomic that its home has not taken in time is refused with PRM, and logged (R310, R347). -/
def State.remoteTimeout (s : State) (c : CluIx) (r : Remote) : State :=
  let p := match r.kind with | .load _ _ => pathOf .s r.va.toNat | _ => .a
  (s.log (dieOfClu c) 12 Cause.prm.code r.va (s.cluster c).lid).lateTrap c r .prm p

/-- FLIT_SEND_TIMEOUT (R347): what has waited 3,200,000 cycles for a die below READY is refused as R310 refuses accesses, and
logged. -/
def execFlitSendTimeout (n : Nat) (s : State) : Result :=
  match s.flits.find? fun f => f.seq = n with
  | some f =>
    if s.homeReady f.dst || f.age < sendTimeout then s.stutter
    else match f.engine with
      | some _ => .next ((s.log (dieOfClu f.cl) 12 Cause.prm.code (word f.va) (s.cluster f.cl).lid).flitRefused f)
      | none => .next (s.flitRefused f)
  | none =>
    match allClusters.find? fun c => match (s.cluster c).remote with | some r => r.seq = n | none => false with
    | none => s.stutter
    | some c =>
      match (s.cluster c).remote with
      | some r => if r.executed || s.homeReady r.loc || r.age < sendTimeout then s.stutter else .next (s.remoteTimeout c r)
      | none => s.stutter

/-! ### Patrol scrub (R323, R324) -/

/-- An uncorrectable SRAM word that scrub finds: poison is written there with valid check bits, counted and logged. -/
def State.scrubWord (s : State) (l : Loc) (d : DieIx) : State :=
  ((s.store l (leBytes 8 Config.poisonWord.toNat)).countUnc d 1).log d 4 0 (s.logWhere d (s.physAddr l)) 0

/-- An uncorrectable instruction-memory word that scrub finds; the write makes its granule dirty (R333). -/
def State.scrubImem (s : State) (k : CoreIx) (w : Nat) : State :=
  let s := s.modCore k fun x =>
    { x with
      imem := x.imem.writeN (8 * w) (leBytes 8 Config.poisonWord.toNat), imemBad := x.imemBad.filter (· != w)
      idirty := insertNat (8 * w / 4096) x.idirty }
  (s.countUnc (dieOf k) 1).log (dieOf k) 4 1 (word (8 * w)) 0

/-- PATROL_SCRUB (R323, R324): scrub reads the word or beat at an address; a good one is left as it is. -/
def execPatrolScrub (die : DieIx) (kind : ScrubKind) (a : Nat) (s : State) : Result :=
  match kind with
  | .dram =>
    if (s.die die).dramBad.contains (a / 128) || s.beatFails die (a / 128) then
      let l : Loc := .dram die (a / 128 * 128)
      .next (((s.countUnc die 1).log die 2 0 (s.logWhere die l.addr) 0).readDram l 128)
    else if (s.beatErrors die (a / 128)).isEmpty then s.stutter
    else .next (s.readDram (.dram die (a / 128 * 128)) 128)
  | .hubSram => if (s.die die).hubBad.contains (a / 8) then .next (s.scrubWord (.hub die (a / 8 * 8)) die) else s.stutter
  | .scratchpad n =>
    (match s.coreAt die n with
      | some k => if (s.core k).spadBad.contains (a / 8) then .next (s.scrubWord (.spad k (a / 8 * 8)) die) else s.stutter
      | none => s.stutter)
  | .imem n =>
    (match s.coreAt die n with
      | some k => if (s.core k).imemBad.contains (a / 8) then .next (s.scrubImem k (a / 8)) else s.stutter
      | none => s.stutter)

end Sys2Proof.Machine
end

