-- ==== Sys2Proof/Machine/Boot.lean ====
section
/-!
DEFINITION. Boot: power-on, cold and warm reset, the boot stages and attestation (R312, R342, R345, R347 to R350).
-/

namespace Sys2Proof.Machine

/-! ### What a reset of a die leaves -/

/-- A cluster of a die no longer issues, and stands as after reset; THVEC is kept by a warm reset. -/
def State.resetCluster (s : State) (warm : Bool) (c : CluIx) : State :=
  (s.modCluster c fun x => { Cluster.reset with thvec := if warm then x.thvec else 0 }).dequeue c

/-- The world of a core at its reset: the bit of BLKW (R312). -/
def State.blkwBit (s : State) (k : CoreIx) : Bool := (s.die (dieOf k)).blkw.getLsbD (s.coreNo k)

/-- A core after a cold reset. -/
def Core.cold (x : Core) (secure : Bool) : Core :=
  { Core.reset with working := x.working, ncpe := x.ncpe, secure := secure }

/-- A core after the logic of its die has been reset: instruction memory is cleared (R26); the scratchpad and the configuration are kept
(DEDUCED, log 21). -/
def Core.warm (x : Core) (secure : Bool) : Core :=
  { x.cold secure with
    spad := x.spad, spadBad := x.spadBad, sdirty := x.sdirty
    syncwd := x.syncwd, hlim := x.hlim, schen := x.schen, ptroot := x.ptroot, htcfg := x.htcfg, pitcfg := x.pitcfg, xfqb := x.xfqb }

/-- The cores and clusters of a die reset, and the accesses that they had to their own die dropped. -/
def State.resetAgents (s : State) (d : DieIx) (warm : Bool) : State :=
  let sec (k : CoreIx) : Bool := s.blkwBit k
  let s := (coresOf d).foldl (fun acc k => acc.modCore k fun x => if warm then x.warm (sec k) else x.cold (sec k)) s
  let s := (clustersOn d).foldl (fun acc c => acc.resetCluster warm c) s
  { s with flits := s.flits.filter fun f => !(dieOfClu f.cl == d && f.link.isNone && f.dst.homeDie == some d) }

/-! ### Cold reset (R22, R312, R345, R347) -/

/-- Home ranks of the columns that this cold reset fuses off (R345). (DEDUCED, log 50) -/
def Die.fusing (x : Die) : List Nat := x.runOn.map x.rankOf

/-- The new number of a logical column after the columns of a list are fused off (R345). -/
def denseCol (off : List Nat) (c : Nat) : Nat := c - (off.filter (· < c)).length

/-- CREMAP as fused, with columns renumbered; a spare that served a column fused off serves none (R344, R345). -/
def Die.refused (x : Die) : Word :=
  packWord ([0, 1, 2, 3].filterMap fun n =>
    let c := bits x.cremapFused (16 * n) 7
    if bit x.cremapFused (16 * n + 15) && !x.runOn.contains c then some (16 * n, 0x8000 + denseCol x.runOn c) else none)

/-- Spares that served columns fused off. -/
def Die.spentSpares (x : Die) : List Nat :=
  [0, 1, 2, 3].filter fun n => bit x.cremapFused (16 * n + 15) && x.runOn.contains (bits x.cremapFused (16 * n) 7)

/-- Spares neither serving nor lost (R344). -/
def Die.freeSpares (x : Die) : List Nat := [0, 1, 2, 3].filter fun n => !bit x.cremap (16 * n + 15) && !x.lost.contains n

/-- RESCNT.SPCOL (R344). -/
def Die.countSpares (x : Die) : Die := { x with spcol := x.freeSpares.length }

/-- A die after a cold reset: fuses, the facts of the package and the contents of memory that stage 3 has yet to initialise are
kept, with BLKW; everything else is as after power-on (R22, R312, R345, R347; DEDUCED, log 21). -/
def Die.cold (x : Die) (hub : Bool) : Die :=
  let y : Die := { Die.reset hub x.orient with
    stage := 1, cores := x.cores, copye := x.copye, blkw := x.blkw, minsvn := x.minsvn, now := x.now
    image := x.image, memTestOk := x.memTestOk, linksOk := x.linksOk
    hub := x.hub, hubBad := x.hubBad, dram := x.dram, dramBad := x.dramBad, ckSlots := x.ckSlots
    vbfused := x.vbfused, vbopen := x.vbopen, vbstuck := x.vbstuck }
  if hub then y
  else
    let n := x.lcol - x.runOn.length
    ({ y with
      lcol := n, lanesN := 8 * n, cremapFused := x.refused, lost := insertAll x.spentSpares x.lost
      fusedOff := insertAll x.fusing x.fusedOff
      cremap := x.refused
      levels := (x.levels.filter fun (p : Nat × Nat) => 128 ≤ p.1 || !x.runOn.contains p.1).map fun (p : Nat × Nat) =>
        (if 128 ≤ p.1 then p.1 else denseCol x.runOn p.1, p.2) }).countSpares

/-- Links of a die after its cold reset: the numbers of their flits run on; its own send logs are gone, and FCNT is 0 (R295). -/
def State.dropLogs (s : State) (d : DieIx) : State :=
  (linksOf d).foldl (fun acc l => acc.modLink l fun x => x.modNear l d fun e =>
    { e with log := [], ckAsked := false, fcnt := 0, floorAge := 0 }) s

/-- A cold reset of a die: it enters stage 1 of its boot (R347). -/
def State.coldReset (s : State) (d : DieIx) : State :=
  ((s.resetAgents d false).modDie d fun x => x.cold (isHub d)).dropLogs d

/-- COLD_RESET (R315, R347). -/
def execColdReset (die : DieIx) (s : State) : Result := .next (s.coldReset die)

/-- A die at power-on: as after a cold reset, with its memory and BLKW lost. -/
def Die.powered (x : Die) (hub : Bool) : Die :=
  { x.cold hub with dram := [], dramBad := [], ckSlots := [], hub := [], hubBad := [], blkw := 0, now := 0 }

/-- POWER_ON (R347): every die enters stage 1. (DEDUCED, log 13) -/
def execPowerOn (s : State) : Result :=
  let s := allDies.foldl (fun (acc : State) d => (acc.modDie d fun x => { x with blkw := 0 }).coldReset d) s
  let s := allDies.foldl (fun (acc : State) d => acc.modDie d fun x => x.powered (isHub d)) s
  .next { s with links := Vector.replicate 9 Link.reset, flits := [], merges := [], runq := [], engineTurn := false }

/-! ### Warm reset (R342) -/

/-- The logic of a die reset: stack DRAM, the cycle counter, error counts and configuration are kept, and LPCNT counts on
(R22, R283, R320, R342; DEDUCED, log 21). -/
def Die.warm (x : Die) : Die :=
  { x with
    ckBusy := false, ckAge := 0, duals := [], notify := 0, qslots := Vector.replicate 16 QSlot.reset, store := [], resv := [], schedAge := []
    lastSrc := Vector.replicate 4 16, walkWait := [], walks := [], hcache := [], icache := [], wcache := [], tags := []
    beat := none, shadows := [], shadowBad := [], eth := Vector.replicate 3 EthPort.reset, lanes := { Lanes.reset with lpcnt := x.lanes.lpcnt } }

/-- A die's end of a link as the checkpoint holds it: what it has applied is that of the checkpoint, and the flits that it sends again take
the numbers that they had, so that those of other dies on the link stay as they are (R340, R342). -/
def LinkEnd.restored (now was : LinkEnd) : LinkEnd :=
  { now with applied := was.applied, early := was.early, again := now.since }

/-- A numbered flit or request of a link is under way to the die that the link leads into. -/
def State.underWay (s : State) (l : LinkIx) (f : Flit) : Bool :=
  s.flits.any (fun g => g.link == some l && g.num == f.num && g.sender == f.sender) ||
  match (s.cluster f.cl).remote with
  | some r => r.link == some l && r.num == f.num && !r.executed && dieOfClu f.cl == f.sender
  | none => false

/-- The logged flits that a neighbour sends again: those that the restored end has not applied and that are not under way.
They are no longer an engine's work, and a request's response has been given (R342 step 3). -/
def State.replayed (s : State) (d : DieIx) (l : LinkIx) : List Flit :=
  let near := (s.link l).nearEnd l d
  ((s.link l).farEnd l d).log.filterMap fun f =>
    if near.hasApplied f.num || s.underWay l f then none
    else some { f with agent := if f.agent = 0 ∧ f.msg = .write then 0 else 33, age := 0, replay := true }

/-- Flits that went on out of the package through the die have had their effect there, and count as applied (R342). -/
def LinkEnd.passed (e : LinkEnd) (log : List Flit) : LinkEnd :=
  (log.filter fun f => f.dst.homeDie.isNone).foldl (fun acc f => acc.recordRun f.num f.nums) e

/-- The neighbours' flits sent again. -/
def State.replayLogs (s : State) (d : DieIx) : State :=
  (linksOf d).foldl (fun acc l =>
    let acc := acc.modLink l fun x => x.modNear l d fun e => e.passed (x.farEnd l d).log
    { acc with flits := acc.flits ++ acc.replayed d l }) s

/-- The newest committed checkpoint restored (R342 steps 2 to 4): hub SRAM, the scheduler, link numbers, then each core's image, and
the clusters whose CKPT it completed. -/
def State.restoreCheckpoint (s : State) (d : DieIx) (k : Ckpt) : State :=
  let ws := (s.die d).ws
  let s := s.modDie d fun x =>
    { x with hub := k.hub, hubBad := [], qslots := k.qslots, store := k.store, resv := k.resv, duals := k.duals, eth := k.eth
             tags := k.tags }
  let s := k.ends.foldl (fun (acc : State) p => acc.modLink p.1 fun x => x.modNear p.1 d fun e => e.restored p.2) s
  let s := k.images.foldl (fun (acc : State) p => acc.applyImage p.1.ix p.1.core.owntag p.1.core.cxLen.toNat p.2 p.1) s
  let s := k.issuers.foldl (fun (acc : State) p => (acc.setCluster p.1 p.2).enqueue p.1) s
  let held (r : WsReq) : Bool := (clustersOn d).any fun c => (s.cluster c).wstag == some r.tag
  (s.modDie d fun x => { x with ws := ws.filter held }).replayLogs d

/-- A warm reset of a die (R342, R325 kind 15). -/
def State.warmReset (s : State) (d : DieIx) : State :=
  let slot := s.committed d
  let s := (s.resetAgents d true).modDie d Die.warm
  let s := match slot with
    | some k => s.restoreCheckpoint d k
    | none => s.modDie d fun y => { y with ws := [] }
  let num : W32 := match slot with | some k => k.num | none => 0
  { s.log d 15 1 0 0 num.toNat with out := s.out ++ [.faultMessage d, .restored d num] }

/-- WARM_RESET (R315, R342): a die below READY is in a cold reset, which a warm reset does not end. -/
def execWarmReset (die : DieIx) (s : State) : Result :=
  if (s.die die).ready then .next (s.warmReset die) else s.stutter

/-! ### The stages of boot (R347 to R349) -/

/-- A die stands at a stage and has not failed it. -/
def Die.atStage (x : Die) (n : Nat) : Bool := x.stage == n && x.bootErr == 0

/-- A die ends a stage. -/
def State.enterStage (s : State) (d : DieIx) (n : Nat) (f : Die → Die) : State :=
  s.modDie d fun x => { f x with stage := n, stageAge := 0 }

/-- A die fails a stage: ERR is set, it stays there, and it raises its fault message (R347, R348). -/
def State.failStage (s : State) (d : DieIx) (err : Nat) : State :=
  { s.modDie d fun x => { x with bootErr := err } with out := s.out ++ [.faultMessage d] }

/-- BOOT_RAILS_SETTLED (R347, R12): stage 1 ends with ORIENT set from the straps. -/
def execBootRailsSettled (die : DieIx) (s : State) : Result :=
  if (s.die die).atStage 1 then .next (s.enterStage die 2 fun x => { x with orient := orientWord die }) else s.stutter

/-- A field of a firmware image: n bytes from byte a. -/
def imageField (im : List Byte) (a n : Nat) : Nat := leNat ((im.drop a).take n)

/-- The parts of a firmware image: what is signed (header and body), the signature and the public key; nothing for a header that is not
one, or an image that ends early (R349; DESIGN CHOICE, log 14). -/
def imageParts (im : List Byte) : Option (List Byte × List Byte × List Byte) :=
  let blen := imageField im 8 4
  let slen := imageField im 12 4
  if im.length < 64 ∨ imageField im 0 4 ≠ 0x4B494653 ∨ 4 * 2 ^ 20 < blen ∨ 1280 < slen ∨
      ((im.drop 16).take 48).any (· != 0) ∨ im.length < 64 + blen + slen + 1793 then none
  else some (im.take (64 + blen), (im.drop (64 + blen)).take slen, (im.drop (64 + blen + slen)).take 1793)

/-- The boot ROM's verdict on an image: its SVN, or the error number of BOOTST (R348, R349).  The key digest and the signature are checked
before the SVN (DESIGN CHOICE, log 88). -/
def verifyImage (d : DieIx) (minsvn : Nat) (image : Option (List Byte)) : Except Nat W32 :=
  match image.bind fun im => (imageParts im).map fun p => (im, p) with
  | none => .error 1
  | some (im, signed, sig, key) =>
    if Config.shake256 32 key ≠ Config.keyDigest d.val ∨ !Config.falconVerifies key sig signed then .error 2
    else if imageField im 4 4 < minsvn then .error 3
    else .ok (BitVec.ofNat 32 (imageField im 4 4))

/-- BOOT_IMAGE_VERIFIED (R347, R349, R350): stage 2 ends, or ERR is 1, 2 or 3. -/
def execBootImageVerified (die : DieIx) (s : State) : Result :=
  let x := s.die die
  if !x.atStage 2 then s.stutter
  else match verifyImage die x.minsvn x.image with
    | .error e => .next (s.failStage die e)
    | .ok svn => .next (s.enterStage die 3 fun x => { x with svn := svn, measure := Config.shake256 64 (x.image.getD []) })

/-- Memory after stage 3: DRAM initialised and the fused repairs applied, or hub SRAM zeroed (R347).  Checkpoint slots that lay in the
DRAM are gone (R339). -/
def Die.memoryReady (x : Die) (hub : Bool) : Die :=
  if hub then { x with hub := [], hubBad := [] }
  else { x with
    dram := [], dramBad := [], ckSlots := [], shadows := [], shadowBad := [], colUse := [], vbrep := x.vbfused, vbpend := []
    cremap := x.cremapFused }

/-- The walking-ones test of every bus, under the fused repairs: of those that serve a column, and of the spares that may yet be used; a
bus that has been retired or fused off is not one of them (R344, R345, R347; DEDUCED, log 48). -/
def State.busesPass (s : State) (d : DieIx) : Bool :=
  let x := s.die d
  let y : Die := { x with vbrep := x.vbfused }
  let passes (site : Nat × Nat) : Bool := (y.busFaults (site.1 + 16 * site.2)).isEmpty
  (List.range x.lcol).all (fun c => passes (s.columnSite d c)) &&
  [0, 1, 2, 3].all fun n => x.lost.contains n || passes (toLocal (rotOf d) (spareXY n).1 (spareXY n).2)

/-- BOOT_MEMORY_READY (R347): stage 3 ends; a stack die whose DRAM or bus test fails has ERR 4. -/
def execBootMemoryReady (die : DieIx) (s : State) : Result :=
  let x := s.die die
  if !x.atStage 3 then s.stutter
  else if !isHub die && !(x.memTestOk && s.busesPass die) then .next (s.failStage die 4)
  else .next (s.enterStage die 4 fun x => x.memoryReady (isHub die))

/-- A link that has trained: a = 8, and no turn queued or in progress (R292, R347). -/
def Link.trained (x : Link) : Link :=
  { x with share := 8, queue := [], age := 0, turning := none, dead := 0, retries := 0, retraining := false }

/-- The management core of a die runs firmware: it has verified the image (R347, R349). -/
def Die.firmwareRuns (x : Die) : Bool := 3 ≤ x.stage && x.bootErr == 0

/-- The management core, which is secure, writes a register of access S of its die, under the checks of SETC (R39, R40, R312, R313). -/
def State.firmwareWrite (s : State) (d : DieIx) (a : Nat) (v : Word) : State :=
  match s.tableCore d with
  | some k =>
    if !(s.die d).firmwareRuns || cregAcc (isHub d) a != some .sec || outside v (cregMask a) || cregValueBad a v then s
    else (match s.dieWrite k true a v with
      | .ok t => t
      | .error _ => s)
  | none => s

/-- The management core writes 8 aligned bytes of the memory of its die, such as those of the world map (R297, R312). -/
def State.firmwareStore (s : State) (d : DieIx) (pa : Nat) (v : Word) : State :=
  match s.physLoc d (pa / 8 * 8) with
  | some l => if (s.die d).firmwareRuns then s.store l (leBytes 8 v.toNat) else s
  | none => s

/-- WMAPB as firmware enables the world map with it (R312; DESIGN CHOICE, log 92). -/
def mapWord (d : DieIx) : Word := packWord [(16, (Config.worldMap d.val).toNat), (0, 1)]

/-- Before READY firmware enables the world map, where nothing else has (R312). -/
def State.enableMap (s : State) (d : DieIx) : Result :=
  if bit (s.die d).wmapb 0 then s.stutter else .next (s.firmwareWrite d 0xC00 (mapWord d))

/-- BOOT_LINKS_TRAINED (R347): stage 4 ends, and READY is set, once firmware has enabled the world map (R312); firmware takes WSCALLs from
then on. -/
def execBootLinksTrained (die : DieIx) (s : State) : Result :=
  let x := s.die die
  if !x.atStage 4 then s.stutter
  else if !x.linksOk then .next (s.failStage die 5)
  else if !bit x.wmapb 0 then s.stutter
  else .next ((linksOf die).foldl (fun (acc : State) l => acc.modLink l Link.trained)
    (s.enterStage die 5 fun x => { x with ready := true, mbRun := true }))

/-! ### Firmware services over Morile (R349, R350) -/

/-- ATTESTATION_REQUEST (R350): a nonce of 32 bytes, once the die has its identity key.  A second nonce takes the place of one that has
not been answered (DESIGN CHOICE, log 89). -/
def execAttestationRequest (die : DieIx) (nonce : List Byte) (s : State) : Result :=
  let x := s.die die
  if 3 ≤ x.stage && x.bootErr == 0 && nonce.length == 32 then .next (s.modDie die fun x => { x with attest := some nonce })
  else s.stutter

/-- The digest of the world map, all of whose bits it covers while WMAPB.EN is 1 (R312, R350; DESIGN CHOICE, log 14). -/
def State.worldDigest (s : State) (d : DieIx) : List Byte :=
  let w := (s.die d).wmapb
  Config.shake256 64 (if bit w 0 then (match s.physLoc d (bits w 16 32 * 2 ^ 16) with
    | some l => s.peek l (2 ^ 18)
    | none => []) else [])

/-- The fields of a report that its signature covers, in order (R350; DESIGN CHOICE, log 14). -/
def Report.signed (r : Report) : List Byte :=
  r.nonce ++ leBytes 8 (packWord [(16, r.serial.toNat), (8, r.device), (0, r.rot)]).toNat ++ r.measurement ++ leBytes 4 r.svn.toNat ++
  leBytes 4 r.minsvn ++ leBytes 8 r.blkw.toNat ++ r.worldDigest ++ r.identity

/-- The report of a die for a nonce, signed with the identity key that stage 2 derives from the fused secret (R350). -/
def State.report (s : State) (d : DieIx) (nonce : List Byte) : Report :=
  let x := s.die d
  let keys := Config.falconKeys (Config.fusedSecret d.val)
  let r : Report := ⟨nonce, Config.packageSerial, d.val, rotOf d, x.measure, x.svn, x.minsvn, x.blkw, s.worldDigest d, keys.2, []⟩
  { r with signature := Config.falconSign keys.1 r.signed }

/-- ATTESTATION_REPORT (R350): the report; the die goes on with its work. (DESIGN CHOICE, log 14) -/
def execAttestationReport (die : DieIx) (s : State) : Result :=
  match (s.die die).attest with
  | some nonce =>
    .next { s.modDie die fun x => { x with attest := none } with out := s.out ++ [.report die (s.report die nonce)] }
  | none => s.stutter

/-- MINSVN_RAISE_REQUEST (R349): MINSVN, a fuse of 8 bits, rises to the SVN of the running image. (DEDUCED, log 48) -/
def execMinsvnRaiseRequest (die : DieIx) (s : State) : Result :=
  if (s.die die).ready then .next (s.modDie die fun x => { x with minsvn := max x.minsvn (min 255 x.svn.toNat) }) else s.stutter

end Sys2Proof.Machine
end

