-- ==== Sys2Proof/Machine/Thermal.lean ====
section
/-!
DEFINITION. Thermal: refresh and bursts, column levels and migration, vertical buses and their firmware services, and power
(R276, R279, R282, R343 to R346, R352 to R355).
-/

namespace Sys2Proof.Machine

/-! ### Refresh and bursts (R276, R279) -/

/-- A bank group of a logical column, or of a spare site, numbered 128 + s. -/
def Die.hasColumn (x : Die) (col : Nat) : Bool := col < x.lcol || (128 ≤ col && col < 132)

/-- REFRESH (R276, R279): a bank group takes its slot; it is counted, and changes no data (DESIGN CHOICE, log 9). -/
def execRefresh (die : DieIx) (col bg : Nat) (s : State) : Result :=
  let x := s.die die
  if !isHub die && x.hasColumn col && bg < 8 && 4 ≤ x.stage then .next (s.modDie die fun x => { x with refreshes := x.refreshes + 1 })
  else s.stutter

/-- NORMAL_BURST_GRANT (R276): a normal request is granted one burst; it is counted (DESIGN CHOICE, log 9). -/
def execNormalBurstGrant (die : DieIx) (col bg : Nat) (s : State) : Result :=
  let x := s.die die
  if !isHub die && x.hasColumn col && bg < 8 && x.ready then
    .next (s.modDie die fun x => { x with bursts := x.bursts + 1, colUse := setKey col x.now x.colUse })
  else s.stutter

/-! ### Levels (R279) -/

/-- The level of a column or spare set. -/
def Die.setLevel (x : Die) (col lvl : Nat) : Die := { x with levels := setKey col lvl x.levels }

/-- LEVEL_RISE (R279). -/
def execLevelRise (die : DieIx) (col : Nat) (s : State) : Result :=
  let x := s.die die
  if !isHub die && x.hasColumn col && x.columnLevel col < 3 then
    .next (s.modDie die fun x => x.setLevel col (x.columnLevel col + 1))
  else s.stutter

/-- LEVEL_FALL (R279): at level 2 a column that ran at half duty runs fully again (R282). -/
def execLevelFall (die : DieIx) (col : Nat) (s : State) : Result :=
  let x := s.die die
  if !isHub die && x.hasColumn col && 0 < x.columnLevel col then
    .next (s.modDie die fun x => { x.setLevel col (x.columnLevel col - 1) with halfDuty := x.halfDuty.filter (· != col) })
  else s.stutter

/-! ### Migration (R282, R344) -/

/-- A copy command has begun and has not ended, and its destination is an object of a die. -/
def CopyCmd.writing (c : CopyCmd) (d : DieIx) : Bool :=
  (c.flying || c.idx.any (· != 0)) && match c.nest with
    | some n => (match n.dobj with | some o => o.die == d | none => n.dfar.isSome)
    | none => false

/-- A write into the tensor store of a die is under way: the migration lock is taken once none is (R282). -/
def State.tensorWrites (s : State) (d : DieIx) : Bool :=
  s.flits.any (fun f => match f.dst with
    | .dram e _ => e == d
    | .tensor e _ _ => e == d
    | _ => false) ||
  s.cores.toList.any fun x => x.ce.toList.any fun e => e.queue.any fun c => c.writing d

/-- COLUMN_MIGRATE (R282): a column at level 3 begins to move to an unused spare, or without one runs at half duty, which is
logged. -/
def execColumnMigrate (die : DieIx) (col : Nat) (s : State) : Result :=
  let x := s.die die
  if isHub die || !x.ready || x.lcol ≤ col || x.columnLevel col != 3 || x.mig.isSome || x.halfDuty.contains col then s.stutter
  else match x.freeSpares with
    | n :: _ => if s.tensorWrites die then s.stutter else .next (s.modDie die fun x => { x with mig := some ⟨col, n, false⟩ })
    | [] => .next ((s.modDie die fun x => { x with halfDuty := x.halfDuty ++ [col] }).logColumns die 8 [col])

/-- CREMAP with the entry of spare n replaced. -/
def setRemap (cremap : Word) (n v : Nat) : Word :=
  (cremap &&& ~~~(word (maskAt (16 * n) 16))) ||| word (v <<< (16 * n))

/-- The column's entry of CREMAP moves to a spare. -/
def remapTo (cremap : Word) (old : Option Nat) (n col : Nat) : Word :=
  setRemap (match old with | some o => setRemap cremap o 0 | none => cremap) n (0x8000 + col)

/-- CREMAP as fuses hold it once a retirement has been fused: for every retired column, those of a list among them, the spare that then
serves it (R344, R355; DEDUCED, log 50). -/
def Die.fuseColumns (x : Die) (new : List Nat) : Word :=
  let was := ([0, 1, 2, 3].filter fun n => bit x.cremapFused (16 * n + 15)).map fun n => bits x.cremapFused (16 * n) 7
  packWord ((insertAll new (insertAll was [])).filterMap fun c => (x.spareOf c).map fun n => (16 * n, 0x8000 + c))

/-- The remap of a column switches to a spare (R282, R344): the column has the spare's level, a retirement is fused, and a spare
left behind by a retirement is lost. (DEDUCED, log 50) -/
def Die.switch (x : Die) (m : Migration) : Die :=
  let old := x.spareOf m.col
  let y := { x.setLevel m.col (x.columnLevel (128 + m.spare)) with
    mig := none, cremap := remapTo x.cremap old m.spare m.col, halfDuty := x.halfDuty.filter (· != m.col) }
  (if m.retire then
    { y with
      cremapFused := y.fuseColumns [m.col]
      lost := match old with | some o => insertNat o x.lost | none => x.lost }
   else y).countSpares

/-- A pending bus service for a site is performed, with what firmware will answer (R355). -/
def State.serve (s : State) (d : DieIx) (p : WsReq → Bool) (v : Word) : State :=
  s.modDie d fun x => { x with ws := updFirst p (fun r => { r with result := some v }) x.ws }

/-- The request of a service that waits to be performed for a site. -/
def WsReq.wants (r : WsReq) (d : DieIx) (service site : Nat) : Bool :=
  r.isBus d && r.busOk d && r.ga.toNat == service && bits r.gb 0 8 == site && r.result.isNone && r.reply.isNone

/-- MIGRATION_SWITCH (R282, R344): in one cycle; the entry is of kind 9 for a retirement, and 8 otherwise. -/
def execMigrationSwitch (die : DieIx) (s : State) : Result :=
  match (s.die die).mig with
  | none => s.stutter
  | some m =>
    let at_ := s.columnSite die m.col
    let s := s.logColumns die (if m.retire then 9 else 8) [m.col]
    let s := s.modDie die fun x => x.switch m
    .next (if m.retire then
      s.serve die (fun r => r.wants die 0x21 (at_.1 + 16 * at_.2)) (packWord [(8, m.col), (0, m.spare)])
     else s)

/-! ### Firmware services for vertical buses (R355) -/

/-- A request of a service waits for a site. -/
def State.wanted (s : State) (d : DieIx) (service site : Nat) : Bool := (s.die d).ws.any fun r => r.wants d service site

/-- FUSE_REPAIRS (R355): the site's repair fields are fused, and the reply is 0. -/
def execFuseRepairs (die : DieIx) (site : Nat) (s : State) : Result :=
  if !s.wanted die 0x20 site then s.stutter
  else
    let fuse (x : Die) : Die := { x with
      vbfused := (x.vbfused.filter fun r => r.1 != site) ++
        (((List.range 16).map fun g => (site, g, x.repair site g)).filter fun r => r.2.2 != 0) }
    .next ((s.modDie die fuse).serve die (fun r => r.wants die 0x20 site) 0)

/-- The logical column that a site serves. -/
def State.columnAt (s : State) (d : DieIx) (site : Nat) : Option Nat :=
  (List.range (s.die d).lcol).find? fun c => s.columnSite d c = (site % 16, site / 16)

/-- A retired column runs on where it is, and an unused spare whose bus is retired is lost; both are fused (R345, R355). -/
def Die.runsOn (x : Die) (c : Nat) : Die :=
  { x with runOn := insertNat c x.runOn, cremapFused := x.fuseColumns (if (x.spareOf c).isSome then [c] else []) }

/-- See `Die.runsOn`. -/
def Die.loseSpare (x : Die) (n : Nat) : Die :=
  { x with lost := insertNat n x.lost, cremapFused := x.fuseColumns [] }.countSpares

/-- RETIRE_BUS (R344, R345, R355): a serving site's column begins to move, or runs on with bit 63 and its column; an unused spare is lost, with
bit 62. (DEDUCED, log 50) -/
def execRetireBus (die : DieIx) (site : Nat) (s : State) : Result :=
  let x := s.die die
  let serve (s : State) (v : Word) : State := s.serve die (fun r => r.wants die 0x21 site) v
  if !s.wanted die 0x21 site || x.mig.isSome then s.stutter
  else match s.columnAt die site with
    | some c =>
      (match x.freeSpares with
        | n :: _ => if s.tensorWrites die then s.stutter else .next (s.modDie die fun x => { x with mig := some ⟨c, n, true⟩ })
        | [] => .next (serve (s.modDie die fun x => x.runsOn c) (word (2 ^ 63 + 2 ^ 8 * c))))
    | none =>
      match siteAt (rotOf die) (site % 16) (site / 16) with
      | some (.spare n) =>
        let s' := if x.lost.contains n then s
          else (s.modDie die fun x => x.loseSpare n).log die 9 1
            (packWord [(44, site % 16), (40, site / 16), (38, rotOf die)]) 0
        .next (serve s' (word (2 ^ 62 + n)))
      | _ =>
        let r := s.free
        .next (serve r.2 r.1)

/-! ### Repair fields and test beats (R343, R353, R354) -/

/-- VBREP_WRITE (R343): fields written for the selected site. -/
def execVbrepWrite (die : DieIx) (k : Nat) (v : Word) (s : State) : Result :=
  if isHub die || 4 ≤ k then s.stutter else .next (s.modDie die fun x => x.writeVbrep die k v)

/-- A test beat is on the bus of a site. -/
def Die.beatOn (x : Die) (site : Nat) : Bool := match x.beat with | some b => b.1 == site | none => false

/-- VBREP_APPLY (R343): fields take effect where the site's bus carries no beat. (DEDUCED, log 41) -/
def execVbrepApply (die : DieIx) (s : State) : Result :=
  let x := s.die die
  let due := x.vbpend.filter fun r => !x.beatOn r.1
  if due.isEmpty then s.stutter
  else .next (s.setDie die { x with
    vbpend := x.vbpend.filter fun r => x.beatOn r.1
    vbrep := due ++ x.vbrep.filter fun r => !due.any fun q => q.1 == r.1 && q.2.1 == r.2.1 })

/-- VBTDRV_WRITE (R354): a beat is asked for, unless another waits. -/
def execVbtdrvWrite (die : DieIx) (v : Word) (s : State) : Result :=
  if isHub die || outside v 0xFFF || (s.die die).beat.isSome then s.stutter else .next (s.modDie die fun x => x.writeVbtdrv die v)

/-- What arrives of a value driven on a connection of a site: an open one reads 0, a stuck one 1 (R353). (DEDUCED, log 51) -/
def Die.received (x : Die) (site c : Nat) (v : Bool) : Bool :=
  if x.vbopen.contains (site, c) then false else if x.vbstuck.contains (site, c) then true else v

/-- VBTRCV of a beat: how many connections received the marked value, the highest and the lowest (R353). (DEDUCED, log 51) -/
def Die.beatResult (x : Die) (site : Nat) (v : Word) : Word :=
  let inv := bit v 11
  let hit := (List.range 1056).filter fun c => x.received site c ((c == bits v 0 11) != inv) != inv
  packWord [(32, hit.length), (16, hit.getLastD 0x7FF), (0, hit.headD 0x7FF)]

/-- The SETC of VBTDRV of a cluster completes (R354). -/
def Cluster.beatDone (c : Cluster) : Cluster := if c.beatWait then { c with beatWait := false }.advance else c

/-- The column at a site has had a normal request (R346, R354). -/
def State.markColumn (s : State) (d : DieIx) (site : Nat) : State :=
  match s.columnAt d site with
  | some c => s.modDie d fun x => { x with colUse := setKey c x.now x.colUse }
  | none => s

/-- TEST_BEAT_RESULT (R354): the beat runs, a normal-bus request of its column, and the SETC that asked for it completes. -/
def execTestBeatResult (die : DieIx) (s : State) : Result :=
  let x := s.die die
  match x.beat with
  | some (site, v) =>
    let s := (s.setDie die { x with vbtrcv := x.beatResult site v, beat := none }).markColumn die site
    .next ((clustersOn die).foldl (fun acc c => acc.modCluster c Cluster.beatDone) s)
  | none => s.stutter

/-! ### The test engine (R346) -/

/-- A column has no compute queued or running. -/
def Lanes.columnIdle (x : Lanes) (c : Nat) : Bool :=
  (iota (8 * c) 8).all (fun l => x.queued l == 0) && x.runs.all fun r => r.lane / 8 != c

/-- Connections of a site at which a pass finds a fault. -/
def Die.faultsAt (x : Die) (site : Nat) : List Nat := (List.range 1056).filter fun c => x.received site c false || !x.received site c true

/-- TEST.FLT, COL and CONN after a pass that found faults on a column. -/
def testFaults (test : Word) (col : Nat) (conns : List Nat) : Word :=
  match conns.getLast? with
  | some c => packWord [(48, bits test 48 16), (32, heldAt 65535 (bits test 32 16 + conns.length)), (11, col), (0, c)]
  | none => test

/-- A site has been passed; when every column has, PASS counts (R346). -/
def Die.passed (x : Die) (col : Nat) : Die :=
  let t := insertNat col x.tested
  if t.length < x.lcol then { x with tested := t }
  else { x with tested := [], test := packWord [(48, heldAt 65535 (bits x.test 48 16 + 1)), (0, bits x.test 0 48)] }

/-- A normal request to a column of a die waits: a flit for its DRAM, or for a tensor of the die, whichever its columns, or a test beat
for its site (R346, R354). -/
def State.columnWanted (s : State) (d : DieIx) (c : Nat) : Bool :=
  (match (s.die d).beat with | some b => s.columnAt d b.1 == some c | none => false) ||
  s.flits.any fun f => match s.placeOf f.dst with
    | .dram e a => e == d && (a - Config.lanePhysBase) / Config.laneBytes / 8 == c
    | .tensor e _ _ => e == d
    | _ => false

/-- The column has been idle for MINIDL x 64 cycles (R346). -/
def Die.idleLong (x : Die) (c : Nat) : Bool := 64 * bits x.tectl 8 8 ≤ x.now - (lookupNat c x.colUse).getD 0

/-- TEST_ENGINE_OFFER (R346): the engine tests the bus of an idle column; each fault is counted and logged with kind 14. (DEDUCED, log 51) -/
def execTestEngineOffer (die : DieIx) (site : Nat) (s : State) : Result :=
  let x := s.die die
  match s.columnAt die site with
  | some c =>
    if isHub die || !x.ready || !bit x.tectl 0 || !x.lanes.columnIdle c || !x.idleLong c ||
        s.columnWanted die c || x.mig.isSome then s.stutter
    else
      let bad := x.faultsAt site
      let s := s.modDie die fun y => { y with test := testFaults y.test c bad }.passed c
      .next (bad.foldl (fun (acc : State) n => acc.log die 14 0
        (packWord [(44, site % 16), (40, site / 16), (38, rotOf die), (0, n)]) 0) s)
  | none => s.stutter

/-! ### Power (R4, R352) -/

/-- A hub die is active, so that its line of R4 is 250 W: one of its matrix engines has a running nest (DESIGN CHOICE, log 22). -/
def State.hubActive (s : State) (d : DieIx) : Bool := (coresOf d).any fun k => (s.core k).mx.run.isSome

/-- Lanes of some stack have work, so that the lines of R4 that name decode count (DESIGN CHOICE, log 22). -/
def State.decoding (s : State) : Bool :=
  [(0 : DieIx), 1, 2, 3].any fun d => !(s.die d).lanes.live.isEmpty || !(s.die d).lanes.buf.isEmpty

/-- Watts of the lines of R4 other than active hubs' prefill (DESIGN CHOICE, log 22). -/
def State.otherLines (s : State) : Nat := (if s.decoding then 370 + 165 else 0) + 60 + 80

/-- PWRCAP of the module: the least of its dies', at most 1,000 W (R352; DESIGN CHOICE, log 22). -/
def State.powerCap (s : State) : Nat := allDies.foldl (fun n d => min n (s.die d).pwrcap.toNat) 1000

/-- Watts, times 64, of the module at a duty of n/64 for the active hubs. -/
def State.draw64 (s : State) (n : Nat) : Nat :=
  64 * s.otherLines + [(4 : DieIx), 5].foldl (fun acc d => acc + 64 * 40 + if s.hubActive d then 210 * n else 0) 0

/-- The duty D: the largest under which the module stays within its cap, 64 when unthrottled (R352). -/
def State.duty (s : State) : Nat := (((List.range 64).map fun i => 64 - i).find? fun n => s.draw64 n ≤ 64 * s.powerCap).getD 1

/-- PWRST (R352): 64 is coded 0.  The estimate shown is the draw at the duty that is granted (R4; DESIGN CHOICE, log 22). -/
def State.powerWord (s : State) : Word :=
  let n := s.duty
  let code (d : DieIx) : Nat := if s.hubActive d then n % 64 else 0
  packWord [(48, s.draw64 n / 64), (8, code 5), (0, code 4)]

/-- The power manager's 16,000 cycles have passed, by the clock of H0 (R352; DESIGN CHOICE, log 22). -/
def State.powerDue (s : State) : Bool := 16000 ≤ (s.die 4).powAge

/-- POWER_ESTIMATE (R352): every 16,000 cycles. -/
def execPowerEstimate (s : State) : Result :=
  let w := s.powerWord
  if s.powerDue then .next (allDies.foldl (fun (acc : State) d => acc.modDie d fun x => { x with pwrst := w, powAge := 0 }) s)
  else s.stutter

end Sys2Proof.Machine
end

