-- ==== Sys2Proof/Machine/Host.lean ====
section
/-!
DEFINITION. Host: the host's control and memory apertures and its atomics (R210, R240, R312, R314, R315).
-/

namespace Sys2Proof.Machine

/-! ### The memory aperture (R240, R312, R314) -/

/-- The pieces of n bytes at an aperture offset, none of which crosses a 64 KiB boundary: offset and length. -/
def hostPieces : Nat → Nat → Nat → List (Nat × Nat)
  | 0, _, _ => []
  | fuel + 1, off, n =>
    if n = 0 then []
    else
      let m := min n (2 ^ 16 - off % 2 ^ 16)
      (off, m) :: hostPieces fuel (off + m) (n - m)

/-- Pieces of an access. -/
def piecesOf (off n : Nat) : List (Nat × Nat) := hostPieces (n / 2 ^ 16 + 2) off n

/-- A place that a host write must wait for: a tile transfer's banks, or a column that is being moved (R230, R282). -/
def State.hostWaits (s : State) (d : DieIx) (off n : Nat) : Bool :=
  (piecesOf off n).any fun p => match s.physLoc d p.1 with
    | some l => s.bankWait l p.2 || s.migLocked l p.2
    | none => false

/-- A host access to a secure region: logged (R312). -/
def State.hostRefused (s : State) (d : DieIx) (off : Nat) : State := s.log d 12 Cause.prm.code (word off) 0

/-- One piece of a host write. -/
def State.hostPut (s : State) (d : DieIx) (off : Nat) (bs : List Byte) : State :=
  match s.physLoc d off with
  | none => s
  | some l =>
    let w := s.worldOk d false off bs.length
    if w.1 then w.2.store l bs else w.2.hostRefused d off

/-- HOST_MEMORY_WRITE (R314): ignored before READY, at an offset in no region, and in a secure region, where it is logged. -/
def execHostMemoryWrite (die : DieIx) (off : Nat) (bytes : List Byte) (s : State) : Result :=
  if !(s.die die).ready || s.hostWaits die off bytes.length then s.stutter
  else .next ((piecesOf off bytes.length).foldl (fun (acc : State) p =>
    acc.hostPut die p.1 ((bytes.drop (p.1 - off)).take p.2)) s)

/-- One piece of a host read: all ones where there is no region, and in a secure region (R312, R314). -/
def State.hostGet (s : State) (d : DieIx) (off n : Nat) : List Byte × State :=
  let ones := List.replicate n 0xFF#8
  match s.physLoc d off with
  | none => (ones, s)
  | some l =>
    let w := s.worldOk d false off n
    if w.1 then (w.2.peekPoisoned l n, (w.2.noteUnc l n).readDram l n) else (ones, w.2.hostRefused d off)

/-- HOST_MEMORY_READ (R240, R314): all ones before READY. -/
def execHostMemoryRead (die : DieIx) (off len : Nat) (s : State) : Result :=
  if !(s.die die).ready then .next { s with out := s.out ++ [.read die (List.replicate len 0xFF)] }
  else
    let r := (piecesOf off len).foldl (fun (acc : List Byte × State) p =>
      let q := acc.2.hostGet die p.1 p.2
      (acc.1 ++ q.1, q.2)) ([], s)
    .next { r.2 with out := s.out ++ [.read die r.1] }

/-! ### Host atomics (R210, R211) -/

/-- HOST_ATOMIC_REQUEST (R210): applied at the hub SRAM bank's atomics unit.  Uncorrectable data leaves it unapplied, and the
answer is then free; an access that the host may not make answers all ones; no update is lost where R211 lets one be (DESIGN CHOICE,
log 23). -/
def execHostAtomicRequest (die : DieIx) (pa : Nat) (op : AtomOp) (w : Bool) (b c : Word) (s : State) : Result :=
  let size := if w then 4 else 8
  let answer (s : State) (v : Word) : Result := .next { s with out := s.out ++ [.atomic die v] }
  if !(s.die die).ready || !isHub die || Config.hubSramBytes < pa + size || pa % size ≠ 0 then answer s allOnes
  else
    let p := s.worldOk die false pa size
    if !p.1 then answer (p.2.hostRefused die pa) allOnes
    else match p.2.atomApply (.hub die pa) (.atomic op size b c) with
      | (.old bs, s') => answer s' (word (leNat bs))
      | (_, s') =>
        let r := s'.free
        answer r.2 r.1

/-! ### Accesses from other packages (R310) -/

/-- The places that an access over Span reaches once the exporter's checks have passed, or its refusal (R310). -/
def State.spanPlaces (s : State) (d : DieIx) (a : SpanAccess) (n : Nat) (acc : Acc) : Option (List (Loc × Nat × Nat)) × State :=
  if a.tensor then s.exportTensor d a.rh a.off n acc a.secure
  else match s.exportCheck d a.rh a.off n acc a.secure with
    | (some l, s') => (some [(l, n, a.off)], s')
    | (none, s') => (none, s')

/-- Bytes and permission that an access over Span needs. -/
def SpanOp.needs : SpanOp → Nat × Acc
  | .read n => (n, .read)
  | .write bs => (bs.length, .write)
  | .atomic kind => (kind.bytes, kind.acc)

/-- The answer to an access over Span. -/
def State.spanReply (s : State) (d : DieIx) (v : Option (List Byte)) : State := { s with out := s.out ++ [.span d v] }

/-- An access over Span whose checks have passed is made. -/
def State.spanMake (s : State) (d : DieIx) (ps : List (Loc × Nat × Nat)) (op : SpanOp) : State :=
  match op with
  | .write bs => s.storeAll ((cutBytes ps bs).map fun w => (w.1, w.2.2))
  | .read _ =>
    let r := ps.foldl (fun (acc : List Byte × State) p =>
      (acc.1 ++ acc.2.peekPoisoned p.1 p.2.1, (acc.2.noteUnc p.1 p.2.1).readDram p.1 p.2.1)) ([], s)
    r.2.spanReply d (some r.1)
  | .atomic kind =>
    match ps with
    | p :: _ => (match s.atomApply p.1 kind with
      | (.old bs, s') => s'.spanReply d (some bs)
      | (_, s') => s'.spanReply d none)
    | [] => s.spanReply d none

/-- An access arrives over Span and passes the exporter's checks, or is refused and logged (R310); it waits for READY, tile locks and
migrations (R230, R282, R347; DESIGN CHOICE, log 17). -/
def State.spanArrives (s : State) (d : DieIx) (a : SpanAccess) : Result :=
  let w := a.op.needs
  if !(s.die d).ready then s.stutter
  else match s.spanPlaces d a w.1 w.2 with
    | (none, s') => .next ((s'.log d 12 Cause.prm.code (word a.off) 0).spanReply d none)
    | (some ps, s') =>
      if s'.piecesLocked ps || (w.2.needsWrite && ps.any fun p => s'.migLocked p.1 p.2.1) then s.stutter
      else .next (s'.spanMake d ps a.op)

/-! ### The control aperture (R314, R315) -/

/-- A rate ceiling of SPCEIL: 0 and values above 100 act as 100 (R315). -/
def ceilClamp (v : Word) : Word :=
  packWord ((List.range 8).map fun k =>
    let n := bits v (8 * k) 8
    (8 * k, if n = 0 ∨ 100 < n then 100 else n))

/-- A rate ceiling of ETHCEIL: at most 100 (R315). -/
def ethClamp (v : Word) : Word := packWord ((List.range 3).map fun k => (8 * k, min 100 (bits v (8 * k) 8)))

/-- Bits of MWINw that are not reserved. -/
def mwinMask (k : Nat) : Nat := if k % 2 = 0 then maskAt 12 44 + 0xFF else maskAt 12 44

/-- A write of RSTCTL: bits 5:0 reset devices cold, bits 13:8 warm (R315). -/
def State.writeRstctl (s : State) (v : Word) : State :=
  allDies.foldl (fun (acc : State) d =>
    if bit v d.val then acc.coldReset d
    else if bit v (8 + d.val) && (acc.die d).ready then acc.warmReset d
    else acc) s

/-- A host-only register of a hub device written, MWDROP included; reserved bits are dropped, and the rest of the word is written (R315;
DESIGN CHOICE, log 68). -/
def State.writeHostOnly (s : State) (d : DieIx) (k : Nat) (v : Word) : State :=
  if k < 128 then s.modDie d fun x => { x with mwin := vset x.mwin k (v &&& word (mwinMask k)) }
  else match k with
    | 128 => s.writeRstctl v
    | 129 => s.modDie d fun x => { x with ethceil := ethClamp v }
    | 130 => s.modDie d fun x => { x with spceil := ceilClamp v }
    | 131 => s.modDie d fun x => { x with mwdrop := v.toNat }
    | _ => s

/-- A control write to register a of a core: a SETC from handler mode in the non-secure world; one that would raise a cause
writes nothing (R314). -/
def State.hostSetc (s : State) (k : CoreIx) (a : Nat) (v : Word) : State :=
  match cregAcc (isHub (dieOf k)) a with
  | some acc =>
    if s.cregAbsent k a || acc == .r || acc == .sec || outside v (cregMask a) || cregValueBad a v then s
    else match s.cregWrite k false a v with
      | .ok s' => s'
      | .error _ => s
  | none => s

/-- A host-only register of a hub device as the host reads it; RSTCTL clears itself (R315). -/
def Die.hostOnly (x : Die) (k : Nat) : Option Word :=
  if k < 128 then some (vget x.mwin k 0)
  else match k with
    | 128 => some 0
    | 129 => some x.ethceil
    | 130 => some x.spceil
    | 131 => some (word x.mwdrop)
    | _ => none

/-- What 8 bytes of the control aperture hold; nothing at an offset that names no register, where the manual gives no value (R314). -/
def State.hostGetc (s : State) (d : DieIx) (off : Nat) : Option Word :=
  let a := off % 2 ^ 15 / 8
  if off % 8 ≠ 0 then none
  else if 0x3F_0000 ≤ off then (if isHub d then (s.die d).hostOnly ((off - 0x3F_0000) / 8) else none)
  else if 0xC00 ≤ a then some 0
  else match s.coreAt d (off / 2 ^ 15) with
    | some k => if a < 0x100 ∨ cregAcc (isHub d) a = none ∨ s.cregAbsent k a then none else some (s.sharedRead k a)
    | none => none

/-- The host has read 8 bytes (R314). -/
def State.hostRead (s : State) (d : DieIx) (v : Word) : State := { s with out := s.out ++ [.read d (leBytes 8 v.toNat)] }

/-- The host reads its control aperture: all ones before READY, and a free value at an offset that names no register (R314, R315, R347;
DESIGN CHOICE, log 6). -/
def State.hostControlRead (s : State) (d : DieIx) (off : Nat) : State :=
  if !(s.die d).ready then s.hostRead d allOnes
  else match s.hostGetc d off with
    | some v => s.hostRead d v
    | none => s.free.2.hostRead d s.free.1

/-- The host reads its notify aperture (R314). -/
def State.hostNotifyRead (s : State) (d : DieIx) : State := s.hostRead d 0

/-- HOST_CONTROL_WRITE (R314, R315). -/
def execHostControlWrite (die : DieIx) (off : Nat) (v : Word) (s : State) : Result :=
  if !(s.die die).ready || off % 8 ≠ 0 || 2 ^ 22 ≤ off then s.stutter
  else if 0x3F_0000 ≤ off then
    (if isHub die then .next (s.writeHostOnly die ((off - 0x3F_0000) / 8) v) else s.stutter)
  else
    let a := off % 2 ^ 15 / 8
    match s.coreAt die (off / 2 ^ 15) with
    | some k => if 0x100 ≤ a ∧ a < 0xC00 then s.schedEvent die (s.hostSetc k a v) else s.stutter
    | none => s.stutter

end Sys2Proof.Machine
end

