-- ==== Sys2Proof/Machine/Integer.lean ====
section
/-!
DEFINITION. Integer: the integer arithmetic and logic of spec/04_base_isa.md (R66 to R71).
-/

namespace Sys2Proof.Machine

/-- The lesser or greater of two words by a test. -/
def pick (b : Bool) (x y : Word) : Word := if b then x else y

/-- The low 32 bits, sign-extended (R66 ADDW, SUBW). -/
def signLow (x : Word) : Word := (x.setWidth 32).signExtend 64

/-- Zero bits counted from bit n - 1 down (R66 CLZ). -/
def leadZeros : Nat → Word → Nat
  | 0, _ => 0
  | n + 1, x => if x.getLsbD n then 0 else leadZeros n x + 1

/-- Zero bits counted from bit 0 up, at most n (R66 CTZ). -/
def trailZeros : Nat → Word → Nat
  | 0, _ => 0
  | n + 1, x => if x.getLsbD 0 then 0 else trailZeros n (x >>> 1) + 1

/-- One bits among the low n (R66 POPC). -/
def onesBelow : Nat → Word → Nat
  | 0, _ => 0
  | n + 1, x => onesBelow n x + flagNat (x.getLsbD n)

/-- The shift amount gB[5:0] (R66). -/
def shamt (b : Word) : Nat := bits b 0 6

/-- DIV (R67): a quotient truncated toward zero; all ones on a zero divisor. -/
def divTrunc (a b : Word) : Word := if b = 0 then allOnes else BitVec.ofInt 64 (a.toInt.tdiv b.toInt)

/-- REM (R67): the remainder with the sign of the dividend; gA on a zero divisor. -/
def remTrunc (a b : Word) : Word := if b = 0 then a else BitVec.ofInt 64 (a.toInt.tmod b.toInt)

/-- DIVN (R67). -/
def divN (a b : Word) : Word := if b = 0 then allOnes else word (a.toNat / b.toNat)

/-- REMN (R67). -/
def remN (a b : Word) : Word := if b = 0 then a else word (a.toNat % b.toNat)

/-- A two-operand instruction that only writes gD. -/
def State.alu2 (s : State) (f : Word → Word → Word) (d a b : Reg) : Result := .next (s.finish d (f (s.g a) (s.g b)))

/-- A one-operand instruction that only writes gD. -/
def State.alu1 (s : State) (f : Word → Word) (d a : Reg) : Result := .next (s.finish d (f (s.g a)))

/-- ADD (R66). -/
def execAdd (d a b : Reg) (s : State) : Result := s.alu2 (· + ·) d a b
/-- SUB (R66). -/
def execSub (d a b : Reg) (s : State) : Result := s.alu2 (· - ·) d a b
/-- AND (R66). -/
def execAnd (d a b : Reg) (s : State) : Result := s.alu2 (· &&& ·) d a b
/-- OR (R66). -/
def execOr (d a b : Reg) (s : State) : Result := s.alu2 (· ||| ·) d a b
/-- XOR (R66). -/
def execXor (d a b : Reg) (s : State) : Result := s.alu2 (· ^^^ ·) d a b
/-- ANDN (R66). -/
def execAndn (d a b : Reg) (s : State) : Result := s.alu2 (fun x y => x &&& ~~~y) d a b
/-- MIN (R66). -/
def execMin (d a b : Reg) (s : State) : Result := s.alu2 (fun x y => pick (x.slt y) x y) d a b
/-- MAX (R66). -/
def execMax (d a b : Reg) (s : State) : Result := s.alu2 (fun x y => pick (x.slt y) y x) d a b
/-- MINN (R66). -/
def execMinn (d a b : Reg) (s : State) : Result := s.alu2 (fun x y => pick (x.ult y) x y) d a b
/-- MAXN (R66). -/
def execMaxn (d a b : Reg) (s : State) : Result := s.alu2 (fun x y => pick (x.ult y) y x) d a b
/-- ADDW (R66). -/
def execAddw (d a b : Reg) (s : State) : Result := s.alu2 (fun x y => signLow (x + y)) d a b
/-- SUBW (R66). -/
def execSubw (d a b : Reg) (s : State) : Result := s.alu2 (fun x y => signLow (x - y)) d a b
/-- SHL (R66). -/
def execShl (d a b : Reg) (s : State) : Result := s.alu2 (fun x y => x <<< shamt y) d a b
/-- SHR (R66). -/
def execShr (d a b : Reg) (s : State) : Result := s.alu2 (fun x y => x >>> shamt y) d a b
/-- SHA (R66). -/
def execSha (d a b : Reg) (s : State) : Result := s.alu2 (fun x y => x.sshiftRight (shamt y)) d a b
/-- ROL (R66). -/
def execRol (d a b : Reg) (s : State) : Result := s.alu2 (fun x y => x.rotateLeft (shamt y)) d a b
/-- CLZ (R66). -/
def execClz (d a : Reg) (s : State) : Result := s.alu1 (fun x => word (leadZeros 64 x)) d a
/-- CTZ (R66). -/
def execCtz (d a : Reg) (s : State) : Result := s.alu1 (fun x => word (trailZeros 64 x)) d a
/-- POPC (R66). -/
def execPopc (d a : Reg) (s : State) : Result := s.alu1 (fun x => word (onesBelow 64 x)) d a
/-- MUL (R66). -/
def execMul (d a b : Reg) (s : State) : Result := s.alu2 (· * ·) d a b
/-- MULH (R66). -/
def execMulh (d a b : Reg) (s : State) : Result :=
  s.alu2 (fun x y => BitVec.ofInt 64 ((x.toInt * y.toInt).fdiv (2 ^ 64))) d a b
/-- MULHN (R66). -/
def execMulhn (d a b : Reg) (s : State) : Result := s.alu2 (fun x y => word (x.toNat * y.toNat / 2 ^ 64)) d a b
/-- DIV (R67). -/
def execDiv (d a b : Reg) (s : State) : Result := s.alu2 divTrunc d a b
/-- DIVN (R67). -/
def execDivn (d a b : Reg) (s : State) : Result := s.alu2 divN d a b
/-- REM (R67). -/
def execRem (d a b : Reg) (s : State) : Result := s.alu2 remTrunc d a b
/-- REMN (R67). -/
def execRemn (d a b : Reg) (s : State) : Result := s.alu2 remN d a b
/-- SEQ (R66). -/
def execSeq (d a b : Reg) (s : State) : Result := s.alu2 (fun x y => flagWord (x == y)) d a b
/-- SNE (R66). -/
def execSne (d a b : Reg) (s : State) : Result := s.alu2 (fun x y => flagWord (x != y)) d a b
/-- SLT (R66). -/
def execSlt (d a b : Reg) (s : State) : Result := s.alu2 (fun x y => flagWord (x.slt y)) d a b
/-- SLTN (R66). -/
def execSltn (d a b : Reg) (s : State) : Result := s.alu2 (fun x y => flagWord (x.ult y)) d a b
/-- SLE (R66). -/
def execSle (d a b : Reg) (s : State) : Result := s.alu2 (fun x y => flagWord (x.sle y)) d a b
/-- SLEN (R66). -/
def execSlen (d a b : Reg) (s : State) : Result := s.alu2 (fun x y => flagWord (x.ule y)) d a b
/-- ADDI (R68). -/
def execAddi (d a : Reg) (imm : BitVec 15) (s : State) : Result := s.alu1 (· + simm15 imm) d a
/-- ORI (R68). -/
def execOri (d a : Reg) (imm : BitVec 15) (s : State) : Result := s.alu1 (· ||| zimm15 imm) d a
/-- XORI (R68). -/
def execXori (d a : Reg) (imm : BitVec 15) (s : State) : Result := s.alu1 (· ^^^ zimm15 imm) d a
/-- SLTI (R68). -/
def execSlti (d a : Reg) (imm : BitVec 15) (s : State) : Result := s.alu1 (fun x => flagWord (x.slt (simm15 imm))) d a
/-- MOVZ (R69). -/
def execMovz (d : Reg) (imm : BitVec 16) (q : BitVec 2) (s : State) : Result := .next (s.finish d (quarter imm q))
/-- MOVK (R69): it reads gD as a source. -/
def execMovk (d : Reg) (imm : BitVec 16) (q : BitVec 2) (s : State) : Result :=
  s.alu1 (fun x => (x &&& ~~~(quarterMask q)) ||| quarter imm q) d d
/-- MOVN (R69). -/
def execMovn (d : Reg) (imm : BitVec 16) (q : BitVec 2) (s : State) : Result := .next (s.finish d (~~~(quarter imm q)))
/-- ADDPC (R70). -/
def execAddpc (d : Reg) (imm : BitVec 15) (s : State) : Result := .next (s.finish d ((relTarget s.me.pc imm).setWidth 64))
/-- SHADD1 (R71). -/
def execShadd1 (d a b : Reg) (s : State) : Result := s.alu2 (fun x y => (x <<< 1) + y) d a b
/-- SHADD2 (R71). -/
def execShadd2 (d a b : Reg) (s : State) : Result := s.alu2 (fun x y => (x <<< 2) + y) d a b
/-- SHADD3 (R71). -/
def execShadd3 (d a b : Reg) (s : State) : Result := s.alu2 (fun x y => (x <<< 3) + y) d a b
/-- SHADD4 (R71). -/
def execShadd4 (d a b : Reg) (s : State) : Result := s.alu2 (fun x y => (x <<< 4) + y) d a b

end Sys2Proof.Machine
end

