-- ==== Sys2Proof/Machine/Words.lean ====
section
/-!
DEFINITION. Words: the meaning of an instruction word by itself, as the words of a bundle need it (R30), and the words that a DUAL
record must not use (R338).
-/

namespace Sys2Proof.Machine

/-- The meaning of an instruction word of the cluster in focus; an event is no word. -/
def wordExec (i : Instr) (s : State) : Result :=
  match i with
  | .add d a b => execAdd d a b s
  | .sub d a b => execSub d a b s
  | .and d a b => execAnd d a b s
  | .or d a b => execOr d a b s
  | .xor d a b => execXor d a b s
  | .andn d a b => execAndn d a b s
  | .min d a b => execMin d a b s
  | .max d a b => execMax d a b s
  | .minn d a b => execMinn d a b s
  | .maxn d a b => execMaxn d a b s
  | .addw d a b => execAddw d a b s
  | .subw d a b => execSubw d a b s
  | .shl d a b => execShl d a b s
  | .shr d a b => execShr d a b s
  | .sha d a b => execSha d a b s
  | .rol d a b => execRol d a b s
  | .clz d a => execClz d a s
  | .ctz d a => execCtz d a s
  | .popc d a => execPopc d a s
  | .mul d a b => execMul d a b s
  | .mulh d a b => execMulh d a b s
  | .mulhn d a b => execMulhn d a b s
  | .div d a b => execDiv d a b s
  | .divn d a b => execDivn d a b s
  | .rem d a b => execRem d a b s
  | .remn d a b => execRemn d a b s
  | .seq d a b => execSeq d a b s
  | .sne d a b => execSne d a b s
  | .slt d a b => execSlt d a b s
  | .sltn d a b => execSltn d a b s
  | .sle d a b => execSle d a b s
  | .slen d a b => execSlen d a b s
  | .addi d a imm => execAddi d a imm s
  | .ori d a imm => execOri d a imm s
  | .xori d a imm => execXori d a imm s
  | .slti d a imm => execSlti d a imm s
  | .movz d imm q => execMovz d imm q s
  | .movk d imm q => execMovk d imm q s
  | .movn d imm q => execMovn d imm q s
  | .addpc d imm => execAddpc d imm s
  | .shadd1 d a b => execShadd1 d a b s
  | .shadd2 d a b => execShadd2 d a b s
  | .shadd3 d a b => execShadd3 d a b s
  | .shadd4 d a b => execShadd4 d a b s
  | .j off => execJ off s
  | .call off => execCall off s
  | .beqz d off => execBeqz d off s
  | .bnez d off => execBnez d off s
  | .bltz d off => execBltz d off s
  | .bgez d off => execBgez d off s
  | .bgtz d off => execBgtz d off s
  | .blez d off => execBlez d off s
  | .jr a => execJr a s
  | .callr d a => execCallr d a s
  | .loops a b => execLoops a b s
  | .loopx => execLoopx s
  | .ld d a imm o => execLd d a imm o s
  | .ldS32 d a imm o => execLdS32 d a imm o s
  | .st d a imm o => execSt d a imm o s
  | .stN32 d a imm o => execStN32 d a imm o s
  | .ldS8 d a b o => execLdS8 d a b o s
  | .ldN8 d a b o => execLdN8 d a b o s
  | .ldS16 d a b o => execLdS16 d a b o s
  | .ldN16 d a b o => execLdN16 d a b o s
  | .ldN32 d a b o => execLdN32 d a b o s
  | .ldx d a b o => execLdx d a b o s
  | .stN8 d a b o => execStN8 d a b o s
  | .stN16 d a b o => execStN16 d a b o s
  | .stx d a b o => execStx d a b o s
  | .ldAcq d a o => execLdAcq d a o s
  | .stRel d a o => execStRel d a o s
  | .aadd d a b sem w o => execAadd d a b sem w o s
  | .aand d a b sem w o => execAand d a b sem w o s
  | .aor d a b sem w o => execAor d a b sem w o s
  | .axor d a b sem w o => execAxor d a b sem w o s
  | .amin d a b sem w o => execAmin d a b sem w o s
  | .amax d a b sem w o => execAmax d a b sem w o s
  | .aswp d a b sem w o => execAswp d a b sem w o s
  | .acas d a b sem w o => execAcas d a b sem w o s
  | .vaadd d a b sem t o => execVaadd d a b sem t o s
  | .vamin d a b sem t o => execVamin d a b sem t o s
  | .vamax d a b sem t o => execVamax d a b sem t o s
  | .redadd a b t o => execRedadd a b t o s
  | .redmin a b t o => execRedmin a b t o s
  | .redmax a b t o => execRedmax a b t o s
  | .fence paths scope mask => execFence paths scope mask s
  | .fenceComplete _ _ => s.stutter
  | .bjoin k a => execBjoin k a s
  | .bleave k a => execBleave k a s
  | .barv d k a => execBarv d k a s
  | .bara d k a => execBara d k a s
  | .bwait k a b => execBwait k a b s
  | .rclaim d k => execRclaim d k s
  | .rclaimt d k => execRclaimt d k s
  | .rfill k a => execRfill k a s
  | .rawait d k a => execRawait d k a s
  | .rawaitt d k a => execRawaitt d k a s
  | .rrel k a => execRrel k a s
  | .rcfg k a => execRcfg k a s
  | .rstat d k => execRstat d k s
  | .spawn d a b o => execSpawn d a b o s
  | .jdec d a o => execJdec d a o s
  | .exit o => execExit o s
  | .yield a o => execYield a o s
  | .crec d k => execCrec d k s
  | .jset d a b o => execJset d a b o s
  | .vadd i o a b t => execVadd i o a b t s
  | .vsub i o a b t => execVsub i o a b t s
  | .vmul i o a b t => execVmul i o a b t s
  | .vmac i o a b t => execVmac i o a b t s
  | .vmin i o a b t => execVmin i o a b t s
  | .vmax i o a b t => execVmax i o a b t s
  | .vabs o a b t => execVabs o a b t s
  | .vneg o a b t => execVneg o a b t s
  | .vscale o a b t => execVscale o a b t s
  | .vexp o a b t => execVexp o a b t s
  | .vlog o a b t => execVlog o a b t s
  | .vrcp o a b t => execVrcp o a b t s
  | .vrsqrt o a b t => execVrsqrt o a b t s
  | .vtanh o a b t => execVtanh o a b t s
  | .vsigm o a b t => execVsigm o a b t s
  | .vcvt o a b t => execVcvt o a b t s
  | .vcvtz o a b t => execVcvtz o a b t s
  | .vsum o a b t => execVsum o a b t s
  | .vrmax o a b t => execVrmax o a b t s
  | .vdot o a b t => execVdot o a b t s
  | .vcmpeq i o a b t => execVcmpeq i o a b t s
  | .vcmplt i o a b t => execVcmplt i o a b t s
  | .vcmple i o a b t => execVcmple i o a b t s
  | .vsel i o a b t => execVsel i o a b t s
  | .vand i o a b t => execVand i o a b t s
  | .vor i o a b t => execVor i o a b t s
  | .vxor i o a b t => execVxor i o a b t s
  | .vshl i o a b t => execVshl i o a b t s
  | .vshr i o a b t => execVshr i o a b t s
  | .vcopy o a b t => execVcopy o a b t s
  | .vfill i o a b t => execVfill i o a b t s
  | .vpred o a b t => execVpred o a b t s
  | .vfence a => execVfence a s
  | .vbusy d => execVbusy d s
  | .vectorCommandStart _ _ => s.stutter
  | .vectorCommandComplete _ _ => s.stutter
  | .hzcfg k d a b => execHzcfg k d a b s
  | .hzpsh k a o => execHzpsh k a o s
  | .hzpshR k b => execHzpshR k b s
  | .hzest d k => execHzest d k s
  | .hzrd k a o => execHzrd k a o s
  | .hzclr k => execHzclr k s
  | .horizonCheckpoint _ _ => s.stutter
  | .mxcfg a b => execMxcfg a b s
  | .mxgo o => execMxgo o s
  | .mxwait => execMxwait s
  | .mxstat d => execMxstat d s
  | .mxidx a o => execMxidx a o s
  | .sqp a => execSqp a s
  | .sqld a b o => execSqld a b o s
  | .mxdrain a b o => execMxdrain a b o s
  | .mxfrz => execMxfrz s
  | .mxthaw => execMxthaw s
  | .mxprog d => execMxprog d s
  | .mxclr => execMxclr s
  | .nestStart _ => s.stutter
  | .matrixChunk _ => s.stutter
  | .sqldEntryPush _ => s.stutter
  | .nestComplete _ => s.stutter
  | .tileTransferLock _ _ => s.stutter
  | .tileTransferRelease _ _ => s.stutter
  | .cpy d a b o => execCpy d a b o s
  | .cpyp a b o => execCpyp a b o s
  | .cpinv a b => execCpinv a b s
  | .cpquie d a => execCpquie d a s
  | .cpwait a => execCpwait a s
  | .cpstat d a => execCpstat d a s
  | .cpprog d a => execCpprog d a s
  | .cpnest a b o => execCpnest a b o s
  | .cpsat d a b => execCpsat d a b s
  | .cpsel d a => execCpsel d a s
  | .blockFetch _ _ => s.stutter
  | .cpinvEffect _ _ => s.stutter
  | .cpnestEffect _ _ => s.stutter
  | .ringUnitClaim _ _ => s.stutter
  | .innermostCopy _ _ => s.stutter
  | .ringUnitFill _ _ => s.stutter
  | .copyCommandComplete _ _ => s.stutter
  | .narrowWindowBoundary _ _ => s.stutter
  | .lfmt d a b => execLfmt d a b s
  | .lmcst a b o => execLmcst a b o s
  | .ldot d a b o => execLdot d a b o s
  | .lhzc a => execLhzc a s
  | .lrsync a => execLrsync a s
  | .lsafe => execLsafe s
  | .lpoll d a => execLpoll d a s
  | .lclr => execLclr s
  | .lrtgt a => execLrtgt a s
  | .lstat d a => execLstat d a s
  | .macroBroadcast _ => s.stutter
  | .laneMacroRun _ _ => s.stutter
  | .lanePlaneRead _ _ => s.stutter
  | .rowResultDelivery _ _ _ => s.stutter
  | .multicastLand _ _ => s.stutter
  | .lrsyncDrain _ => s.stutter
  | .lsafeComplete _ => s.stutter
  | .laneWatchdogReset _ => s.stutter
  | .laneParityReplay _ _ => s.stutter
  | .turn d a b => execTurn d a b s
  | .lnkq d a b => execLnkq d a b s
  | .turnStart _ => s.stutter
  | .turnEffect _ => s.stutter
  | .deadTimeEnd _ => s.stutter
  | .forcedTurn _ => s.stutter
  | .getc d c => execGetc d c s
  | .setc c a => execSetc c a s
  | .brk k => execBrk k s
  | .rett => execRett s
  | .csave d a => execCsave d a s
  | .crest d a => execCrest d a s
  | .ckpt d => execCkpt d s
  | .wscall d a b => execWscall d a b s
  | .idle a => execIdle a s
  | .tlbinv a b => execTlbinv a b s
  | .fadd d a b => execFadd d a b s
  | .fsub d a b => execFsub d a b s
  | .fmul d a b => execFmul d a b s
  | .fmac d a b => execFmac d a b s
  | .fdiv d a b => execFdiv d a b s
  | .fsqrt d a => execFsqrt d a s
  | .fcmp cc d a b => execFcmp cc d a b s
  | .fcvt cv d a => execFcvt cv d a s
  | .bundleIssue _ => s.stutter
  | .syncWaitWatchdog _ => s.stutter
  | .loadDataReturn _ => s.stutter
  | .asyncTrapEntry _ => s.stutter
  | .pipelineReplay _ => s.stutter
  | .atomicExecute _ => s.stutter
  | .atomicResponse _ => s.stutter
  | .reductionApplyHome _ => s.stutter
  | .mergeEntryForward _ => s.stutter
  | .peerAccessArrival _ => s.stutter
  | .flitCrcRetry _ => s.stutter
  | .groupRetrainDone _ => s.stutter
  | .flitSendTimeout _ => s.stutter
  | .hostMemoryWrite _ _ _ => s.stutter
  | .hostMemoryRead _ _ _ => s.stutter
  | .hostControlWrite _ _ _ => s.stutter
  | .notify _ _ => s.stutter
  | .qslotMap _ _ _ _ => s.stutter
  | .qslotUnmap _ _ => s.stutter
  | .qslotMappingDone _ _ => s.stutter
  | .qslotUnmapDone _ _ => s.stutter
  | .recordSelect _ => s.stutter
  | .recordStart _ => s.stutter
  | .preempt _ => s.stutter
  | .contextRestore _ => s.stutter
  | .contextClear _ => s.stutter
  | .preemptUnitsStopped _ => s.stutter
  | .debugHalt _ => s.stutter
  | .walkStart _ => s.stutter
  | .walkComplete _ _ => s.stutter
  | .faultMessage _ => s.stutter
  | .xfrespRetry _ => s.stutter
  | .xfrespFail _ => s.stutter
  | .engineFaultResume _ _ => s.stutter
  | .refresh _ _ _ => s.stutter
  | .normalBurstGrant _ _ _ => s.stutter
  | .levelRise _ _ => s.stutter
  | .levelFall _ _ => s.stutter
  | .columnMigrate _ _ => s.stutter
  | .migrationSwitch _ => s.stutter
  | .sendDoorbell _ _ _ => s.stutter
  | .frameTransmit _ _ => s.stutter
  | .ethernetFrameReceive _ _ _ _ => s.stutter
  | .rxFrameCommit _ _ => s.stutter
  | .erxcfgWrite _ _ _ _ => s.stutter
  | .erxtailRelease _ _ _ => s.stutter
  | .patrolScrub _ _ _ => s.stutter
  | .checkpointTimer _ => s.stutter
  | .checkpointCommit _ => s.stutter
  | .checkpointReport _ _ => s.stutter
  | .powerOn => s.stutter
  | .coldReset _ => s.stutter
  | .warmReset _ => s.stutter
  | .bootRailsSettled _ => s.stutter
  | .bootImageVerified _ => s.stutter
  | .bootMemoryReady _ => s.stutter
  | .bootLinksTrained _ => s.stutter
  | .attestationRequest _ _ => s.stutter
  | .attestationReport _ => s.stutter
  | .powerEstimate => s.stutter
  | .testEngineOffer _ _ => s.stutter
  | .vbtdrvWrite _ _ => s.stutter
  | .testBeatResult _ => s.stutter
  | .vbrepWrite _ _ _ => s.stutter
  | .vbrepApply _ => s.stutter
  | .fuseRepairs _ _ => s.stutter
  | .retireBus _ _ => s.stutter
  | .wscallReply _ => s.stutter
  | .dualCompare _ _ => s.stutter
  | .unallocatedWord _ => s.stutter
  | .idleTimeout _ => s.stutter
  | .recordAgeStep _ _ => s.stutter
  | .hostAtomicRequest _ _ _ _ _ _ => s.stutter
  | .sendLogCheckpointRequest _ _ => s.stutter
  | .minsvnRaiseRequest _ => s.stutter

/-- A DUAL record must not use this instruction: atomics, engine commands, ring, barrier and Horizon instructions, and those that
R338 names.  Waits for engines and reads of their state are no commands (DEDUCED, log 24). -/
def barsDual (i : Instr) : Bool :=
  match i with
  | .add _ _ _ => false
  | .sub _ _ _ => false
  | .and _ _ _ => false
  | .or _ _ _ => false
  | .xor _ _ _ => false
  | .andn _ _ _ => false
  | .min _ _ _ => false
  | .max _ _ _ => false
  | .minn _ _ _ => false
  | .maxn _ _ _ => false
  | .addw _ _ _ => false
  | .subw _ _ _ => false
  | .shl _ _ _ => false
  | .shr _ _ _ => false
  | .sha _ _ _ => false
  | .rol _ _ _ => false
  | .clz _ _ => false
  | .ctz _ _ => false
  | .popc _ _ => false
  | .mul _ _ _ => false
  | .mulh _ _ _ => false
  | .mulhn _ _ _ => false
  | .div _ _ _ => false
  | .divn _ _ _ => false
  | .rem _ _ _ => false
  | .remn _ _ _ => false
  | .seq _ _ _ => false
  | .sne _ _ _ => false
  | .slt _ _ _ => false
  | .sltn _ _ _ => false
  | .sle _ _ _ => false
  | .slen _ _ _ => false
  | .addi _ _ _ => false
  | .ori _ _ _ => false
  | .xori _ _ _ => false
  | .slti _ _ _ => false
  | .movz _ _ _ => false
  | .movk _ _ _ => false
  | .movn _ _ _ => false
  | .addpc _ _ => false
  | .shadd1 _ _ _ => false
  | .shadd2 _ _ _ => false
  | .shadd3 _ _ _ => false
  | .shadd4 _ _ _ => false
  | .j _ => false
  | .call _ => false
  | .beqz _ _ => false
  | .bnez _ _ => false
  | .bltz _ _ => false
  | .bgez _ _ => false
  | .bgtz _ _ => false
  | .blez _ _ => false
  | .jr _ => false
  | .callr _ _ => false
  | .loops _ _ => false
  | .loopx => false
  | .ld _ _ _ _ => false
  | .ldS32 _ _ _ _ => false
  | .st _ _ _ _ => false
  | .stN32 _ _ _ _ => false
  | .ldS8 _ _ _ _ => false
  | .ldN8 _ _ _ _ => false
  | .ldS16 _ _ _ _ => false
  | .ldN16 _ _ _ _ => false
  | .ldN32 _ _ _ _ => false
  | .ldx _ _ _ _ => false
  | .stN8 _ _ _ _ => false
  | .stN16 _ _ _ _ => false
  | .stx _ _ _ _ => false
  | .ldAcq _ _ _ => false
  | .stRel _ _ _ => false
  | .aadd _ _ _ _ _ _ => true
  | .aand _ _ _ _ _ _ => true
  | .aor _ _ _ _ _ _ => true
  | .axor _ _ _ _ _ _ => true
  | .amin _ _ _ _ _ _ => true
  | .amax _ _ _ _ _ _ => true
  | .aswp _ _ _ _ _ _ => true
  | .acas _ _ _ _ _ _ => true
  | .vaadd _ _ _ _ _ _ => true
  | .vamin _ _ _ _ _ _ => true
  | .vamax _ _ _ _ _ _ => true
  | .redadd _ _ _ _ => true
  | .redmin _ _ _ _ => true
  | .redmax _ _ _ _ => true
  | .fence _ _ _ => false
  | .fenceComplete _ _ => false
  | .bjoin _ _ => true
  | .bleave _ _ => true
  | .barv _ _ _ => true
  | .bara _ _ _ => true
  | .bwait _ _ _ => true
  | .rclaim _ _ => true
  | .rclaimt _ _ => true
  | .rfill _ _ => true
  | .rawait _ _ _ => true
  | .rawaitt _ _ _ => true
  | .rrel _ _ => true
  | .rcfg _ _ => true
  | .rstat _ _ => true
  | .spawn _ _ _ _ => true
  | .jdec _ _ _ => true
  | .exit _ => false
  | .yield _ _ => true
  | .crec _ _ => false
  | .jset _ _ _ _ => true
  | .vadd _ _ _ _ _ => true
  | .vsub _ _ _ _ _ => true
  | .vmul _ _ _ _ _ => true
  | .vmac _ _ _ _ _ => true
  | .vmin _ _ _ _ _ => true
  | .vmax _ _ _ _ _ => true
  | .vabs _ _ _ _ => true
  | .vneg _ _ _ _ => true
  | .vscale _ _ _ _ => true
  | .vexp _ _ _ _ => true
  | .vlog _ _ _ _ => true
  | .vrcp _ _ _ _ => true
  | .vrsqrt _ _ _ _ => true
  | .vtanh _ _ _ _ => true
  | .vsigm _ _ _ _ => true
  | .vcvt _ _ _ _ => true
  | .vcvtz _ _ _ _ => true
  | .vsum _ _ _ _ => true
  | .vrmax _ _ _ _ => true
  | .vdot _ _ _ _ => true
  | .vcmpeq _ _ _ _ _ => true
  | .vcmplt _ _ _ _ _ => true
  | .vcmple _ _ _ _ _ => true
  | .vsel _ _ _ _ _ => true
  | .vand _ _ _ _ _ => true
  | .vor _ _ _ _ _ => true
  | .vxor _ _ _ _ _ => true
  | .vshl _ _ _ _ _ => true
  | .vshr _ _ _ _ _ => true
  | .vcopy _ _ _ _ => true
  | .vfill _ _ _ _ _ => true
  | .vpred _ _ _ _ => true
  | .vfence _ => false
  | .vbusy _ => false
  | .vectorCommandStart _ _ => false
  | .vectorCommandComplete _ _ => false
  | .hzcfg _ _ _ _ => true
  | .hzpsh _ _ _ => true
  | .hzpshR _ _ => true
  | .hzest _ _ => true
  | .hzrd _ _ _ => true
  | .hzclr _ => true
  | .horizonCheckpoint _ _ => false
  | .mxcfg _ _ => true
  | .mxgo _ => true
  | .mxwait => false
  | .mxstat _ => false
  | .mxidx _ _ => true
  | .sqp _ => true
  | .sqld _ _ _ => true
  | .mxdrain _ _ _ => true
  | .mxfrz => true
  | .mxthaw => true
  | .mxprog _ => false
  | .mxclr => true
  | .nestStart _ => false
  | .matrixChunk _ => false
  | .sqldEntryPush _ => false
  | .nestComplete _ => false
  | .tileTransferLock _ _ => false
  | .tileTransferRelease _ _ => false
  | .cpy _ _ _ _ => true
  | .cpyp _ _ _ => true
  | .cpinv _ _ => true
  | .cpquie _ _ => false
  | .cpwait _ => false
  | .cpstat _ _ => false
  | .cpprog _ _ => false
  | .cpnest _ _ _ => true
  | .cpsat _ _ _ => true
  | .cpsel _ _ => false
  | .blockFetch _ _ => false
  | .cpinvEffect _ _ => false
  | .cpnestEffect _ _ => false
  | .ringUnitClaim _ _ => false
  | .innermostCopy _ _ => false
  | .ringUnitFill _ _ => false
  | .copyCommandComplete _ _ => false
  | .narrowWindowBoundary _ _ => false
  | .lfmt _ _ _ => false
  | .lmcst _ _ _ => false
  | .ldot _ _ _ _ => false
  | .lhzc _ => false
  | .lrsync _ => false
  | .lsafe => false
  | .lpoll _ _ => false
  | .lclr => false
  | .lrtgt _ => false
  | .lstat _ _ => false
  | .macroBroadcast _ => false
  | .laneMacroRun _ _ => false
  | .lanePlaneRead _ _ => false
  | .rowResultDelivery _ _ _ => false
  | .multicastLand _ _ => false
  | .lrsyncDrain _ => false
  | .lsafeComplete _ => false
  | .laneWatchdogReset _ => false
  | .laneParityReplay _ _ => false
  | .turn _ _ _ => false
  | .lnkq _ _ _ => false
  | .turnStart _ => false
  | .turnEffect _ => false
  | .deadTimeEnd _ => false
  | .forcedTurn _ => false
  | .getc _ _ => false
  | .setc _ _ => true
  | .brk _ => false
  | .rett => false
  | .csave _ _ => true
  | .crest _ _ => true
  | .ckpt _ => true
  | .wscall _ _ _ => false
  | .idle _ => false
  | .tlbinv _ _ => false
  | .fadd _ _ _ => false
  | .fsub _ _ _ => false
  | .fmul _ _ _ => false
  | .fmac _ _ _ => false
  | .fdiv _ _ _ => false
  | .fsqrt _ _ => false
  | .fcmp _ _ _ _ => false
  | .fcvt _ _ _ => false
  | .bundleIssue _ => false
  | .syncWaitWatchdog _ => false
  | .loadDataReturn _ => false
  | .asyncTrapEntry _ => false
  | .pipelineReplay _ => false
  | .atomicExecute _ => false
  | .atomicResponse _ => false
  | .reductionApplyHome _ => false
  | .mergeEntryForward _ => false
  | .peerAccessArrival _ => false
  | .flitCrcRetry _ => false
  | .groupRetrainDone _ => false
  | .flitSendTimeout _ => false
  | .hostMemoryWrite _ _ _ => false
  | .hostMemoryRead _ _ _ => false
  | .hostControlWrite _ _ _ => false
  | .notify _ _ => false
  | .qslotMap _ _ _ _ => false
  | .qslotUnmap _ _ => false
  | .qslotMappingDone _ _ => false
  | .qslotUnmapDone _ _ => false
  | .recordSelect _ => false
  | .recordStart _ => false
  | .preempt _ => false
  | .contextRestore _ => false
  | .contextClear _ => false
  | .preemptUnitsStopped _ => false
  | .debugHalt _ => false
  | .walkStart _ => false
  | .walkComplete _ _ => false
  | .faultMessage _ => false
  | .xfrespRetry _ => false
  | .xfrespFail _ => false
  | .engineFaultResume _ _ => false
  | .refresh _ _ _ => false
  | .normalBurstGrant _ _ _ => false
  | .levelRise _ _ => false
  | .levelFall _ _ => false
  | .columnMigrate _ _ => false
  | .migrationSwitch _ => false
  | .sendDoorbell _ _ _ => false
  | .frameTransmit _ _ => false
  | .ethernetFrameReceive _ _ _ _ => false
  | .rxFrameCommit _ _ => false
  | .erxcfgWrite _ _ _ _ => false
  | .erxtailRelease _ _ _ => false
  | .patrolScrub _ _ _ => false
  | .checkpointTimer _ => false
  | .checkpointCommit _ => false
  | .checkpointReport _ _ => false
  | .powerOn => false
  | .coldReset _ => false
  | .warmReset _ => false
  | .bootRailsSettled _ => false
  | .bootImageVerified _ => false
  | .bootMemoryReady _ => false
  | .bootLinksTrained _ => false
  | .attestationRequest _ _ => false
  | .attestationReport _ => false
  | .powerEstimate => false
  | .testEngineOffer _ _ => false
  | .vbtdrvWrite _ _ => false
  | .testBeatResult _ => false
  | .vbrepWrite _ _ _ => false
  | .vbrepApply _ => false
  | .fuseRepairs _ _ => false
  | .retireBus _ _ => false
  | .wscallReply _ => false
  | .dualCompare _ _ => false
  | .unallocatedWord _ => false
  | .idleTimeout _ => false
  | .recordAgeStep _ _ => false
  | .hostAtomicRequest _ _ _ _ _ _ => false
  | .sendLogCheckpointRequest _ _ => false
  | .minsvnRaiseRequest _ => false

/-- A row of the opcode table that is an event: a step of the part's own agents or of its surroundings, and no word (DESIGN CHOICE, log 1). -/
def isEvent (i : Instr) : Bool :=
  match i with
  | .add _ _ _ => false
  | .sub _ _ _ => false
  | .and _ _ _ => false
  | .or _ _ _ => false
  | .xor _ _ _ => false
  | .andn _ _ _ => false
  | .min _ _ _ => false
  | .max _ _ _ => false
  | .minn _ _ _ => false
  | .maxn _ _ _ => false
  | .addw _ _ _ => false
  | .subw _ _ _ => false
  | .shl _ _ _ => false
  | .shr _ _ _ => false
  | .sha _ _ _ => false
  | .rol _ _ _ => false
  | .clz _ _ => false
  | .ctz _ _ => false
  | .popc _ _ => false
  | .mul _ _ _ => false
  | .mulh _ _ _ => false
  | .mulhn _ _ _ => false
  | .div _ _ _ => false
  | .divn _ _ _ => false
  | .rem _ _ _ => false
  | .remn _ _ _ => false
  | .seq _ _ _ => false
  | .sne _ _ _ => false
  | .slt _ _ _ => false
  | .sltn _ _ _ => false
  | .sle _ _ _ => false
  | .slen _ _ _ => false
  | .addi _ _ _ => false
  | .ori _ _ _ => false
  | .xori _ _ _ => false
  | .slti _ _ _ => false
  | .movz _ _ _ => false
  | .movk _ _ _ => false
  | .movn _ _ _ => false
  | .addpc _ _ => false
  | .shadd1 _ _ _ => false
  | .shadd2 _ _ _ => false
  | .shadd3 _ _ _ => false
  | .shadd4 _ _ _ => false
  | .j _ => false
  | .call _ => false
  | .beqz _ _ => false
  | .bnez _ _ => false
  | .bltz _ _ => false
  | .bgez _ _ => false
  | .bgtz _ _ => false
  | .blez _ _ => false
  | .jr _ => false
  | .callr _ _ => false
  | .loops _ _ => false
  | .loopx => false
  | .ld _ _ _ _ => false
  | .ldS32 _ _ _ _ => false
  | .st _ _ _ _ => false
  | .stN32 _ _ _ _ => false
  | .ldS8 _ _ _ _ => false
  | .ldN8 _ _ _ _ => false
  | .ldS16 _ _ _ _ => false
  | .ldN16 _ _ _ _ => false
  | .ldN32 _ _ _ _ => false
  | .ldx _ _ _ _ => false
  | .stN8 _ _ _ _ => false
  | .stN16 _ _ _ _ => false
  | .stx _ _ _ _ => false
  | .ldAcq _ _ _ => false
  | .stRel _ _ _ => false
  | .aadd _ _ _ _ _ _ => false
  | .aand _ _ _ _ _ _ => false
  | .aor _ _ _ _ _ _ => false
  | .axor _ _ _ _ _ _ => false
  | .amin _ _ _ _ _ _ => false
  | .amax _ _ _ _ _ _ => false
  | .aswp _ _ _ _ _ _ => false
  | .acas _ _ _ _ _ _ => false
  | .vaadd _ _ _ _ _ _ => false
  | .vamin _ _ _ _ _ _ => false
  | .vamax _ _ _ _ _ _ => false
  | .redadd _ _ _ _ => false
  | .redmin _ _ _ _ => false
  | .redmax _ _ _ _ => false
  | .fence _ _ _ => false
  | .fenceComplete _ _ => true
  | .bjoin _ _ => false
  | .bleave _ _ => false
  | .barv _ _ _ => false
  | .bara _ _ _ => false
  | .bwait _ _ _ => false
  | .rclaim _ _ => false
  | .rclaimt _ _ => false
  | .rfill _ _ => false
  | .rawait _ _ _ => false
  | .rawaitt _ _ _ => false
  | .rrel _ _ => false
  | .rcfg _ _ => false
  | .rstat _ _ => false
  | .spawn _ _ _ _ => false
  | .jdec _ _ _ => false
  | .exit _ => false
  | .yield _ _ => false
  | .crec _ _ => false
  | .jset _ _ _ _ => false
  | .vadd _ _ _ _ _ => false
  | .vsub _ _ _ _ _ => false
  | .vmul _ _ _ _ _ => false
  | .vmac _ _ _ _ _ => false
  | .vmin _ _ _ _ _ => false
  | .vmax _ _ _ _ _ => false
  | .vabs _ _ _ _ => false
  | .vneg _ _ _ _ => false
  | .vscale _ _ _ _ => false
  | .vexp _ _ _ _ => false
  | .vlog _ _ _ _ => false
  | .vrcp _ _ _ _ => false
  | .vrsqrt _ _ _ _ => false
  | .vtanh _ _ _ _ => false
  | .vsigm _ _ _ _ => false
  | .vcvt _ _ _ _ => false
  | .vcvtz _ _ _ _ => false
  | .vsum _ _ _ _ => false
  | .vrmax _ _ _ _ => false
  | .vdot _ _ _ _ => false
  | .vcmpeq _ _ _ _ _ => false
  | .vcmplt _ _ _ _ _ => false
  | .vcmple _ _ _ _ _ => false
  | .vsel _ _ _ _ _ => false
  | .vand _ _ _ _ _ => false
  | .vor _ _ _ _ _ => false
  | .vxor _ _ _ _ _ => false
  | .vshl _ _ _ _ _ => false
  | .vshr _ _ _ _ _ => false
  | .vcopy _ _ _ _ => false
  | .vfill _ _ _ _ _ => false
  | .vpred _ _ _ _ => false
  | .vfence _ => false
  | .vbusy _ => false
  | .vectorCommandStart _ _ => true
  | .vectorCommandComplete _ _ => true
  | .hzcfg _ _ _ _ => false
  | .hzpsh _ _ _ => false
  | .hzpshR _ _ => false
  | .hzest _ _ => false
  | .hzrd _ _ _ => false
  | .hzclr _ => false
  | .horizonCheckpoint _ _ => true
  | .mxcfg _ _ => false
  | .mxgo _ => false
  | .mxwait => false
  | .mxstat _ => false
  | .mxidx _ _ => false
  | .sqp _ => false
  | .sqld _ _ _ => false
  | .mxdrain _ _ _ => false
  | .mxfrz => false
  | .mxthaw => false
  | .mxprog _ => false
  | .mxclr => false
  | .nestStart _ => true
  | .matrixChunk _ => true
  | .sqldEntryPush _ => true
  | .nestComplete _ => true
  | .tileTransferLock _ _ => true
  | .tileTransferRelease _ _ => true
  | .cpy _ _ _ _ => false
  | .cpyp _ _ _ => false
  | .cpinv _ _ => false
  | .cpquie _ _ => false
  | .cpwait _ => false
  | .cpstat _ _ => false
  | .cpprog _ _ => false
  | .cpnest _ _ _ => false
  | .cpsat _ _ _ => false
  | .cpsel _ _ => false
  | .blockFetch _ _ => true
  | .cpinvEffect _ _ => true
  | .cpnestEffect _ _ => true
  | .ringUnitClaim _ _ => true
  | .innermostCopy _ _ => true
  | .ringUnitFill _ _ => true
  | .copyCommandComplete _ _ => true
  | .narrowWindowBoundary _ _ => true
  | .lfmt _ _ _ => false
  | .lmcst _ _ _ => false
  | .ldot _ _ _ _ => false
  | .lhzc _ => false
  | .lrsync _ => false
  | .lsafe => false
  | .lpoll _ _ => false
  | .lclr => false
  | .lrtgt _ => false
  | .lstat _ _ => false
  | .macroBroadcast _ => true
  | .laneMacroRun _ _ => true
  | .lanePlaneRead _ _ => true
  | .rowResultDelivery _ _ _ => true
  | .multicastLand _ _ => true
  | .lrsyncDrain _ => true
  | .lsafeComplete _ => true
  | .laneWatchdogReset _ => true
  | .laneParityReplay _ _ => true
  | .turn _ _ _ => false
  | .lnkq _ _ _ => false
  | .turnStart _ => true
  | .turnEffect _ => true
  | .deadTimeEnd _ => true
  | .forcedTurn _ => true
  | .getc _ _ => false
  | .setc _ _ => false
  | .brk _ => false
  | .rett => false
  | .csave _ _ => false
  | .crest _ _ => false
  | .ckpt _ => false
  | .wscall _ _ _ => false
  | .idle _ => false
  | .tlbinv _ _ => false
  | .fadd _ _ _ => false
  | .fsub _ _ _ => false
  | .fmul _ _ _ => false
  | .fmac _ _ _ => false
  | .fdiv _ _ _ => false
  | .fsqrt _ _ => false
  | .fcmp _ _ _ _ => false
  | .fcvt _ _ _ => false
  | .bundleIssue _ => true
  | .syncWaitWatchdog _ => true
  | .loadDataReturn _ => true
  | .asyncTrapEntry _ => true
  | .pipelineReplay _ => true
  | .atomicExecute _ => true
  | .atomicResponse _ => true
  | .reductionApplyHome _ => true
  | .mergeEntryForward _ => true
  | .peerAccessArrival _ => true
  | .flitCrcRetry _ => true
  | .groupRetrainDone _ => true
  | .flitSendTimeout _ => true
  | .hostMemoryWrite _ _ _ => true
  | .hostMemoryRead _ _ _ => true
  | .hostControlWrite _ _ _ => true
  | .notify _ _ => true
  | .qslotMap _ _ _ _ => true
  | .qslotUnmap _ _ => true
  | .qslotMappingDone _ _ => true
  | .qslotUnmapDone _ _ => true
  | .recordSelect _ => true
  | .recordStart _ => true
  | .preempt _ => true
  | .contextRestore _ => true
  | .contextClear _ => true
  | .preemptUnitsStopped _ => true
  | .debugHalt _ => true
  | .walkStart _ => true
  | .walkComplete _ _ => true
  | .faultMessage _ => true
  | .xfrespRetry _ => true
  | .xfrespFail _ => true
  | .engineFaultResume _ _ => true
  | .refresh _ _ _ => true
  | .normalBurstGrant _ _ _ => true
  | .levelRise _ _ => true
  | .levelFall _ _ => true
  | .columnMigrate _ _ => true
  | .migrationSwitch _ => true
  | .sendDoorbell _ _ _ => true
  | .frameTransmit _ _ => true
  | .ethernetFrameReceive _ _ _ _ => true
  | .rxFrameCommit _ _ => true
  | .erxcfgWrite _ _ _ _ => true
  | .erxtailRelease _ _ _ => true
  | .patrolScrub _ _ _ => true
  | .checkpointTimer _ => true
  | .checkpointCommit _ => true
  | .checkpointReport _ _ => true
  | .powerOn => true
  | .coldReset _ => true
  | .warmReset _ => true
  | .bootRailsSettled _ => true
  | .bootImageVerified _ => true
  | .bootMemoryReady _ => true
  | .bootLinksTrained _ => true
  | .attestationRequest _ _ => true
  | .attestationReport _ => true
  | .powerEstimate => true
  | .testEngineOffer _ _ => true
  | .vbtdrvWrite _ _ => true
  | .testBeatResult _ => true
  | .vbrepWrite _ _ _ => true
  | .vbrepApply _ => true
  | .fuseRepairs _ _ => true
  | .retireBus _ _ => true
  | .wscallReply _ => true
  | .dualCompare _ _ => true
  | .unallocatedWord _ => true
  | .idleTimeout _ => true
  | .recordAgeStep _ _ => true
  | .hostAtomicRequest _ _ _ _ _ _ => true
  | .sendLogCheckpointRequest _ _ => true
  | .minsvnRaiseRequest _ => true

end Sys2Proof.Machine
end

