-- ==== Sys2Proof/Machine/Issue.lean ====
section
/-!
DEFINITION. Issue: fetching a word, issuing it, bundles and words that are no instruction (R26 to R35, R338).
-/

namespace Sys2Proof.Machine

/-! ### Fetch (R26, R29, R323) -/

/-- The word that instruction memory holds at a PC. -/
def Core.wordAt (x : Core) (pc : PC) : W32 := bytesWord (x.imem.readN (pc.toNat / 4 * 4) 4)

/-- The half of the poison word at a PC (R323). (DEDUCED, log 12) -/
def poisonHalf (pc : PC) : W32 := if pc.getLsbD 2 then (Config.poisonWord >>> 32).setWidth 32 else Config.poisonWord.setWidth 32

/-- The word at a cluster's PC: poison for an uncorrectable word, and the old word or the new one, as the part chooses, where a copy
has written it and no fence has settled it (R29; DESIGN CHOICE, log 8). (DEDUCED, log 12) -/
def State.fetch (s : State) (c : CluIx) : W32 × State :=
  let x := s.cluster c
  let k := s.core (coreOf c)
  let a := x.pc.toNat / 4 * 4
  if k.imemBad.contains (a / 8) then
    (poisonHalf x.pc, (s.countUnc (dieOfClu c) 1).log (dieOfClu c) 4 1 (word (a / 8 * 8)) x.lid)
  else match x.stale.find? fun y => y.off == a with
    | some y => (if Config.freeBool s.freeCtr then y.old else k.wordAt x.pc, { s with freeCtr := s.freeCtr + 1 })
    | none => (k.wordAt x.pc, s)

/-- The instruction of a fetched word, or nothing where the word raises UDI: it is none, or it has S = 1 on a stack core
(R27, R35). -/
def decodeFor (c : CluIx) (w : W32) : Option IWord :=
  match decode w with
  | some iw => if iw.sync && !isHub (dieOfClu c) then none else some iw
  | none => none

/-- A fetched word that is no instruction: UDI, and no other effect (R27). -/
def State.unallocated (s : State) (c : CluIx) : State := { s with focus := c }.trapFree .udi

/-- A cluster stands at a word that can issue: it holds a record, is not held, awaits no data, and has not ended as a DUAL copy. -/
def Cluster.atWord (c : Cluster) : Bool :=
  c.record.isSome && !c.held && !c.stopped && c.remote.isNone && match c.dual with | some r => !r.ended | none => true

/-- UNALLOCATED_WORD (R27, R35). -/
def execUnallocatedWord (cl : CluIx) (s : State) : Result :=
  let f := s.fetch cl
  if (s.cluster cl).atWord && (decodeFor cl f.1).isNone then .next (f.2.unallocated cl) else s.stutter

/-! ### One word (R30, R33, R338) -/

/-- A word that has begun goes on with its wait, and needs no bundle to do so (R100, R317, R328, R341, R354). -/
def Cluster.continues (c : Cluster) (i : Instr) : Bool :=
  match i with
  | .barv _ _ _ => c.barvWait.isSome
  | .wscall _ _ _ => c.waiting && c.wstag.isSome
  | .idle _ => c.idle.isSome
  | .setc _ _ => c.beatWait
  | .ckpt _ => c.ckWait.isSome
  | _ => false

/-- The word issues alone: S is 0, or SOLO stands in user mode, or it only goes on with a wait (R30, R33). -/
def Cluster.issuesAlone (c : Cluster) (iw : IWord) : Bool :=
  !iw.sync || (c.solo && c.mode == .user) || c.continues iw.instr

/-- A cluster whose next word has S = 1 enters sync wait (R30). -/
def State.enterSync (s : State) (c : CluIx) : State :=
  { s.modCluster c fun x => if x.syncWait then x else { x with syncWait := true, syncAge := 0 } with note := .waited }

/-- A DUAL copy that runs, in user mode. -/
def Cluster.dualRuns (c : Cluster) : Bool := c.dual.isSome && c.mode == .user

/-- A word in a DUAL copy: one that DUAL bars raises LCH 0x530, unless a cause of a lower number comes first (R52, R338). -/
def State.dualBar (s : State) (r : Result) : Result :=
  match r with
  | .next s' => .next (if s'.note == .trapped && bits s'.me.tcause 0 5 < 7 then s' else s.trap .lch 0x530)
  | r => r

/-- The meaning of a word for the cluster in focus, DUAL copies included. -/
def wordMeaning (i : Instr) (s : State) : Result :=
  if s.me.dualRuns && barsDual i then s.dualBar (wordExec i s) else wordExec i s

/-! ### Bundles (R30 to R33) -/

/-- Every cluster of a core is in sync wait at a word, and no cause is to be taken first (R30, R34). -/
def State.bundleFormed (s : State) (k : CoreIx) : Bool :=
  isHub (dieOf k) && (clustersOf k).all fun c =>
    (s.cluster c).syncWait && (s.cluster c).atWord && (s.cluster c).nextAsync.isNone

/-- The words of a formed bundle, fetched in cluster order; nothing where a word has changed under the wait. -/
def State.bundleWords (s : State) : List CluIx → Option (List (CluIx × Instr)) × State
  | [] => (some [], s)
  | c :: cs =>
    let f := s.fetch c
    match decodeFor c f.1 with
    | none => (none, s)
    | some iw =>
      if (s.cluster c).issuesAlone iw then (none, s)
      else match f.2.bundleWords cs with
        | (some ws, s') => (some ((c, iw.instr) :: ws), s')
        | (none, _) => (none, s)

/-- A word of a bundle tried in a state. -/
def State.tryWord (s : State) (w : CluIx × Instr) : State :=
  match wordMeaning w.2 { s with focus := w.1, note := .done } with
  | .next s' => s'
  | _ => { s with note := .waited }

/-- Words that only read shared objects, or wait for them, and act on their own cluster alone (R31). -/
def readsOnly (i : Instr) : Bool :=
  match i with
  | .getc _ _ | .rstat _ _ | .rawait _ _ _ | .rawaitt _ _ _ | .vbusy _ | .mxstat _ | .mxprog _ | .mxwait => true
  | .cpquie _ _ | .cpstat _ _ | .cpprog _ _ | .cpsel _ _ | .bwait _ _ _ => true
  | _ => false

/-- Words that read a shared object into a register and change it, whose registers take what stood before any word wrote (R31). -/
def readsShared (i : Instr) : Bool :=
  match i with
  | .hzest _ _ | .cpsat _ _ _ | .lpoll _ _ | .lstat _ _ | .lnkq _ _ _ => true
  | _ => false

/-- The general registers of a cluster replaced by those of another state of it. -/
def Cluster.withRegs (c was : Cluster) : Cluster := { c with regs := was.regs, bank := was.bank }

/-- The matrix engine as a word of a bundle finds it: what the word reads, or waits for, is that of the engine before the bundle (R31). -/
def Matrix.viewed (m was : Matrix) (i : Instr) : Matrix :=
  match i with
  | .mxcfg _ _ | .mxidx _ _ => { m with armed := was.armed }
  | .mxgo _ => { m with act := was.act, shd := was.shd, iact := was.iact, ishd := was.ishd, idxq := was.idxq }
  | .sqp _ => { m with sqlds := was.sqlds }
  | .mxdrain _ _ _ => { m with run := was.run, armed := was.armed, frozen := was.frozen, acc := was.acc, accBad := was.accBad }
  | .mxfrz => { m with run := was.run, armed := was.armed, frozen := was.frozen, drained := was.drained }
  | .mxclr => { m with run := was.run, armed := was.armed, frozen := was.frozen, sqlds := was.sqlds }
  | _ => m

/-- The matrix engine t that a word left of the view of engine m: what the word did not write is as the words before it left it; the
planes that MXGO swaps are written whole (R31). -/
def Matrix.merged (t m was : Matrix) (i : Instr) : Matrix :=
  match i with
  | .mxcfg _ _ | .mxidx _ _ => { t with armed := m.armed }
  | .mxgo _ =>
    let t := { t with idxq := if t.idxq.isSome then t.idxq else m.idxq }
    if t.armed.isSome then { t with act := m.act, shd := m.shd, iact := m.iact, ishd := m.ishd } else t
  | .sqp _ | .mxclr => { t with sqlds := m.sqlds }
  | .mxdrain _ _ _ =>
    let u := { t with run := m.run, armed := m.armed, frozen := m.frozen }
    if m.acc == was.acc && m.accBad == was.accBad then u else { u with acc := m.acc, accBad := m.accBad }
  | .mxfrz => { t with run := m.run, armed := m.armed, drained := m.drained, frozen := m.frozen || (t.frozen && !was.frozen) }
  | _ => t

/-- Words that wait for the posted accesses of other clusters. -/
def waitsPosted (i : Instr) : Bool :=
  match i with
  | .st _ _ _ _ | .stN32 _ _ _ _ | .stN8 _ _ _ _ | .stN16 _ _ _ _ | .stx _ _ _ _ | .stRel _ _ _ => true
  | .aadd _ _ _ _ _ _ | .aand _ _ _ _ _ _ | .aor _ _ _ _ _ _ | .axor _ _ _ _ _ _ | .amin _ _ _ _ _ _ | .amax _ _ _ _ _ _ => true
  | .aswp _ _ _ _ _ _ | .acas _ _ _ _ _ _ => true
  | _ => false

/-- Words that wait for the operations on a Horizon slot. -/
def waitsHorizon (i : Instr) : Bool :=
  match i with
  | .hzcfg _ _ _ _ | .hzest _ _ | .hzclr _ => true
  | _ => false

/-- Ring instructions: they act on the rings as the words before them left those (R93). -/
def actsOnRings (i : Instr) : Bool :=
  match i with
  | .rcfg _ _ | .rclaim _ _ | .rclaimt _ _ | .rfill _ _ | .rrel _ _ => true
  | _ => false

/-- A core whose configuration registers are those of another state of it. -/
def Core.withConfig (x was : Core) : Core :=
  { x with
    syncwd := was.syncwd, hlim := was.hlim, ptroot := was.ptroot, htcfg := was.htcfg, pitcfg := was.pitcfg, xfqb := was.xfqb
    owntag := was.owntag }

/-- A die whose configuration registers that words read are those of another state of it. -/
def Die.withConfig (x was : Die) : Die :=
  { x with ete := was.ete, ckcfg := was.ckcfg, qtbase := was.qtbase, elbase := was.elbase, wmapb := was.wmapb, blkw := was.blkw }

/-- Rings as they are in one state, with the sequences claimed and the waits in another. -/
def Core.withRings (x was : Core) : Core :=
  { x with rings := (List.range 64).foldl (fun v k =>
      vset v k { was.ring k with clm := (x.ring k).clm, waiters := (x.ring k).waiters }) x.rings }

/-- The configuration registers and rings of a core and its die as they stand in another state, for a word that is neither SETC, which
alone writes the registers, nor a ring instruction. -/
def State.operandsOf (s s0 : State) (k : CoreIx) (i : Instr) : State :=
  match i with
  | .setc _ _ => s
  | i =>
    let s := (s.modCore k fun x => x.withConfig (s0.core k)).modDie (dieOf k) fun x => x.withConfig (s0.die (dieOf k))
    if actsOnRings i then s else s.modCore k fun x => x.withRings (s0.core k)

/-- The state in which a word of a bundle is tried: the state that the words before it left, with what the word reads of configuration
registers and shared objects, and waits for, as it stood before the bundle (R31). -/
def State.viewed (s s0 : State) (k : CoreIx) (i : Instr) : State :=
  let s := (s.operandsOf s0 k i).modMx k fun m => m.viewed (s0.core k).mx i
  match i with
  | .tlbinv _ _ => { s with flits := s0.flits, merges := s0.merges, clusters := s0.clusters }
  | i =>
    if waitsPosted i then { s with flits := s0.flits }
    else if waitsHorizon i then s.modCore k fun x => { x with vq := (s0.core k).vq }
    else s

/-- What a word of a bundle left of its view t, with what it only read as the words before it left it (R31). -/
def State.merged (t s s0 : State) (k : CoreIx) (w : CluIx × Instr) : State :=
  let t := (t.operandsOf s k w.2).modMx k fun m => m.merged (s.core k).mx (s0.core k).mx w.2
  match w.2 with
  | .tlbinv _ _ => { t with flits := s.flits, merges := s.merges, clusters := s.clusters }.setCluster w.1 (t.cluster w.1)
  | i =>
    if waitsPosted i then { t with flits := s.flits ++ t.flits.drop s0.flits.length }
    else if waitsHorizon i then t.modCore k fun x => { x with vq := (s.core k).vq }
    else t

/-- A word of a bundle after those before it, and what it did alone: one that only reads acts as it did alone. -/
def State.wordAfter (s s0 alone : State) (w : CluIx × Instr) : State :=
  let k := coreOf w.1
  if readsOnly w.2 then { s.setCluster w.1 (alone.cluster w.1) with note := alone.note }
  else
    let here := ((s.viewed s0 k w.2).tryWord w).merged s s0 k w
    if readsShared w.2 then here.modCluster w.1 (·.withRegs (alone.cluster w.1)) else here

/-- The words of a bundle in cluster order: memory, ring and barrier acts are so ordered, each on what the words before it left, and what
a word reads of registers, planes and units, and waits for, is that from before the bundle (R31, R93, R96; DEDUCED, log 25).  Answers the
clusters that trapped, whether a word waits, and the state. -/
def State.runWords (s0 : State) : List (CluIx × Instr) → List CluIx × Bool × State → List CluIx × Bool × State
  | [], acc => acc
  | w :: ws, (traps, waits, s) =>
    let alone := s0.tryWord w
    let here := s.wordAfter s0 alone w
    let trap := alone.note == .trapped || here.note == .trapped
    State.runWords s0 ws (if trap then traps ++ [w.1] else traps, waits || alone.note == .waited || here.note == .waited, here)

/-- A cluster has left the bundle: a late cause of its word sets SOLO (R33). -/
def Cluster.bundled (c : Cluster) : Cluster :=
  { c with syncWait := false, syncAge := 0, remote := c.remote.map fun (r : Remote) => { r with bundled := true } }

/-- The traps of a bundle: each cluster whose word raised a cause takes it, and the others stay in sync wait (R33).  A word whose cause
the traps before it have taken away traps as it did alone, or on what the words before it left. -/
def State.bundleTraps (s : State) (ws : List (CluIx × Instr)) (traps : List CluIx) (last : State) : State :=
  ws.foldl (fun acc w =>
    if traps.contains w.1 then
      let t := acc.tryWord w
      let alone := s.tryWord w
      if t.note == .trapped then t
      else acc.setCluster w.1 ((if alone.note == .trapped then alone else last).cluster w.1)
    else acc) s

/-- BUNDLE_ISSUE (R30 to R33). -/
def execBundleIssue (core : CoreIx) (s : State) : Result :=
  if !s.bundleFormed core then s.stutter
  else
    let was := s.focus
    match s.bundleWords (clustersOf core) with
    | (none, _) => s.stutter
    | (some ws, s1) =>
      let s1 := { s1 with bundling := true }
      let r := State.runWords s1 ws ([], false, s1)
      if !r.1.isEmpty then .next { s1.bundleTraps ws r.1 r.2.2 with focus := was, bundling := false, note := .trapped }
      else if r.2.1 then s.stutter
      else .next { (clustersOf core).foldl (fun (acc : State) c => acc.modCluster c Cluster.bundled) r.2.2 with
        focus := was, bundling := false, note := .done }

/-! ### Issue -/

/-- The word at a cluster's PC issues, or what stands before it: a cause to be taken between words (R52), the wait for a bundle, or a
cluster that cannot issue.  `run` is the meaning of a word. -/
def State.issueBy (run : Instr → State → Result) (s : State) (c : CluIx) : Result :=
  let x := s.cluster c
  if !x.atWord then s.stutter
  else match x.nextAsync with
    | some p => .next (s.takeAsync c p)
    | none =>
      let f := s.fetch c
      match decodeFor c f.1 with
      | none => .next (f.2.unallocated c)
      | some iw =>
        if x.issuesAlone iw then
          let s' := { f.2 with focus := c, note := .done }
          if x.dualRuns && barsDual iw.instr then s'.dualBar (run iw.instr s') else run iw.instr s'
        else .next (s.enterSync c)

end Sys2Proof.Machine
end

