-- ==== Sys2Proof/Machine/Dispatch.lean ====
section
/-!
DEFINITION. Dispatch: the meaning of each instruction and event.
-/

namespace Sys2Proof.Machine

/-- One step of an instruction word issued by the cluster in focus, or of an event, as the named rule of the manual gives it. -/
def exec (i : Instr) (s : State) : Host.Outcome State Fault Refusal :=
  match i with
  | .add d a b => Sys2Proof.Machine.execAdd d a b s
  | .sub d a b => Sys2Proof.Machine.execSub d a b s
  | .and d a b => Sys2Proof.Machine.execAnd d a b s
  | .or d a b => Sys2Proof.Machine.execOr d a b s
  | .xor d a b => Sys2Proof.Machine.execXor d a b s
  | .andn d a b => Sys2Proof.Machine.execAndn d a b s
  | .min d a b => Sys2Proof.Machine.execMin d a b s
  | .max d a b => Sys2Proof.Machine.execMax d a b s
  | .minn d a b => Sys2Proof.Machine.execMinn d a b s
  | .maxn d a b => Sys2Proof.Machine.execMaxn d a b s
  | .addw d a b => Sys2Proof.Machine.execAddw d a b s
  | .subw d a b => Sys2Proof.Machine.execSubw d a b s
  | .shl d a b => Sys2Proof.Machine.execShl d a b s
  | .shr d a b => Sys2Proof.Machine.execShr d a b s
  | .sha d a b => Sys2Proof.Machine.execSha d a b s
  | .rol d a b => Sys2Proof.Machine.execRol d a b s
  | .clz d a => Sys2Proof.Machine.execClz d a s
  | .ctz d a => Sys2Proof.Machine.execCtz d a s
  | .popc d a => Sys2Proof.Machine.execPopc d a s
  | .mul d a b => Sys2Proof.Machine.execMul d a b s
  | .mulh d a b => Sys2Proof.Machine.execMulh d a b s
  | .mulhn d a b => Sys2Proof.Machine.execMulhn d a b s
  | .div d a b => Sys2Proof.Machine.execDiv d a b s
  | .divn d a b => Sys2Proof.Machine.execDivn d a b s
  | .rem d a b => Sys2Proof.Machine.execRem d a b s
  | .remn d a b => Sys2Proof.Machine.execRemn d a b s
  | .seq d a b => Sys2Proof.Machine.execSeq d a b s
  | .sne d a b => Sys2Proof.Machine.execSne d a b s
  | .slt d a b => Sys2Proof.Machine.execSlt d a b s
  | .sltn d a b => Sys2Proof.Machine.execSltn d a b s
  | .sle d a b => Sys2Proof.Machine.execSle d a b s
  | .slen d a b => Sys2Proof.Machine.execSlen d a b s
  | .addi d a imm => Sys2Proof.Machine.execAddi d a imm s
  | .ori d a imm => Sys2Proof.Machine.execOri d a imm s
  | .xori d a imm => Sys2Proof.Machine.execXori d a imm s
  | .slti d a imm => Sys2Proof.Machine.execSlti d a imm s
  | .movz d imm q => Sys2Proof.Machine.execMovz d imm q s
  | .movk d imm q => Sys2Proof.Machine.execMovk d imm q s
  | .movn d imm q => Sys2Proof.Machine.execMovn d imm q s
  | .addpc d imm => Sys2Proof.Machine.execAddpc d imm s
  | .shadd1 d a b => Sys2Proof.Machine.execShadd1 d a b s
  | .shadd2 d a b => Sys2Proof.Machine.execShadd2 d a b s
  | .shadd3 d a b => Sys2Proof.Machine.execShadd3 d a b s
  | .shadd4 d a b => Sys2Proof.Machine.execShadd4 d a b s
  | .j off => Sys2Proof.Machine.execJ off s
  | .call off => Sys2Proof.Machine.execCall off s
  | .beqz d off => Sys2Proof.Machine.execBeqz d off s
  | .bnez d off => Sys2Proof.Machine.execBnez d off s
  | .bltz d off => Sys2Proof.Machine.execBltz d off s
  | .bgez d off => Sys2Proof.Machine.execBgez d off s
  | .bgtz d off => Sys2Proof.Machine.execBgtz d off s
  | .blez d off => Sys2Proof.Machine.execBlez d off s
  | .jr a => Sys2Proof.Machine.execJr a s
  | .callr d a => Sys2Proof.Machine.execCallr d a s
  | .loops a b => Sys2Proof.Machine.execLoops a b s
  | .loopx => Sys2Proof.Machine.execLoopx s
  | .ld d a imm o => Sys2Proof.Machine.execLd d a imm o s
  | .ldS32 d a imm o => Sys2Proof.Machine.execLdS32 d a imm o s
  | .st d a imm o => Sys2Proof.Machine.execSt d a imm o s
  | .stN32 d a imm o => Sys2Proof.Machine.execStN32 d a imm o s
  | .ldS8 d a b o => Sys2Proof.Machine.execLdS8 d a b o s
  | .ldN8 d a b o => Sys2Proof.Machine.execLdN8 d a b o s
  | .ldS16 d a b o => Sys2Proof.Machine.execLdS16 d a b o s
  | .ldN16 d a b o => Sys2Proof.Machine.execLdN16 d a b o s
  | .ldN32 d a b o => Sys2Proof.Machine.execLdN32 d a b o s
  | .ldx d a b o => Sys2Proof.Machine.execLdx d a b o s
  | .stN8 d a b o => Sys2Proof.Machine.execStN8 d a b o s
  | .stN16 d a b o => Sys2Proof.Machine.execStN16 d a b o s
  | .stx d a b o => Sys2Proof.Machine.execStx d a b o s
  | .ldAcq d a o => Sys2Proof.Machine.execLdAcq d a o s
  | .stRel d a o => Sys2Proof.Machine.execStRel d a o s
  | .aadd d a b sem w o => Sys2Proof.Machine.execAadd d a b sem w o s
  | .aand d a b sem w o => Sys2Proof.Machine.execAand d a b sem w o s
  | .aor d a b sem w o => Sys2Proof.Machine.execAor d a b sem w o s
  | .axor d a b sem w o => Sys2Proof.Machine.execAxor d a b sem w o s
  | .amin d a b sem w o => Sys2Proof.Machine.execAmin d a b sem w o s
  | .amax d a b sem w o => Sys2Proof.Machine.execAmax d a b sem w o s
  | .aswp d a b sem w o => Sys2Proof.Machine.execAswp d a b sem w o s
  | .acas d a b sem w o => Sys2Proof.Machine.execAcas d a b sem w o s
  | .vaadd d a b sem t o => Sys2Proof.Machine.execVaadd d a b sem t o s
  | .vamin d a b sem t o => Sys2Proof.Machine.execVamin d a b sem t o s
  | .vamax d a b sem t o => Sys2Proof.Machine.execVamax d a b sem t o s
  | .redadd a b t o => Sys2Proof.Machine.execRedadd a b t o s
  | .redmin a b t o => Sys2Proof.Machine.execRedmin a b t o s
  | .redmax a b t o => Sys2Proof.Machine.execRedmax a b t o s
  | .fence paths scope mask => Sys2Proof.Machine.execFence paths scope mask s
  | .fenceComplete cl n => Sys2Proof.Machine.execFenceComplete cl n s
  | .bjoin k a => Sys2Proof.Machine.execBjoin k a s
  | .bleave k a => Sys2Proof.Machine.execBleave k a s
  | .barv d k a => Sys2Proof.Machine.execBarv d k a s
  | .bara d k a => Sys2Proof.Machine.execBara d k a s
  | .bwait k a b => Sys2Proof.Machine.execBwait k a b s
  | .rclaim d k => Sys2Proof.Machine.execRclaim d k s
  | .rclaimt d k => Sys2Proof.Machine.execRclaimt d k s
  | .rfill k a => Sys2Proof.Machine.execRfill k a s
  | .rawait d k a => Sys2Proof.Machine.execRawait d k a s
  | .rawaitt d k a => Sys2Proof.Machine.execRawaitt d k a s
  | .rrel k a => Sys2Proof.Machine.execRrel k a s
  | .rcfg k a => Sys2Proof.Machine.execRcfg k a s
  | .rstat d k => Sys2Proof.Machine.execRstat d k s
  | .spawn d a b o => Sys2Proof.Machine.execSpawn d a b o s
  | .jdec d a o => Sys2Proof.Machine.execJdec d a o s
  | .exit o => Sys2Proof.Machine.execExit o s
  | .yield a o => Sys2Proof.Machine.execYield a o s
  | .crec d k => Sys2Proof.Machine.execCrec d k s
  | .jset d a b o => Sys2Proof.Machine.execJset d a b o s
  | .vadd i' o a b t => Sys2Proof.Machine.execVadd i' o a b t s
  | .vsub i' o a b t => Sys2Proof.Machine.execVsub i' o a b t s
  | .vmul i' o a b t => Sys2Proof.Machine.execVmul i' o a b t s
  | .vmac i' o a b t => Sys2Proof.Machine.execVmac i' o a b t s
  | .vmin i' o a b t => Sys2Proof.Machine.execVmin i' o a b t s
  | .vmax i' o a b t => Sys2Proof.Machine.execVmax i' o a b t s
  | .vabs o a b t => Sys2Proof.Machine.execVabs o a b t s
  | .vneg o a b t => Sys2Proof.Machine.execVneg o a b t s
  | .vscale o a b t => Sys2Proof.Machine.execVscale o a b t s
  | .vexp o a b t => Sys2Proof.Machine.execVexp o a b t s
  | .vlog o a b t => Sys2Proof.Machine.execVlog o a b t s
  | .vrcp o a b t => Sys2Proof.Machine.execVrcp o a b t s
  | .vrsqrt o a b t => Sys2Proof.Machine.execVrsqrt o a b t s
  | .vtanh o a b t => Sys2Proof.Machine.execVtanh o a b t s
  | .vsigm o a b t => Sys2Proof.Machine.execVsigm o a b t s
  | .vcvt o a b t => Sys2Proof.Machine.execVcvt o a b t s
  | .vcvtz o a b t => Sys2Proof.Machine.execVcvtz o a b t s
  | .vsum o a b t => Sys2Proof.Machine.execVsum o a b t s
  | .vrmax o a b t => Sys2Proof.Machine.execVrmax o a b t s
  | .vdot o a b t => Sys2Proof.Machine.execVdot o a b t s
  | .vcmpeq i' o a b t => Sys2Proof.Machine.execVcmpeq i' o a b t s
  | .vcmplt i' o a b t => Sys2Proof.Machine.execVcmplt i' o a b t s
  | .vcmple i' o a b t => Sys2Proof.Machine.execVcmple i' o a b t s
  | .vsel i' o a b t => Sys2Proof.Machine.execVsel i' o a b t s
  | .vand i' o a b t => Sys2Proof.Machine.execVand i' o a b t s
  | .vor i' o a b t => Sys2Proof.Machine.execVor i' o a b t s
  | .vxor i' o a b t => Sys2Proof.Machine.execVxor i' o a b t s
  | .vshl i' o a b t => Sys2Proof.Machine.execVshl i' o a b t s
  | .vshr i' o a b t => Sys2Proof.Machine.execVshr i' o a b t s
  | .vcopy o a b t => Sys2Proof.Machine.execVcopy o a b t s
  | .vfill i' o a b t => Sys2Proof.Machine.execVfill i' o a b t s
  | .vpred o a b t => Sys2Proof.Machine.execVpred o a b t s
  | .vfence a => Sys2Proof.Machine.execVfence a s
  | .vbusy d => Sys2Proof.Machine.execVbusy d s
  | .vectorCommandStart core n => Sys2Proof.Machine.execVectorCommandStart core n s
  | .vectorCommandComplete core n => Sys2Proof.Machine.execVectorCommandComplete core n s
  | .hzcfg k d a b => Sys2Proof.Machine.execHzcfg k d a b s
  | .hzpsh k a o => Sys2Proof.Machine.execHzpsh k a o s
  | .hzpshR k b => Sys2Proof.Machine.execHzpshR k b s
  | .hzest d k => Sys2Proof.Machine.execHzest d k s
  | .hzrd k a o => Sys2Proof.Machine.execHzrd k a o s
  | .hzclr k => Sys2Proof.Machine.execHzclr k s
  | .horizonCheckpoint core n => Sys2Proof.Machine.execHorizonCheckpoint core n s
  | .mxcfg a b => Sys2Proof.Machine.execMxcfg a b s
  | .mxgo o => Sys2Proof.Machine.execMxgo o s
  | .mxwait => Sys2Proof.Machine.execMxwait s
  | .mxstat d => Sys2Proof.Machine.execMxstat d s
  | .mxidx a o => Sys2Proof.Machine.execMxidx a o s
  | .sqp a => Sys2Proof.Machine.execSqp a s
  | .sqld a b o => Sys2Proof.Machine.execSqld a b o s
  | .mxdrain a b o => Sys2Proof.Machine.execMxdrain a b o s
  | .mxfrz => Sys2Proof.Machine.execMxfrz s
  | .mxthaw => Sys2Proof.Machine.execMxthaw s
  | .mxprog d => Sys2Proof.Machine.execMxprog d s
  | .mxclr => Sys2Proof.Machine.execMxclr s
  | .nestStart core => Sys2Proof.Machine.execNestStart core s
  | .matrixChunk core => Sys2Proof.Machine.execMatrixChunk core s
  | .sqldEntryPush core => Sys2Proof.Machine.execSqldEntryPush core s
  | .nestComplete core => Sys2Proof.Machine.execNestComplete core s
  | .tileTransferLock core n => Sys2Proof.Machine.execTileTransferLock core n s
  | .tileTransferRelease core n => Sys2Proof.Machine.execTileTransferRelease core n s
  | .cpy d a b o => Sys2Proof.Machine.execCpy d a b o s
  | .cpyp a b o => Sys2Proof.Machine.execCpyp a b o s
  | .cpinv a b => Sys2Proof.Machine.execCpinv a b s
  | .cpquie d a => Sys2Proof.Machine.execCpquie d a s
  | .cpwait a => Sys2Proof.Machine.execCpwait a s
  | .cpstat d a => Sys2Proof.Machine.execCpstat d a s
  | .cpprog d a => Sys2Proof.Machine.execCpprog d a s
  | .cpnest a b o => Sys2Proof.Machine.execCpnest a b o s
  | .cpsat d a b => Sys2Proof.Machine.execCpsat d a b s
  | .cpsel d a => Sys2Proof.Machine.execCpsel d a s
  | .blockFetch core e => Sys2Proof.Machine.execBlockFetch core e s
  | .cpinvEffect core e => Sys2Proof.Machine.execCpinvEffect core e s
  | .cpnestEffect core e => Sys2Proof.Machine.execCpnestEffect core e s
  | .ringUnitClaim core e => Sys2Proof.Machine.execRingUnitClaim core e s
  | .innermostCopy core e => Sys2Proof.Machine.execInnermostCopy core e s
  | .ringUnitFill core e => Sys2Proof.Machine.execRingUnitFill core e s
  | .copyCommandComplete core e => Sys2Proof.Machine.execCopyCommandComplete core e s
  | .narrowWindowBoundary core e => Sys2Proof.Machine.execNarrowWindowBoundary core e s
  | .lfmt d a b => Sys2Proof.Machine.execLfmt d a b s
  | .lmcst a b o => Sys2Proof.Machine.execLmcst a b o s
  | .ldot d a b o => Sys2Proof.Machine.execLdot d a b o s
  | .lhzc a => Sys2Proof.Machine.execLhzc a s
  | .lrsync a => Sys2Proof.Machine.execLrsync a s
  | .lsafe => Sys2Proof.Machine.execLsafe s
  | .lpoll d a => Sys2Proof.Machine.execLpoll d a s
  | .lclr => Sys2Proof.Machine.execLclr s
  | .lrtgt a => Sys2Proof.Machine.execLrtgt a s
  | .lstat d a => Sys2Proof.Machine.execLstat d a s
  | .macroBroadcast die => Sys2Proof.Machine.execMacroBroadcast die s
  | .laneMacroRun die lane => Sys2Proof.Machine.execLaneMacroRun die lane s
  | .lanePlaneRead die lane => Sys2Proof.Machine.execLanePlaneRead die lane s
  | .rowResultDelivery die m j => Sys2Proof.Machine.execRowResultDelivery die m j s
  | .multicastLand die m => Sys2Proof.Machine.execMulticastLand die m s
  | .lrsyncDrain die => Sys2Proof.Machine.execLrsyncDrain die s
  | .lsafeComplete die => Sys2Proof.Machine.execLsafeComplete die s
  | .laneWatchdogReset die => Sys2Proof.Machine.execLaneWatchdogReset die s
  | .laneParityReplay die lane => Sys2Proof.Machine.execLaneParityReplay die lane s
  | .turn d a b => Sys2Proof.Machine.execTurn d a b s
  | .lnkq d a b => Sys2Proof.Machine.execLnkq d a b s
  | .turnStart link => Sys2Proof.Machine.execTurnStart link s
  | .turnEffect link => Sys2Proof.Machine.execTurnEffect link s
  | .deadTimeEnd link => Sys2Proof.Machine.execDeadTimeEnd link s
  | .forcedTurn link => Sys2Proof.Machine.execForcedTurn link s
  | .getc d c => Sys2Proof.Machine.execGetc d c s
  | .setc c a => Sys2Proof.Machine.execSetc c a s
  | .brk k => Sys2Proof.Machine.execBrk k s
  | .rett => Sys2Proof.Machine.execRett s
  | .csave d a => Sys2Proof.Machine.execCsave d a s
  | .crest d a => Sys2Proof.Machine.execCrest d a s
  | .ckpt d => Sys2Proof.Machine.execCkpt d s
  | .wscall d a b => Sys2Proof.Machine.execWscall d a b s
  | .idle a => Sys2Proof.Machine.execIdle a s
  | .tlbinv a b => Sys2Proof.Machine.execTlbinv a b s
  | .fadd d a b => Sys2Proof.Machine.execFadd d a b s
  | .fsub d a b => Sys2Proof.Machine.execFsub d a b s
  | .fmul d a b => Sys2Proof.Machine.execFmul d a b s
  | .fmac d a b => Sys2Proof.Machine.execFmac d a b s
  | .fdiv d a b => Sys2Proof.Machine.execFdiv d a b s
  | .fsqrt d a => Sys2Proof.Machine.execFsqrt d a s
  | .fcmp cc d a b => Sys2Proof.Machine.execFcmp cc d a b s
  | .fcvt cv d a => Sys2Proof.Machine.execFcvt cv d a s
  | .bundleIssue core => Sys2Proof.Machine.execBundleIssue core s
  | .syncWaitWatchdog cl => Sys2Proof.Machine.execSyncWaitWatchdog cl s
  | .loadDataReturn cl => Sys2Proof.Machine.execLoadDataReturn cl s
  | .asyncTrapEntry cl => Sys2Proof.Machine.execAsyncTrapEntry cl s
  | .pipelineReplay cl => Sys2Proof.Machine.execPipelineReplay cl s
  | .atomicExecute cl => Sys2Proof.Machine.execAtomicExecute cl s
  | .atomicResponse cl => Sys2Proof.Machine.execAtomicResponse cl s
  | .reductionApplyHome n => Sys2Proof.Machine.execReductionApplyHome n s
  | .mergeEntryForward n => Sys2Proof.Machine.execMergeEntryForward n s
  | .peerAccessArrival n => Sys2Proof.Machine.execPeerAccessArrival n s
  | .flitCrcRetry link => Sys2Proof.Machine.execFlitCrcRetry link s
  | .groupRetrainDone link => Sys2Proof.Machine.execGroupRetrainDone link s
  | .flitSendTimeout n => Sys2Proof.Machine.execFlitSendTimeout n s
  | .hostMemoryWrite die off bytes => Sys2Proof.Machine.execHostMemoryWrite die off bytes s
  | .hostMemoryRead die off len => Sys2Proof.Machine.execHostMemoryRead die off len s
  | .hostControlWrite die off v => Sys2Proof.Machine.execHostControlWrite die off v s
  | .notify die v => Sys2Proof.Machine.execNotify die v s
  | .qslotMap die k v secure => Sys2Proof.Machine.execQslotMap die k v secure s
  | .qslotUnmap die k => Sys2Proof.Machine.execQslotUnmap die k s
  | .qslotMappingDone die k => Sys2Proof.Machine.execQslotMappingDone die k s
  | .qslotUnmapDone die k => Sys2Proof.Machine.execQslotUnmapDone die k s
  | .recordSelect cl => Sys2Proof.Machine.execRecordSelect cl s
  | .recordStart cl => Sys2Proof.Machine.execRecordStart cl s
  | .preempt core => Sys2Proof.Machine.execPreempt core s
  | .contextRestore core => Sys2Proof.Machine.execContextRestore core s
  | .contextClear core => Sys2Proof.Machine.execContextClear core s
  | .preemptUnitsStopped core => Sys2Proof.Machine.execPreemptUnitsStopped core s
  | .debugHalt cl => Sys2Proof.Machine.execDebugHalt cl s
  | .walkStart die => Sys2Proof.Machine.execWalkStart die s
  | .walkComplete die n => Sys2Proof.Machine.execWalkComplete die n s
  | .faultMessage core => Sys2Proof.Machine.execFaultMessage core s
  | .xfrespRetry core => Sys2Proof.Machine.execXfrespRetry core s
  | .xfrespFail core => Sys2Proof.Machine.execXfrespFail core s
  | .engineFaultResume core e => Sys2Proof.Machine.execEngineFaultResume core e s
  | .refresh die col bg => Sys2Proof.Machine.execRefresh die col bg s
  | .normalBurstGrant die col bg => Sys2Proof.Machine.execNormalBurstGrant die col bg s
  | .levelRise die col => Sys2Proof.Machine.execLevelRise die col s
  | .levelFall die col => Sys2Proof.Machine.execLevelFall die col s
  | .columnMigrate die col => Sys2Proof.Machine.execColumnMigrate die col s
  | .migrationSwitch die => Sys2Proof.Machine.execMigrationSwitch die s
  | .sendDoorbell die port v => Sys2Proof.Machine.execSendDoorbell die port v s
  | .frameTransmit die port => Sys2Proof.Machine.execFrameTransmit die port s
  | .ethernetFrameReceive die port frame fcsOk => Sys2Proof.Machine.execEthernetFrameReceive die port frame fcsOk s
  | .rxFrameCommit die port => Sys2Proof.Machine.execRxFrameCommit die port s
  | .erxcfgWrite die port v secure => Sys2Proof.Machine.execErxcfgWrite die port v secure s
  | .erxtailRelease die port v => Sys2Proof.Machine.execErxtailRelease die port v s
  | .patrolScrub die kind a => Sys2Proof.Machine.execPatrolScrub die kind a s
  | .checkpointTimer die => Sys2Proof.Machine.execCheckpointTimer die s
  | .checkpointCommit die => Sys2Proof.Machine.execCheckpointCommit die s
  | .checkpointReport link e => Sys2Proof.Machine.execCheckpointReport link e s
  | .powerOn => Sys2Proof.Machine.execPowerOn s
  | .coldReset die => Sys2Proof.Machine.execColdReset die s
  | .warmReset die => Sys2Proof.Machine.execWarmReset die s
  | .bootRailsSettled die => Sys2Proof.Machine.execBootRailsSettled die s
  | .bootImageVerified die => Sys2Proof.Machine.execBootImageVerified die s
  | .bootMemoryReady die => Sys2Proof.Machine.execBootMemoryReady die s
  | .bootLinksTrained die => Sys2Proof.Machine.execBootLinksTrained die s
  | .attestationRequest die nonce => Sys2Proof.Machine.execAttestationRequest die nonce s
  | .attestationReport die => Sys2Proof.Machine.execAttestationReport die s
  | .powerEstimate => Sys2Proof.Machine.execPowerEstimate s
  | .testEngineOffer die site => Sys2Proof.Machine.execTestEngineOffer die site s
  | .vbtdrvWrite die v => Sys2Proof.Machine.execVbtdrvWrite die v s
  | .testBeatResult die => Sys2Proof.Machine.execTestBeatResult die s
  | .vbrepWrite die k v => Sys2Proof.Machine.execVbrepWrite die k v s
  | .vbrepApply die => Sys2Proof.Machine.execVbrepApply die s
  | .fuseRepairs die site => Sys2Proof.Machine.execFuseRepairs die site s
  | .retireBus die site => Sys2Proof.Machine.execRetireBus die site s
  | .wscallReply cl => Sys2Proof.Machine.execWscallReply cl s
  | .dualCompare die n => Sys2Proof.Machine.execDualCompare die n s
  | .unallocatedWord cl => Sys2Proof.Machine.execUnallocatedWord cl s
  | .idleTimeout cl => Sys2Proof.Machine.execIdleTimeout cl s
  | .recordAgeStep die n => Sys2Proof.Machine.execRecordAgeStep die n s
  | .hostAtomicRequest die pa op w b c => Sys2Proof.Machine.execHostAtomicRequest die pa op w b c s
  | .sendLogCheckpointRequest link e => Sys2Proof.Machine.execSendLogCheckpointRequest link e s
  | .minsvnRaiseRequest die => Sys2Proof.Machine.execMinsvnRaiseRequest die s

end Sys2Proof.Machine
end

