-- ==== Sys2Proof/Machine/Turns.lean ====
section
/-!
DEFINITION. Turns: the passing of time, what the surroundings do to the part, the default policy by which steps follow one
another, and where a program is placed (R22, R34, R249, R318 to R323; DESIGN CHOICE, log 1, DESIGN CHOICE, log 2, DESIGN CHOICE, log 9).
-/

namespace Sys2Proof.Machine

/-! ### Time (DESIGN CHOICE, log 9) -/

/-- n cycles pass for a cluster: a wait of IDLE (R328), sync wait (R34), and a request to a die below READY (R347). -/
def Cluster.elapse (n : Nat) (waits : Bool) (c : Cluster) : Cluster :=
  { c with
    idle := c.idle.map (· - n)
    syncAge := if c.syncWait then c.syncAge + n else c.syncAge
    remote := if waits then c.remote.map fun (r : Remote) => { r with age := r.age + n } else c.remote }

/-- n cycles pass for a core: its narrowing windows (R195), a copy's wait for a die below READY (R347) and its fault messages (R305). -/
def Core.elapse (n : Nat) (x : Core) : Core :=
  { x.eachEngine (fun e => { e with winAge := e.winAge + n, readAge := e.readAge.map (· + n) }) with xfMsg := x.xfMsg.map (· + n) }

/-- n cycles pass for the lanes: a pre-emption's wait for a safe point, but while a column is moved (R275). -/
def Lanes.elapse (n : Nat) (moving : Bool) (x : Lanes) : Lanes :=
  if x.prep && !moving then { x with prepAge := x.prepAge + n } else x

/-- Columns that have compute queued have not been idle (R346). -/
def Die.markUse (x : Die) : List (Nat × Nat) :=
  if x.lanes.buf.isEmpty && x.lanes.live.isEmpty && x.lanes.runs.isEmpty then x.colUse
  else ((List.range x.lcol).filter fun c => !x.lanes.columnIdle c).foldl (fun acc c => setKey c x.now acc) x.colUse

/-- n cycles pass for a die's own counters (R22, R249, R339, R346, R347, R352); the cycle counter wraps. -/
def Die.elapse (n : Nat) (x : Die) : Die :=
  { x with
    cycle := x.cycle + word n, now := x.now + n, schedAge := x.schedAge.map fun e => (e.1, e.2 + n), stageAge := x.stageAge + n, ckAge := x.ckAge + n, powAge := x.powAge + n
    colUse := { x with now := x.now + n }.markUse
    lanes := x.lanes.elapse n x.mig.isSome }

/-- A way from a die leaves die d over a link. -/
def wayLeaves (l : LinkIx) (d : DieIx) : DieIx → List (LinkIx × DieIx) → Bool
  | _, [] => false
  | src, (m, next) :: rest => (m == l && src == d) || wayLeaves l d next rest

/-- Flits wait to leave an end of a link whose direction holds one group: posted accesses, requests, and responses, for whatever home
(R294, R340). -/
def State.floorWaits (s : State) (l : LinkIx) (a : Bool) : Bool :=
  let near := if a then (linkEnds l).1 else (linkEnds l).2
  (s.link l).share == (if a then 1 else 15) &&
  ((s.flits.any fun f => f.link == some l && f.sender == near) ||
   allClusters.any fun c => match (s.cluster c).remote with
     | some r =>
       if r.executed then wayLeaves l near (r.loc.gate (dieOfClu c)) (r.wayBack c) else wayLeaves l near (dieOfClu c) (r.way c)
     | none => false)

/-- n cycles pass for a link, counted by the die at its end A (R293 to R295). -/
def State.elapseLink (s : State) (n : Nat) (l : LinkIx) : State :=
  let wa := s.floorWaits l true
  let wb := s.floorWaits l false
  s.modLink l fun x => { x with
    age := x.age + n
    endA := { x.endA with floorAge := if wa then x.endA.floorAge + n else 0 }
    endB := { x.endB with floorAge := if wb then x.endB.floorAge + n else 0 } }

/-- A cluster's request waits for a die below READY. -/
def State.remoteWaits (s : State) (c : CluIx) : Bool :=
  match (s.cluster c).remote with | some r => !s.homeReady r.loc | none => false

/-- n cycles pass on a die (DESIGN CHOICE, log 9). -/
def State.elapse (s : State) (d : DieIx) (n : Nat) : State :=
  let s := (clustersOn d).foldl (fun (acc : State) c => acc.modCluster c (Cluster.elapse n (acc.remoteWaits c))) s
  let s := (coresOf d).foldl (fun (acc : State) k => acc.modCore k (Core.elapse n)) s
  let s := (allLinks.filter fun l => (linkEnds l).1 == d).foldl (fun (acc : State) l => acc.elapseLink n l) s
  let mine (c : CluIx) : Bool := dieOfClu c == d
  let flits := s.flits.map fun f => if mine f.cl && !s.homeReady f.dst then { f with age := f.age + n } else f
  let merges := s.merges.map fun m => match m.from_ with
    | x :: _ => if mine x.1 then { m with age := m.age + n } else m
    | [] => m
  let s' := s.modDie d fun x => let y := x.elapse n; { y with schedAge := y.schedAge.filter fun e => !s.homeReady e.1 }
  { s' with flits := flits, merges := merges }

/-! ### What the surroundings do (R318 to R323, R347, R353) -/

/-- A correctable error was found and corrected: counted, and logged with kind 1 for DRAM and 3 for the others (R320, R325).  For DRAM
it is given by the byte's address, and the entry names its site, and as connection the first of its symbol (R19, R319; DEDUCED,
log 18). -/
def State.corrected (s : State) (d : DieIx) (which : Nat) (loc : Word) : State :=
  let up (n : Nat) : Nat := heldAt 65535 (n + 1)
  match which with
  | 0 => match s.physLoc d loc.toNat with
    | some (.dram _ a) => s.correctBeat d (a / 128) (8 * (a % 128))
    | _ => s
  | 1 => (s.modDie d fun x => { x with hubc := up x.hubc }).log d 3 0 loc 0
  | 2 => (s.modDie d fun x => { x with spc := up x.spc }).log d 3 0 loc 0
  | _ => (s.modDie d fun x => { x with regc := up x.regc }).log d 3 0 loc 0

/-- A physical event takes place. -/
def State.upset (s : State) (u : Upset) : State :=
  match u with
  | .spadWord k w => if 8 * w < spadBytes k then s.modCore k fun x => { x with spadBad := addOnce x.spadBad w } else s
  | .imemWord k w => if 8 * w < Config.imemBytes then s.modCore k fun x => { x with imemBad := addOnce x.imemBad w } else s
  | .hubWord d w =>
    if isHub d ∧ 8 * w < Config.hubSramBytes then s.modDie d fun x => { x with hubBad := addOnce x.hubBad w } else s
  | .dramBeat d b =>
    (match s.physLoc d (128 * b) with
      | some (.dram _ _) => s.modDie d fun x => { x with dramBad := addOnce x.dramBad b }
      | _ => s)
  | .corrected d which loc => s.corrected d which loc
  | .registers c =>
    if (s.cluster c).record.isSome then
      ((s.modCluster c fun x => x.addPend .mck 1).countUnc (dieOfClu c) 1).log (dieOfClu c) 6 Cause.mck.code 0 (s.cluster c).lid
    else s
  | .openConn d site n =>
    if !isHub d ∧ siteOk d site ∧ n < 1056 then s.modDie d fun x => { x with vbopen := x.vbopen ++ [(site, n)] } else s
  | .stuckConn d site n =>
    if !isHub d ∧ siteOk d site ∧ n < 1056 then s.modDie d fun x => { x with vbstuck := x.vbstuck ++ [(site, n)] } else s
  | .accWord k w =>
    if isHub (dieOf k) ∧ w < 16384 then s.modCore k fun x => { x with mx := { x.mx with accBad := addOnce x.mx.accBad w } } else s
  | .fmtWord d e w =>
    if !isHub d ∧ e < 128 ∧ w < 3 then
      s.modLanes d fun x => { x with fmtBad := if x.fmtBad.contains (e, w) then x.fmtBad else x.fmtBad ++ [(e, w)] }
    else s
  | .shadowWord d w =>
    if (s.die d).shadowHolds (w / 256) then s.modDie d fun x => { x with shadowBad := addOnce x.shadowBad w } else s
  | .bootFacts d image memOk linksOk => s.modDie d fun x => { x with image := image, memTestOk := memOk, linksOk := linksOk }

/-! ### The part's own events that can be due (DESIGN CHOICE, log 1) -/

/-- A meaning of an event, with its operands. -/
abbrev Move := State → Result

/-- Boot, and what firmware does in it (R312, R347). -/
def State.bootEvents (s : State) (d : DieIx) : List Move :=
  match (s.die d).stage with
  | 1 => [execBootRailsSettled d]
  | 2 => [execBootImageVerified d]
  | 3 => [execBootMemoryReady d]
  | 4 => [(State.enableMap · d), execBootLinksTrained d]
  | _ => []

/-- Events of a cluster. -/
def State.clusterEvents (s : State) (c : CluIx) : List Move :=
  let x := s.cluster c
  let d := s.die (dieOfClu c)
  let waits := !d.store.isEmpty || !d.duals.isEmpty || (List.range 16).any fun k => (d.slot k).offers
  (if x.remote.isSome then [execAtomicExecute c, execAtomicResponse c, execLoadDataReturn c] else []) ++
  (x.fences.map fun f => execFenceComplete c f.seq) ++
  (if x.taken.isSome then [execRecordStart c] else if x.isIdle && d.ready && waits then [execRecordSelect c] else []) ++
  (if x.syncWait then [execSyncWaitWatchdog c] else []) ++
  (if x.idle.isSome then [execIdleTimeout c] else []) ++
  (if d.ws.any fun r => r.cl == c then [execWscallReply c] else [])

/-- Events of a copy engine. -/
def engineEvents (k : CoreIx) (e : Nat) (x : Engine) : List Move :=
  (if x.pause then [execEngineFaultResume k e] else []) ++
  (if 1024 ≤ x.winAge then [execNarrowWindowBoundary k e] else []) ++
  (if x.queue.isEmpty then []
   else [execBlockFetch k e, execCpinvEffect k e, execCpnestEffect k e, execRingUnitClaim k e, execInnermostCopy k e, execRingUnitFill k e,
     execCopyCommandComplete k e])

/-- Events of a core. -/
def State.coreEvents (s : State) (k : CoreIx) : List Move :=
  let x := s.core k
  (if (clustersOf k).any fun c => (s.cluster c).syncWait then [execBundleIssue k] else []) ++
  (x.vq.flatMap fun c => [execVectorCommandStart k c.seq, execVectorCommandComplete k c.seq, execHorizonCheckpoint k c.seq]) ++
  (if x.mx.armed.isSome then [execNestStart k] else []) ++ (if x.mx.idxq.isSome then [(State.indexMove · k)] else []) ++
  (if x.mx.run.isSome then [execMatrixChunk k, execNestComplete k] else []) ++
  (if x.mx.sqlds.isEmpty then [] else [execSqldEntryPush k]) ++
  (x.tiles.flatMap fun t => [execTileTransferRelease k t.seq, execTileTransferLock k t.seq]) ++
  ((List.range 20).flatMap fun e => engineEvents k e (x.engine e)) ++
  (if x.cxPend then [execPreempt k, execPreemptUnitsStopped k, execContextRestore k, execContextClear k] else []) ++
  (if x.xfAns.isSome then [execXfrespRetry k, execXfrespFail k] else []) ++
  (if x.xfq.isEmpty then [] else [execFaultMessage k])

/-- Events of the lanes of a stack. -/
def State.laneEvents (s : State) (d : DieIx) : List Move :=
  let x := s.die d
  let l := x.lanes
  let lanes := List.range x.lanesN
  (if l.buf.isEmpty then [] else [execMacroBroadcast d]) ++
  (if l.live.isEmpty then []
   else [execLrsyncDrain d, execLsafeComplete d] ++ (l.live.map fun m => execMulticastLand d m.seq) ++
     (lanes.flatMap fun n => [execLaneMacroRun d n, execLanePlaneRead d n])) ++
  ((l.live ++ l.tail).flatMap fun m => (List.range (4 * m.rows)).map fun j => execRowResultDelivery d m.seq j) ++
  (if l.prep then [execLaneWatchdogReset d] else [])

/-- Events of a die. -/
def State.dieEvents (s : State) (d : DieIx) : List Move :=
  let x := s.die d
  ((List.range 16).flatMap fun k => match (x.slot k).st with
    | .mapping => [execQslotMappingDone d k]
    | .unmapping => [execQslotUnmapDone d k]
    | _ => []) ++
  (if x.walkWait.isEmpty then [] else [execWalkStart d]) ++
  ((List.range x.walks.length).map fun n => execWalkComplete d n) ++
  (((List.range (16 + x.store.length)).filter x.ageDue).map fun n => execRecordAgeStep d n) ++
  (x.duals.map fun p => execDualCompare d p.id) ++
  (if x.mig.isSome then [execMigrationSwitch d] else []) ++
  ((List.range x.lcol).filter (fun c => x.columnLevel c == 3)).map (fun c => execColumnMigrate d c) ++
  (if x.ckBusy then [execCheckpointCommit d] else if bit x.ckcfg 0 then [execCheckpointTimer d] else []) ++
  (if x.vbpend.isEmpty then [] else [execVbrepApply d]) ++
  (if x.beat.isSome then [execTestBeatResult d] else []) ++
  (x.ws.filterMap fun r => if r.isBus d && r.result.isNone then
    some (if r.ga == 0x20 then execFuseRepairs d (bits r.gb 0 8) else execRetireBus d (bits r.gb 0 8)) else none) ++
  (if isHub d then [0, 1, 2].flatMap fun q => [execRxFrameCommit d q, execFrameTransmit d q] else []) ++
  (if x.attest.isSome then [execAttestationReport d] else [])

/-- Events of a link. -/
def State.linkEvents (s : State) (l : LinkIx) : List Move :=
  let x := s.link l
  (if x.retraining then [execGroupRetrainDone l] else []) ++ [execForcedTurn l] ++
  (if x.queue.isEmpty then [] else [execTurnStart l]) ++ (if x.turning.isSome then [execTurnEffect l] else []) ++
  (if x.dead = 0 then [] else [execDeadTimeEnd l]) ++
  [0, 1].flatMap fun e => [execCheckpointReport l e, execSendLogCheckpointRequest l e]

/-- Events of flits and of stores held in switches. -/
def State.flitEvents (s : State) : List Move :=
  (s.flits.flatMap fun f => [execPeerAccessArrival f.seq, execReductionApplyHome f.seq, execFlitSendTimeout f.seq]) ++
  (s.merges.flatMap fun m => if m.forwarded then [execReductionApplyHome m.seq] else [execMergeEntryForward m.seq]) ++
  allClusters.filterMap fun c => match (s.cluster c).remote with | some r => some (execFlitSendTimeout r.seq) | none => none

/-- Every core of the part. -/
def allCores : List CoreIx := allDies.flatMap coresOf

/-- The part's own events that can be due, in a fixed order. -/
def State.ownEvents (s : State) : List Move :=
  (if allDies.all fun d => (s.die d).stage == 0 then [execPowerOn] else []) ++ (if s.powerDue then [execPowerEstimate] else []) ++ allDies.flatMap s.bootEvents ++
  allClusters.flatMap s.clusterEvents ++ allCores.flatMap s.coreEvents ++
  ([0, 1, 2, 3] : List DieIx).flatMap s.laneEvents ++ allDies.flatMap s.dieEvents ++ s.flitEvents ++ allLinks.flatMap s.linkEvents

/-- The first event of a list that is due. -/
def State.firstDue (s : State) : List Move → Option Result
  | [] => none
  | f :: fs => match f { s with note := .done } with
    | .next s' => if s'.note == .waited then s.firstDue fs else some (.next s')
    | r => some r

/-! ### Turns (DESIGN CHOICE, log 1) -/

/-- One turn taken. -/
def State.turn (s : State) (t : Turn) : Result :=
  match t with
  | .issue c => if (s.cluster c).record.isNone then .fault .noWord else s.issueBy exec c
  | .event i => if isEvent i then exec i s else s.stutter
  | .readIndex k => s.indexMove k
  | .elapse d n => .next (s.elapse d n)
  | .upset u => .next (s.upset u)
  | .firmware d a v => .next (s.firmwareWrite d a v)
  | .firmwareStore d pa v => .next (s.firmwareStore d pa v)
  | .controlRead d off => .next (s.hostControlRead d off)
  | .notifyRead d => .next (s.hostNotifyRead d)
  | .span d a => s.spanArrives d a

/-- Clusters that stand in the queue of issue and can still issue. -/
def State.runnable (s : State) : List CluIx := s.runq.filter fun c => (s.cluster c).record.isSome && !(s.cluster c).held

/-- The move of the part's own agents: the first event that is due, or else a cycle passes on every die. -/
def State.ownMove (s : State) : Result :=
  match s.firstDue s.ownEvents with
  | some r => r
  | none => .next (allDies.foldl (fun (acc : State) d => acc.elapse d 1) s)

/-- The default policy: clusters issue in turn, and the part's own agents move between them. -/
def State.defaultMove (s : State) : Result :=
  match s.runnable with
  | [] => State.ownMove { s with engineTurn := false }
  | c :: cs =>
    if s.engineTurn then State.ownMove { s with engineTurn := false }
    else State.issueBy exec { s with runq := cs ++ [c], engineTurn := true } c

/-! ### Where a program stands (DESIGN CHOICE, log 2) -/

/-- The cluster that a placed word is for: a lane macro-instruction's, cluster 0 of the stack core of S0; any other's, cluster 0 of
core 0 of H0. -/
def placeCluster (w : W32) : CluIx := if (w.extractLsb' 25 6).toNat = 0x32 then 0 else 16

/-- A cluster that holds a record and issues next, alone, the word at its PC. -/
def Cluster.placed (c : Cluster) (alone : Bool) : Cluster :=
  { c with
    record := some (c.record.getD ⟨0, 0, 0, 0⟩), taken := none, held := false, stopped := false, remote := none, dual := none
    pend := [], stale := [], mode := if alone then .user else c.mode, solo := c.solo || alone }

/-- A word placed at a cluster's PC, the next that issues; the granule it lies in is dirty (R333). -/
def State.placeWord (s : State) (w : W32) : State :=
  let c := placeCluster w
  let a := (s.cluster c).pc.toNat / 4 * 4
  let s := s.modCluster c fun x => x.placed (w.getLsbD 31)
  let s := s.modCore (coreOf c) fun x =>
    { x with imem := x.imem.writeN a (wordBytes w), imemBad := x.imemBad.filter (fun b => b != a / 8)
             idirty := insertAll (unitsOf 4096 a 4) x.idirty }
  { s with agenda := [], runq := [c], engineTurn := false }

end Sys2Proof.Machine
end

