-- ==== Sys2Proof/Machine/Step.lean ====
section
/-!
DEFINITION. Step: one step of the part, and the placing of a word where the next step fetches it (DESIGN CHOICE, log 1, DESIGN CHOICE, log 2).
-/

namespace Sys2Proof.Machine

/-- One step: the first turn of the agenda, or else the move of the default policy (DESIGN CHOICE, log 1). -/
def step (s : State) : Host.Outcome State Fault Refusal :=
  match s.agenda with
  | t :: rest => State.turn { s with agenda := rest } t
  | [] => s.defaultMove

/-- s with an instruction word placed where the next step fetches it; the part's words have 32 bits (DESIGN CHOICE, log 2). -/
def State.withFetchWord (s : State) (nbits w : Nat) : State := if nbits = 32 then s.placeWord (BitVec.ofNat 32 w) else s

end Sys2Proof.Machine
end

