-- ==== Sys2Proof/Safety.lean ====
section
/-!
DEFINITION. Safety: the terms in which statements speak of a run: what a word leaves alone, what it writes, how the next word
follows, what a trap saves, and the invariants of the machine.
-/

namespace Sys2Proof.Machine

/-! ### What a word leaves alone -/

/-- The special registers and the standing of a cluster that a word leaves alone unless its rule says otherwise: mode, trap
registers, FPXEN, VLCA and VLCB, the record, the register bank of the other mode, and what is pending (a single step of R337
makes DBG pending in user mode). -/
structure Cluster.Keeps (c x : Cluster) : Prop where
  mode : x.mode = c.mode
  pmode : x.pmode = c.pmode
  pworld : x.pworld = c.pworld
  tcause : x.tcause = c.tcause
  tepc : x.tepc = c.tepc
  tval : x.tval = c.tval
  thvec : x.thvec = c.thvec
  fpxen : x.fpxen = c.fpxen
  vlca : x.vlca = c.vlca
  vlcb : x.vlcb = c.vlcb
  record : x.record = c.record
  begun : x.begun = c.begun
  taken : x.taken = c.taken
  stopped : x.stopped = c.stopped
  held : x.held = c.held
  saver : x.saver = c.saver
  wstag : x.wstag = c.wstag
  remote : x.remote = c.remote
  atag : x.atag = c.atag
  stale : x.stale = c.stale
  dual : x.dual = c.dual
  beatWait : x.beatWait = c.beatWait
  ckWait : x.ckWait = c.ckWait
  fences : x.fences.map Fence.seq = c.fences.map Fence.seq
  bank : c.mode = .user → x.bank = c.bank
  regs : c.mode = .handler → x.regs = c.regs
  pend : c.mode = .handler ∨ c.step = false → x.pend = c.pend

/-- Register d takes v, register 0 reads as zero, and every other general register keeps its value (R36). -/
structure Cluster.Takes (c x : Cluster) (d : Reg) (v : Word) : Prop where
  result : d ≠ 0 → x.g d = v
  zero : x.g 0 = 0
  others : ∀ r, r ≠ d → x.g r = c.g r

/-- The next word follows, and no loop moves, where no active loop ends at this word (R26, R77). -/
def Cluster.Follows (c x : Cluster) : Prop :=
  (c.mode = .handler ∨ c.loops.depth = 0 ∨ c.pc ≠ c.loops.stop[0]) → x.pc = c.pc + 4 ∧ x.loops = c.loops

/-- Every byte of memory reads as before. -/
def State.SameMemory (s t : State) : Prop := ∀ l, t.peek l 1 = s.peek l 1

/-- Nothing but the cluster that issues has changed. -/
def State.OnlyMe (s t : State) : Prop := t = { s.setCluster s.focus t.me with note := .done }

/-- The word that issues wrote v to register d and completed, with no other effect. -/
structure State.Wrote (s t : State) (d : Reg) (v : Word) : Prop where
  takes : s.me.Takes t.me d v
  keeps : s.me.Keeps t.me
  flags : t.me.fpflg = s.me.fpflg
  follows : s.me.Follows t.me
  only : s.OnlyMe t
  memory : s.SameMemory t

/-- The word that issues wrote v to register d, raised floating-point flags and completed, with no other effect. -/
structure State.WroteFp (s t : State) (d : Reg) (v : Word) (f : BitVec 5) : Prop where
  takes : s.me.Takes t.me d v
  keeps : s.me.Keeps t.me
  flags : t.me.fpflg = s.me.fpflg ||| f
  follows : s.me.Follows t.me
  only : s.OnlyMe t
  memory : s.SameMemory t

/-- The word that issues completed with no effect on a register or on memory. -/
def State.Passed (s t : State) : Prop := s.Wrote t 0 0

/-- The word that issues wrote v to register d and transferred control to an address: no loop moves (R77). -/
structure State.Went (s t : State) (d : Reg) (v : Word) (pc : PC) : Prop where
  takes : s.me.Takes t.me d v
  keeps : s.me.Keeps t.me
  flags : t.me.fpflg = s.me.fpflg
  pc : t.me.pc = pc
  loops : t.me.loops = s.me.loops
  only : s.OnlyMe t
  memory : s.SameMemory t

/-- The word that issues completed as a delivery point: no register changes, and enabled flags make FPX pending (R129). -/
structure State.Delivered (s t : State) (d : Reg) (v : Word) : Prop where
  takes : s.me.Takes t.me d v
  flags : t.me.fpflg = s.me.fpflg
  mode : t.me.mode = s.me.mode
  follows : s.me.Follows t.me
  fpx : s.me.fpflg &&& s.me.fpxen ≠ 0 →
    t.me.pend.filter (fun p => p.cause == .fpx) = [⟨.fpx, (s.me.fpflg &&& s.me.fpxen).setWidth 64, noPath⟩]
  quiet : s.me.fpflg &&& s.me.fpxen = 0 → s.me.Keeps t.me
  only : s.OnlyMe t
  memory : s.SameMemory t

/-- A cluster took a trap at its PC (R326): what is saved, where it goes, and what stays. -/
structure Cluster.TookTrap (c x : Cluster) (secure async bund : Bool) (path : Nat) (cause : Cause) : Prop where
  cause : bits x.tcause 0 5 = cause.code
  path : bits x.tcause 8 3 = path
  async : bit x.tcause 15 = async
  bund : bit x.tcause 14 = bund
  epc : x.tepc = c.pc.setWidth 64
  pmode : x.pmode = (c.mode == .handler)
  pworld : x.pworld = secure
  mode : x.mode = .handler
  pc : x.pc = c.thvec.setWidth 18
  regs : x.regs = c.regs
  bank : x.bank = c.bank
  loops : x.loops = c.loops
  thvec : x.thvec = c.thvec
  fpflg : x.fpflg = c.fpflg
  fpxen : x.fpxen = c.fpxen
  record : x.record = c.record
  pend : x.pend = c.pend

/-- The word that issues raised a cause, and nothing but its cluster has changed. -/
structure State.Trapped (s t : State) (cause : Cause) (tval : Word) (path : Nat) : Prop where
  trap : s.me.TookTrap t.me s.myCore.secure false s.bundling path cause
  tval : t.me.tval = tval
  only : t = { s.setCluster s.focus t.me with note := .trapped }
  memory : s.SameMemory t

/-! ### Accesses that can be made at once -/

/-- The n bytes at an address lie, aligned, in the core's own scratchpad, and nothing stands in the way of an access to them:
the world map forbids nothing, no word is uncorrectable, and no fence, flit, merge entry, tile transfer or DUAL copy makes the
access wait. -/
def State.nearOk (s : State) (va : Word) (n : Nat) : Bool :=
  va.toNat % n == 0 && decide (va.toNat + n ≤ spadBytes s.myCoreIx) && (s.myCore.secure || !bit s.myDie.wmapb 0) &&
  s.myCore.spadBad.isEmpty && s.myCore.tiles.isEmpty && s.me.fences.isEmpty && s.flits.isEmpty && s.merges.isEmpty &&
  s.me.dual.isNone

/-- The place of a scratchpad address of the core that issues. -/
def State.own (s : State) (va : Word) : Loc := .spad s.myCoreIx va.toNat

/-- s after bytes were stored in the scratchpad of the core that issues: that memory and its dirty granules are another's. -/
def State.spadAs (s t : State) : State :=
  s.modMyCore fun x => { x with spad := t.myCore.spad, sdirty := t.myCore.sdirty }

/-- Memory after bytes were stored at a place: those bytes there, and every other byte as before. -/
def State.Stored (s t : State) (l : Loc) (bs : List Byte) : Prop :=
  t.peek l bs.length = bs ∧
    ∀ m, (∀ i, i < bs.length → m ≠ l.add i) → t.peek m 1 = s.peek m 1

/-! ### Invariants -/

/-- A program counter stands at a word (R26). -/
def pcAligned (p : PC) : Prop := p.toNat % 4 = 0

/-- PC, THVEC and the addresses of the loop registers name words, and at most four loops are active (R26, R75, R326). -/
structure Cluster.Aligned (c : Cluster) : Prop where
  pc : pcAligned c.pc
  thvec : c.thvec.toNat % 4 = 0
  start : ∀ i (h : i < 4), pcAligned c.loops.start[i]
  stop : ∀ i (h : i < 4), pcAligned c.loops.stop[i]
  depth : c.loops.depth ≤ 4

/-- Every cluster is aligned. -/
def State.Aligned (s : State) : Prop := ∀ c, (s.cluster c).Aligned

/-- The accumulator of a matrix engine, and what it keeps of it for a step that is undone, are in canonical form. -/
def Matrix.memOk (m : Matrix) : Bool := m.acc.wf && m.stepAcc.wf

/-- Every memory of a core is in canonical form. -/
def Core.memOk (x : Core) : Bool := x.spad.wf && x.imem.wf && x.mx.memOk && x.ce.toList.all fun e => e.store.wf

/-- The memories of the Ethernet ports are in canonical form. -/
def ethOk (v : Vector EthPort 3) : Bool := v.toList.all fun p => p.buf.wf

/-- The memories that a saved core's units hold are in canonical form. -/
def UnitSave.memOk (u : UnitSave) : Bool := u.core.memOk && u.lanes.abuf.wf

/-- The memories of a checkpoint are in canonical form. -/
def Ckpt.memOk (k : Ckpt) : Bool := k.hub.wf && ethOk k.eth && k.images.all fun p => p.1.memOk

/-- Every memory of a die, and of the checkpoints it holds, is in canonical form. -/
def Die.memOk (x : Die) : Bool :=
  x.hub.wf && x.dram.wf && x.lanes.abuf.wf && ethOk x.eth && x.ckSlots.all fun p => p.2.memOk

/-- Every memory of the part, and of what it reaches, is in canonical form (DESIGN CHOICE, log 4). -/
def State.memOk (s : State) : Bool :=
  s.cores.toList.all Core.memOk && s.dies.toList.all Die.memOk && s.hostMem.wf && s.spanMem.wf

end Sys2Proof.Machine
end

