-- ==== Sys2Proof/Certificates/Slice0/Obligations.lean ====
section
/-!
DEFINITION. Obligations: the statements of this model.  Each docstring says which rules it states.
-/

open Sys2Proof Sys2Proof.Machine
open Host (Outcome)

/-- Add, subtract, logic, shifts, rotate, word add and subtract, multiply and SHADD complete in every state and mode,
write the result of the exact arithmetic modulo 2^64 to gD (nothing when D is 0), and change no other register, flag,
special register or byte of memory.  (R66, R71) -/
def Obligations.IntegerArithmeticResults : Prop :=
  ∀ (s : State) (d a b : Reg),
    let x := s.g a
    let y := s.g b
    let n := y.toNat % 64
    ∀ p ∈ ([(.add d a b, word (x.toNat + y.toNat)),
        (.sub d a b, BitVec.ofInt 64 ((x.toNat : Int) - y.toNat)),
        (.and d a b, BitVec.ofNat 64 (x.toNat &&& y.toNat)),
        (.or d a b, BitVec.ofNat 64 (x.toNat ||| y.toNat)),
        (.xor d a b, BitVec.ofNat 64 (x.toNat ^^^ y.toNat)),
        (.andn d a b, BitVec.ofNat 64 (x.toNat &&& (2 ^ 64 - 1 - y.toNat))),
        (.addw d a b, BitVec.ofInt 64 (((x.toNat : Int) + y.toNat).bmod (2 ^ 32))),
        (.subw d a b, BitVec.ofInt 64 (((x.toNat : Int) - y.toNat).bmod (2 ^ 32))),
        (.shl d a b, word (x.toNat * 2 ^ n)),
        (.shr d a b, word (x.toNat / 2 ^ n)),
        (.sha d a b, BitVec.ofInt 64 (x.toInt / 2 ^ n)),
        (.rol d a b, word (x.toNat * 2 ^ n + x.toNat / 2 ^ (64 - n))),
        (.mul d a b, word (x.toNat * y.toNat)),
        (.mulh d a b, BitVec.ofInt 64 (x.toInt * y.toInt / 2 ^ 64)),
        (.mulhn d a b, word (x.toNat * y.toNat / 2 ^ 64)),
        (.shadd1 d a b, word (2 * x.toNat + y.toNat)),
        (.shadd2 d a b, word (4 * x.toNat + y.toNat)),
        (.shadd3 d a b, word (8 * x.toNat + y.toNat)),
        (.shadd4 d a b, word (16 * x.toNat + y.toNat))] : List (Instr × Word)),
      ∃ t, exec p.1 s = .next t ∧ s.Wrote t d p.2

/-- MIN, MAX, MINN, MAXN, the six comparisons, CLZ, CTZ and POPC complete in every state, write the value that their
order or count gives, signed and unsigned, and change nothing else.  (R66, R36, R65) -/
def Obligations.IntegerComparisonResults : Prop :=
  ∀ (s : State) (d a b : Reg),
    let x := s.g a
    let y := s.g b
    ∀ p ∈ ([(.min d a b, if x.toInt < y.toInt then x else y),
        (.max d a b, if x.toInt < y.toInt then y else x),
        (.minn d a b, if x.toNat < y.toNat then x else y),
        (.maxn d a b, if x.toNat < y.toNat then y else x),
        (.seq d a b, if x = y then 1 else 0),
        (.sne d a b, if x = y then 0 else 1),
        (.slt d a b, if x.toInt < y.toInt then 1 else 0),
        (.sltn d a b, if x.toNat < y.toNat then 1 else 0),
        (.sle d a b, if x.toInt ≤ y.toInt then 1 else 0),
        (.slen d a b, if x.toNat ≤ y.toNat then 1 else 0),
        (.clz d a, word ((List.range 64).takeWhile fun i => !x.getLsbD (63 - i)).length),
        (.ctz d a, word ((List.range 64).takeWhile fun i => !x.getLsbD i).length),
        (.popc d a, word ((List.range 64).countP fun i => x.getLsbD i))] : List (Instr × Word)),
      ∃ t, exec p.1 s = .next t ∧ s.Wrote t d p.2

/-- DIV, REM, DIVN and REMN complete in every state: a zero divisor gives all ones or the dividend, the most negative
number over minus one gives itself and remainder 0, and otherwise the quotient is truncated toward zero; nothing else
changes.  (R67) -/
def Obligations.DivisionNeverTraps : Prop :=
  ∀ (s : State) (d a b : Reg),
    let x := s.g a
    let y := s.g b
    let q : Int := x.toInt.sign * y.toInt.sign * ((x.toInt.natAbs / y.toInt.natAbs : Nat) : Int)
    let corner : Bool := x.toInt == -2 ^ 63 && y.toInt == -1
    ∀ p ∈ ([(.div d a b, if y = 0 then 0xFFFF_FFFF_FFFF_FFFF else if corner then x else BitVec.ofInt 64 q),
        (.rem d a b, if y = 0 then x else if corner then 0 else BitVec.ofInt 64 (x.toInt - q * y.toInt)),
        (.divn d a b, if y = 0 then 0xFFFF_FFFF_FFFF_FFFF else word (x.toNat / y.toNat)),
        (.remn d a b, if y = 0 then x else word (x.toNat % y.toNat))] : List (Instr × Word)),
      ∃ t, exec p.1 s = .next t ∧ s.Wrote t d p.2

/-- ADDI, ORI, XORI and SLTI with sign- and zero-extended immediates, MOVZ, MOVK and MOVN with each quarter, and ADDPC
complete in every state, write the value the rules give and change nothing else.  (R68, R69, R70) -/
def Obligations.ImmediateResults : Prop :=
  ∀ (s : State) (d a : Reg) (i : BitVec 15) (h : BitVec 16) (q : BitVec 2),
    let x := s.g a
    let k := 16 * q.toNat
    ∀ p ∈ ([(.addi d a i, BitVec.ofInt 64 (x.toInt + i.toInt)),
        (.ori d a i, BitVec.ofNat 64 (x.toNat ||| i.toNat)),
        (.xori d a i, BitVec.ofNat 64 (x.toNat ^^^ i.toNat)),
        (.slti d a i, if x.toInt < i.toInt then 1 else 0),
        (.movz d h q, word (h.toNat * 2 ^ k)),
        (.movk d h q, word ((s.g d).toNat % 2 ^ k + h.toNat * 2 ^ k + (s.g d).toNat / 2 ^ (k + 16) * 2 ^ (k + 16))),
        (.movn d h q, word (2 ^ 64 - 1 - h.toNat * 2 ^ k)),
        (.addpc d i, word (((s.me.pc.toNat : Int) + 4 * i.toInt) % 2 ^ 18).toNat)] : List (Instr × Word)),
      ∃ t, exec p.1 s = .next t ∧ s.Wrote t d p.2

/-- J and CALL go to (PC + 4k) mod 2^18, JR and CALLR to gA[17:0] when gA[1:0] is zero; CALL links (PC + 4) mod 2^18 in
g31 and CALLR in gD, reading gA first; a branch whose test holds goes to its target and one whose test fails falls
through. No loop register moves on a transfer, and nothing else changes.  (R26, R72, R73, R74) -/
def Obligations.ControlTransfers : Prop :=
  ∀ (s : State) (d a : Reg) (j : BitVec 25) (k : BitVec 16),
    let x := (s.g d).toInt
    let link : Word := word ((s.me.pc.toNat + 4) % 2 ^ 18)
    let near : PC := BitVec.ofInt 18 ((s.me.pc.toNat : Int) + 4 * k.toInt)
    let far : PC := BitVec.ofInt 18 ((s.me.pc.toNat : Int) + 4 * j.toInt)
    (∃ t, exec (.j j) s = .next t ∧ s.Went t 0 0 far) ∧
    (∃ t, exec (.call j) s = .next t ∧ s.Went t 31 link far) ∧
    ((s.g a).toNat % 4 = 0 → ∃ t, exec (.jr a) s = .next t ∧ s.Went t 0 0 (BitVec.ofNat 18 (s.g a).toNat)) ∧
    ((s.g a).toNat % 4 = 0 → ∃ t, exec (.callr d a) s = .next t ∧ s.Went t d link (BitVec.ofNat 18 (s.g a).toNat)) ∧
    ∀ p ∈ ([(.beqz d k, x = 0), (.bnez d k, x ≠ 0), (.bltz d k, x < 0), (.bgez d k, 0 ≤ x), (.bgtz d k, 0 < x),
        (.blez d k, x ≤ 0)] : List (Instr × Prop)),
      ∃ t, exec p.1 s = .next t ∧ (p.2 → s.Went t 0 0 near) ∧ (¬p.2 → s.Passed t)

/-- LOOPS in handler mode or at depth 4 traps UDI with TVAL 2, with a bad END UDI 3, with a misaligned END ALN; a trip
count of 0 skips the body; otherwise the levels move outward, LCNT0 and LEND0 are set and the depth grows. LOOPX goes
past END and pops, or traps UDI 4. In handler mode each of the two raises its UDI as a double trap, which DoubleTraps
states.  (R76, R78) -/
def Obligations.LoopStartAndLeave : Prop :=
  ∀ (s : State) (a b : Reg),
    let c := s.me
    let stop : PC := BitVec.ofNat 18 (s.g b).toNat
    let count : W32 := BitVec.ofNat 32 (s.g a).toNat
    let fits := ¬(stop ≤ c.pc ∨ (0 < c.loops.depth ∧ c.loops.stop[0] < stop))
    (c.mode = .user → c.loops.depth = 4 → ∃ t, exec (.loops a b) s = .next t ∧ s.Trapped t .udi 2 7) ∧
    (c.mode = .user → c.loops.depth < 4 → ¬fits → ∃ t, exec (.loops a b) s = .next t ∧ s.Trapped t .udi 3 7) ∧
    (c.mode = .user → c.loops.depth < 4 → fits → stop.toNat % 4 ≠ 0 →
      ∃ t, exec (.loops a b) s = .next t ∧ s.Trapped t .aln (word stop.toNat) 7) ∧
    (c.mode = .user → c.loops.depth < 4 → fits → stop.toNat % 4 = 0 → count = 0 →
      ∃ t, exec (.loops a b) s = .next t ∧ s.Went t 0 0 (stop + 4)) ∧
    (c.mode = .user → c.loops.depth < 4 → fits → stop.toNat % 4 = 0 → count ≠ 0 →
      ∃ t, exec (.loops a b) s = .next t ∧ t.me.pc = c.pc + 4 ∧ t.me.loops.depth = c.loops.depth + 1 ∧
        t.me.loops.cnt[0] = count ∧ t.me.loops.start[0] = c.pc + 4 ∧ t.me.loops.stop[0] = stop ∧
        (∀ i (h : i < 3), t.me.loops.cnt[i + 1] = c.loops.cnt[i] ∧ t.me.loops.start[i + 1] = c.loops.start[i] ∧
          t.me.loops.stop[i + 1] = c.loops.stop[i]) ∧
        c.Takes t.me 0 0 ∧ c.Keeps t.me ∧ t.me.fpflg = c.fpflg ∧ s.OnlyMe t ∧ s.SameMemory t) ∧
    (c.mode = .user → c.loops.depth = 0 → ∃ t, exec .loopx s = .next t ∧ s.Trapped t .udi 4 7) ∧
    (c.mode = .user → c.loops.depth ≠ 0 →
      ∃ t, exec .loopx s = .next t ∧ t.me.pc = c.loops.stop[0] + 4 ∧ t.me.loops.depth + 1 = c.loops.depth ∧
        (∀ i (h : i < 3), t.me.loops.cnt[i] = c.loops.cnt[i + 1] ∧ t.me.loops.start[i] = c.loops.start[i + 1] ∧
          t.me.loops.stop[i] = c.loops.stop[i + 1]) ∧
        c.Takes t.me 0 0 ∧ c.Keeps t.me ∧ t.me.fpflg = c.fpflg ∧ s.OnlyMe t ∧ s.SameMemory t)

/-- When a word that transfers no control completes in user mode at the END of the innermost loop: with more than one
iteration left, LCNT0 falls by one and PC is START; with one left, the loop is popped, and PC is the next word unless an
enclosing loop ends there too, which is then checked the same way. Stated of ADD, for a loop and for a pair of loops that
share an END.  (R77, R79) -/
def Obligations.LoopEndCheck : Prop :=
  ∀ (s : State) (d a b : Reg),
    let l := s.me.loops
    s.me.mode = .user → l.depth ≠ 0 → s.me.pc = l.stop[0] →
    (1 < l.cnt[0].toNat → ∃ t, exec (.add d a b) s = .next t ∧ t.me.pc = l.start[0] ∧ t.me.loops.depth = l.depth ∧
      t.me.loops.cnt[0].toNat + 1 = l.cnt[0].toNat ∧ t.me.loops.stop = l.stop ∧ t.me.loops.start = l.start) ∧
    (l.cnt[0].toNat ≤ 1 → (l.depth = 1 ∨ s.me.pc ≠ l.stop[1]) →
      ∃ t, exec (.add d a b) s = .next t ∧ t.me.pc = s.me.pc + 4 ∧ t.me.loops.depth + 1 = l.depth ∧
        t.me.loops.stop[0] = l.stop[1] ∧ t.me.loops.cnt[0] = l.cnt[1] ∧ t.me.loops.start[0] = l.start[1]) ∧
    (l.cnt[0].toNat ≤ 1 → 1 < l.depth → s.me.pc = l.stop[1] → 1 < l.cnt[1].toNat →
      ∃ t, exec (.add d a b) s = .next t ∧ t.me.pc = l.start[1] ∧ t.me.loops.depth + 1 = l.depth ∧
        t.me.loops.stop[0] = l.stop[1] ∧ t.me.loops.cnt[0].toNat + 1 = l.cnt[1].toNat)

/-- FADD, FSUB, FMUL, FMAC, FDIV, FSQRT, FCMP and FCVT complete in every state; they read bits 31:0 (FMAC also gD), write
the code of the once-rounded result, zero-extended, OR its flags into FPFLG, and change nothing else.  (R80, R81, R82,
R127, R128) -/
def Obligations.ScalarFloatResults : Prop :=
  ∀ (s : State) (d a b : Reg) (cc : CmpCond) (cv : CvtOp),
    let f (r : Reg) : Machine.Num := fmtF32.decode ((s.g r).toNat % 2 ^ 32)
    (∀ p ∈ ([(.fadd d a b, fmtF32.add (f a) (f b)), (.fsub d a b, fmtF32.sub (f a) (f b)),
        (.fmul d a b, fmtF32.mul (f a) (f b)), (.fmac d a b, fmtF32.fma (f a) (f b) (f d)),
        (.fdiv d a b, fmtF32.div (f a) (f b)), (.fsqrt d a, fmtF32.sqrt (f a))] : List (Instr × Rounded)),
      ∃ t, exec p.1 s = .next t ∧ s.WroteFp t d (word p.2.code) p.2.flags) ∧
    (∃ t, exec (.fcmp cc d a b) s = .next t ∧
      s.WroteFp t d (if fcmpHolds cc (f a) (f b) then 1 else 0) (cmpFlags (fcmpOrdered cc) (f a) (f b))) ∧
    (∃ t, exec (.fcvt cv d a) s = .next t ∧
      s.WroteFp t d (word (fcvtResult cv (s.g a)).code) (fcvtResult cv (s.g a)).flags)

/-- When an operand of FADD, FSUB, FMUL, FDIV or FSQRT is a NaN, the word writes qnan(F32), 0x7FC0_0000, and raises the
invalid flag exactly when an operand is a signalling NaN (quiet-bit 22 clear).  (R80) -/
def Obligations.FloatNaNResults : Prop :=
  ∀ (s : State) (d a b : Reg),
    let nan (r : Reg) : Prop := (s.g r).toNat / 2 ^ 23 % 2 ^ 8 = 255 ∧ (s.g r).toNat % 2 ^ 23 ≠ 0
    let sig (r : Reg) : Bool := decide (nan r) && !(s.g r).getLsbD 22
    d ≠ 0 →
    (nan a ∨ nan b → ∀ i ∈ ([.fadd d a b, .fsub d a b, .fmul d a b, .fdiv d a b] : List Instr),
      ∃ t, exec i s = .next t ∧ t.g d = 0x7FC0_0000 ∧
        t.me.fpflg = s.me.fpflg ||| (if sig a || sig b then flagNV else 0)) ∧
    (nan a → ∃ t, exec (.fsqrt d a) s = .next t ∧ t.g d = 0x7FC0_0000 ∧
      t.me.fpflg = s.me.fpflg ||| (if sig a then flagNV else 0))

/-- Every scalar load whose bytes lie aligned in the core's own scratchpad with nothing in the way completes: the
effective address is gA + sext(IMM11) x size or gA + gB x size, gD takes the little-endian value extended as the mnemonic
says (nothing when D is 0), and nothing else changes.  (R83, R65, R86, R25) -/
def Obligations.ScalarLoads : Prop :=
  ∀ (s : State) (d a b : Reg) (i : BitVec 11) (o : Cls),
    let ea (n : Nat) : Word := BitVec.ofInt 64 (((s.g a).toNat : Int) + n * i.toInt)
    let ix (n : Nat) : Word := word ((s.g a).toNat + n * (s.g b).toNat)
    ∀ p ∈ ([(.ld d a i o, ea 8, 8, false), (.ldS32 d a i o, ea 4, 4, true), (.ldS8 d a b o, ix 1, 1, true),
        (.ldN8 d a b o, ix 1, 1, false), (.ldS16 d a b o, ix 2, 2, true), (.ldN16 d a b o, ix 2, 2, false),
        (.ldN32 d a b o, ix 4, 4, false), (.ldx d a b o, ix 8, 8, false), (.ldAcq d a o, s.g a, 8, false)] :
        List (Instr × Word × Nat × Bool)),
      s.nearOk p.2.1 p.2.2.1 = true →
        let x := leNat (s.peek (s.own p.2.1) p.2.2.1)
        ∃ t, exec p.1 s = .next t ∧
          s.Wrote t d (if p.2.2.2 then BitVec.ofInt 64 ((x : Int).bmod (2 ^ (8 * p.2.2.1))) else word x)

/-- Every scalar store whose bytes lie aligned in the core's own scratchpad with nothing in the way completes: the low 1,
2, 4 or 8 bytes of gD stand at the effective address, little-endian, every other byte of memory reads as before, and no
register, flag or special register changes.  (R83, R65, R86, R333) -/
def Obligations.ScalarStores : Prop :=
  ∀ (s : State) (d a b : Reg) (i : BitVec 11) (o : Cls),
    let ea (n : Nat) : Word := BitVec.ofInt 64 (((s.g a).toNat : Int) + n * i.toInt)
    let ix (n : Nat) : Word := word ((s.g a).toNat + n * (s.g b).toNat)
    s.myCore.spad.wf = true →
    ∀ p ∈ ([(.st d a i o, ea 8, 8), (.stN32 d a i o, ea 4, 4), (.stN8 d a b o, ix 1, 1), (.stN16 d a b o, ix 2, 2),
        (.stx d a b o, ix 8, 8), (.stRel d a o, s.g a, 8)] : List (Instr × Word × Nat)),
      s.nearOk p.2.1 p.2.2 = true →
        ∃ t, exec p.1 s = .next t ∧ s.Stored t (s.own p.2.1) (leBytes p.2.2 (s.g d).toNat) ∧ (s.spadAs t).Wrote t 0 0

/-- In user mode a scalar load, store or atomic at an address that is no multiple of its size takes ALN with TVAL the
address, whatever the address; an aligned one in the scratchpad window at or past the capacity takes XLT; JR and CALLR to
a target with low bits set take ALN. No byte of memory changes. TCAUSE.PATH is S or A, or H in a host aperture.  (R84,
R74, R205, R326) -/
def Obligations.MisalignedAccessTraps : Prop :=
  ∀ (s : State) (d a b : Reg) (i : BitVec 11) (o : Cls) (sem : Sem) (w : Bool),
    let ea (n : Nat) : Word := BitVec.ofInt 64 (((s.g a).toNat : Int) + n * i.toInt)
    let ix (n : Nat) : Word := word ((s.g a).toNat + n * (s.g b).toNat)
    let n := if w then 4 else 8
    let pth (k : Nat) (va : Word) : Nat := if 0x8000_0000_0000 ≤ va.toNat ∧ va.toNat < 2 ^ 48 then 6 else k
    s.me.mode = .user →
    (∀ p ∈ ([(.ld d a i o, ea 8, 8, 0), (.ldS32 d a i o, ea 4, 4, 0), (.ldS16 d a b o, ix 2, 2, 0),
        (.ldN16 d a b o, ix 2, 2, 0), (.ldN32 d a b o, ix 4, 4, 0), (.ldx d a b o, ix 8, 8, 0), (.ldAcq d a o, s.g a, 8, 0),
        (.st d a i o, ea 8, 8, 0), (.stN32 d a i o, ea 4, 4, 0), (.stN16 d a b o, ix 2, 2, 0), (.stx d a b o, ix 8, 8, 0),
        (.stRel d a o, s.g a, 8, 0), (.aadd d a b sem w o, s.g a, n, 5), (.aand d a b sem w o, s.g a, n, 5),
        (.aor d a b sem w o, s.g a, n, 5), (.axor d a b sem w o, s.g a, n, 5), (.amin d a b sem w o, s.g a, n, 5),
        (.amax d a b sem w o, s.g a, n, 5), (.aswp d a b sem w o, s.g a, n, 5), (.acas d a b sem w o, s.g a, n, 5)] :
        List (Instr × Word × Nat × Nat)),
      (p.2.1.toNat % p.2.2.1 ≠ 0 →
        ∃ t, exec p.1 s = .next t ∧ s.Trapped t .aln p.2.1 (pth p.2.2.2 p.2.1)) ∧
      (p.2.1.toNat % p.2.2.1 = 0 → spadBytes s.myCoreIx ≤ p.2.1.toNat → p.2.1.toNat < 0x100_0000 →
        ∃ t, exec p.1 s = .next t ∧ s.Trapped t .xlt p.2.1 p.2.2.2)) ∧
    ((s.g a).toNat % 4 ≠ 0 → ∀ j ∈ ([.jr a, .callr d a] : List Instr),
      ∃ t, exec j s = .next t ∧ s.Trapped t .aln (s.g a) 7)

/-- A scalar atomic of 4 or 8 bytes at an aligned place of the core's own scratchpad with nothing in the way completes:
gD takes the old value, sign-extended from 32 bits, and memory holds the sum, the bitwise result, the lesser or greater
as signed numbers, or gB; ACAS stores gB only where the old value equals gD. Every other byte reads as before.  (R204,
R205, R206) -/
def Obligations.ScalarAtomics : Prop :=
  ∀ (s : State) (d a b : Reg) (sem : Sem) (w : Bool) (o : Cls),
    let n := if w then 4 else 8
    let m := 2 ^ (8 * n)
    let old := leNat (s.peek (s.own (s.g a)) n)
    let x := (s.g b).toNat % m
    let c := (s.g d).toNat % m
    let sg (v : Nat) : Int := (v : Int).bmod m
    s.myCore.spad.wf = true → s.nearOk (s.g a) n = true →
    ∀ p ∈ ([(.aadd d a b sem w o, some ((old + x) % m)), (.aand d a b sem w o, some (old &&& x)),
        (.aor d a b sem w o, some (old ||| x)), (.axor d a b sem w o, some (old ^^^ x)),
        (.amin d a b sem w o, some (if sg old ≤ sg x then old else x)),
        (.amax d a b sem w o, some (if sg x ≤ sg old then old else x)),
        (.aswp d a b sem w o, some x), (.acas d a b sem w o, if old = c then some x else none)] :
        List (Instr × Option Nat)),
      ∃ t, exec p.1 s = .next t ∧ (s.spadAs t).Wrote t d (if w then BitVec.ofInt 64 (sg old) else word old) ∧
        match p.2 with
        | some v => s.Stored t (s.own (s.g a)) (leBytes n v)
        | none => s.SameMemory t

/-- With target, operand and (when D is not 0) the place of the old values aligned to 32 bytes in the own scratchpad and
nothing in the way: VAADD, VAMIN and VAMAX store the elementwise result at gA and the old bytes at gD, every other byte
as before; REDADD, REDMIN and REDMAX complete at once and post one flit that carries the operand bytes, and change no
memory.  (R207, R208, R209) -/
def Obligations.VectorAtomicsAndReductions : Prop :=
  ∀ (s : State) (d a b : Reg) (sem : Sem) (ty : AtomType) (o : Cls),
    let old := s.peek (s.own (s.g a)) 32
    let x := s.peek (s.own (s.g b)) 32
    s.myCore.spad.wf = true → s.nearOk (s.g a) 32 = true → s.nearOk (s.g b) 32 = true →
    (∀ p ∈ ([(.vaadd d a b sem ty o, 0), (.vamin d a b sem ty o, 1), (.vamax d a b sem ty o, 2)] : List (Instr × Nat)),
      (d = 0 → ∃ t, exec p.1 s = .next t ∧ (s.spadAs t).Wrote t 0 0 ∧
        s.Stored t (s.own (s.g a)) (atomVector p.2 ty old x)) ∧
      (d ≠ 0 → s.nearOk (s.g d) 32 = true → s.g d ≠ s.g a →
        ∃ t, exec p.1 s = .next t ∧ (s.spadAs t).Wrote t 0 0 ∧
          t.peek (s.own (s.g a)) 32 = atomVector p.2 ty old x ∧ t.peek (s.own (s.g d)) 32 = old ∧
          ∀ l, (∀ j, j < 32 → l ≠ (s.own (s.g a)).add j ∧ l ≠ (s.own (s.g d)).add j) → t.peek l 1 = s.peek l 1)) ∧
    ∀ p ∈ ([(.redadd a b ty o, 0), (.redmin a b ty o, 1), (.redmax a b ty o, 2)] : List (Instr × Nat)),
      ∃ t, exec p.1 s = .next t ∧ t.flits =
          [⟨s.serial, s.focus, 0, .a, o, (s.g a).toNat, s.own (s.g a), x, some (p.2, ty), none, none, s.myDieIx, 0, s.myDieIx, 0, 1, .write, 0, false⟩] ∧
        State.Wrote { s with flits := t.flits, serial := s.serial + 1 } t 0 0 ∧ s.SameMemory t

/-- FENCE completes its issue in every state: it is put last among the fences of its cluster with the next number, its PC
and its loops, makes the switches forward the reduction entries of its cluster where it names A at DOM or wider, and
changes no register or memory. FENCE_COMPLETE on a fence that has met no cause and has nothing left to wait for removes
it, makes FPX pending with FPFLG AND FPXEN when the record that executed it still runs and these flags are not zero, and,
where it names the path C, settles the instruction words that copies wrote before it, and, where it names S or A, puts
the writes to send windows that it names before the later accesses of its cluster; no memory changes. While something is
left it does nothing. Model's choices: that FENCE issues at once and traps at its own PC only while no later word has
issued is log 10 (R216, R218); that it settles words whatever its class mask is log 60 (R29 against R49).  (R215, R216,
R217, R218, R29, R129) -/
def Obligations.FenceIssueAndCompletion : Prop :=
  (∀ (s : State) (paths : BitVec 6) (scope : Scope) (mask : BitVec 16),
    let f : Fence := ⟨s.serial, scope, paths, mask, s.me.pc, s.me.loops, false, s.me.mode⟩
    ∃ t, exec (.fence paths scope mask) s = .next t ∧ t.me.fences.map Fence.seq = s.me.fences.map Fence.seq ++ [s.serial] ∧
      t.me.fences.getLast? = some f ∧ (∀ g ∈ t.me.fences.dropLast, g.passed = true) ∧ s.me.Takes t.me 0 0 ∧
      s.me.Follows t.me ∧ t.me.fpflg = s.me.fpflg ∧ t.me.mode = s.me.mode ∧ t.me.remote = s.me.remote ∧
      t.merges = s.merges.map (fun m =>
        if (scope = .dom ∨ scope = .sys) ∧ paths.getLsbD 5 = true ∧ mask ≠ 0 ∧ (∃ x ∈ m.from_, x.1 = s.focus) then
          { m with forwarded := true } else m) ∧
      t = { s.setCluster s.focus t.me with note := .done, serial := s.serial + 1, merges := t.merges } ∧ s.SameMemory t) ∧
  (∀ (s : State) (cl : CluIx) (f : Fence),
    (s.cluster cl).fences.find? (fun g => g.seq = f.seq) = some f → (s.core (coreOf cl)).fenceCauses cl f = [] →
    (s.fenceDone cl f = false → exec (.fenceComplete cl f.seq) s = .next { s with note := .waited }) ∧
    (s.fenceDone cl f = true →
      let x := s.cluster cl
      let v := x.fpflg &&& x.fpxen
      ∃ t, exec (.fenceComplete cl f.seq) s = .next t ∧ t = { s.setCluster cl (t.cluster cl) with dies := t.dies } ∧
        t.dies = (s.windowsFenced cl f).dies ∧
        (t.cluster cl).fences = x.fences.filter (fun g => g.seq != f.seq) ∧
        (x.runs f.seq = true → v ≠ 0 → (t.cluster cl).pend = x.pend.filter (fun p => p.cause != .fpx) ++ [⟨.fpx, v.setWidth 64, noPath⟩]) ∧
        ((x.runs f.seq = false ∨ v = 0) → (t.cluster cl).pend = x.pend) ∧ (t.cluster cl).fpflg = x.fpflg ∧
        (f.paths.getLsbD 3 = true → ∀ y ∈ (t.cluster cl).stale, y ∈ x.stale ∧ f.seq < y.landed) ∧
        (f.paths.getLsbD 3 = false → (t.cluster cl).stale = x.stale) ∧ (t.cluster cl).regs = x.regs ∧ (t.cluster cl).pc = x.pc ∧
        s.SameMemory t))

/-- On the barrier that the K and A fields name: a cluster that is no member joins; a member leaves, arrives by BARA, or
arrives and waits by BARV; the phase advances and arrivals clear exactly when the last member arrives; BARA and BARV
answer the phase arrived in, BARV as it arrives; an arrival waits for what R98 has it wait for, the posted accesses and
open fences of its cluster; a BARV that has arrived waits while the phase stands; BWAIT waits while PHASE is gB[15:0] and
passes when it is not. Each that completes is a delivery point. A member that has arrived leaves by BLEAVE without a
second arrival. Misuse raises BAR with the reason of R97: no home core 5, no member 1, a second arrival 2, a member that
joins 3, a second leave 4. No memory changes.  (R95, R96, R97, R98, R99, R100, R129) -/
def Obligations.BarrierInstructions : Prop :=
  (∀ (s : State) (k : BitVec 7) (d a b : Reg), s.me.mode = .user → s.homeCore a = none → s.me.barvWait = none →
    ∀ i ∈ ([.bjoin k a, .bleave k a, .bara d k a, .barv d k a, .bwait k a b] : List Instr),
      ∃ t, exec i s = .next t ∧ s.Trapped t .bar 5 7) ∧
  ∀ (s : State) (k : BitVec 7) (d a b : Reg) (h : CoreIx),
    let x := (s.core h).bar k.toNat
    let me := s.focus
    let bad (i : Instr) (v : Word) : Prop := s.me.mode = .user → ∃ t, exec i s = .next t ∧ s.Trapped t .bar v 7
    let on (f : Barrier → Barrier) : State := s.modCore h fun c => c.modBar k.toNat f
    let last : Bool := x.arrived.length + 1 == x.members.length
    let done (leave : List CluIx) (y : Barrier) : Barrier :=
      { y with phase := y.phase + 1, members := y.members.filter (fun c => !leave.contains c), arrived := [], leaving := [] }
    s.homeCore a = some h →
    (me ∉ x.members → ∃ t, exec (.bjoin k a) s = .next t ∧
      (on fun y => { y with members := y.members ++ [me] }).Delivered t 0 0 ∧ s.SameMemory t) ∧
    (me ∈ x.members → me ∉ x.leaving → me ∉ x.arrived → s.arrivalWaits = false →
      ∃ t, exec (.bleave k a) s = .next t ∧ s.SameMemory t ∧
        (on fun y => if last then done (y.leaving ++ [me]) y
          else { y with leaving := y.leaving ++ [me], arrived := y.arrived ++ [me] }).Delivered t 0 0) ∧
    (me ∈ x.members → me ∉ x.leaving → me ∈ x.arrived → x.arrived.length ≠ x.members.length → s.arrivalWaits = false →
      ∃ t, exec (.bleave k a) s = .next t ∧ s.SameMemory t ∧
        (on fun y => { y with leaving := y.leaving ++ [me] }).Delivered t 0 0) ∧
    (me ∈ x.members → bad (.bjoin k a) 3) ∧ (me ∉ x.members → bad (.bleave k a) 1 ∧ bad (.bara d k a) 1) ∧
    (me ∈ x.members → me ∈ x.leaving → bad (.bleave k a) 4) ∧ (me ∈ x.members → me ∈ x.arrived → bad (.bara d k a) 2) ∧
    (s.me.barvWait = none → (me ∉ x.members → bad (.barv d k a) 1) ∧ (me ∈ x.members → me ∈ x.arrived → bad (.barv d k a) 2)) ∧
    (me ∉ x.members → s.me.waiting = false → bad (.bwait k a b) 1) ∧
    (me ∈ x.members → me ∉ x.arrived → s.arrivalWaits = false →
      ∃ t, exec (.bara d k a) s = .next t ∧ s.SameMemory t ∧
        (on fun y => if last then done y.leaving y else { y with arrived := y.arrived ++ [me] }).Delivered t d
          (x.phase.setWidth 64)) ∧
    (s.me.barvWait = none → me ∈ x.members → me ∉ x.arrived → s.arrivalWaits = false → last = true →
      ∃ t, exec (.barv d k a) s = .next t ∧ s.SameMemory t ∧
        (on fun y => done y.leaving y).Delivered t d (x.phase.setWidth 64)) ∧
    (s.me.barvWait = none → me ∈ x.members → me ∉ x.arrived → s.arrivalWaits = false → last = false →
      ∃ t, exec (.barv d k a) s = .next t ∧ s.SameMemory t ∧ t.me.pc = s.me.pc ∧ t.me.waiting = true ∧
        t.me.barvWait = some ⟨h, k.toNat, x.phase, s.me.pc⟩ ∧ s.me.Takes t.me d (x.phase.setWidth 64) ∧
        ((t.core h).bar k.toNat).arrived = x.arrived ++ [me] ∧ ((t.core h).bar k.toNat).phase = x.phase) ∧
    (∀ w, s.me.barvWait = some w → ((s.core w.core).bar w.k).phase ≠ w.phase →
      ∃ t, exec (.barv d k a) s = .next t ∧ s.Delivered t 0 0) ∧
    (s.arrivalWaits = (s.postedAt me false || s.me.fences.any fun f => f.paths &&& 0b011110 != 0 && f.mask != 0)) ∧
    (s.arrivalWaits = true → me ∈ x.members →
      (me ∉ x.leaving → exec (.bleave k a) s = .next s.stall) ∧ (me ∉ x.arrived → exec (.bara d k a) s = .next s.stall) ∧
      (me ∉ x.arrived → s.me.barvWait = none → exec (.barv d k a) s = .next s.stall)) ∧
    (me ∈ x.members → x.phase ≠ (s.g b).setWidth 16 → ∃ t, exec (.bwait k a b) s = .next t ∧ s.Delivered t 0 0) ∧
    (let waits (i : Instr) : Prop := ∃ t, exec i s = .next t ∧ t.me.pc = s.me.pc ∧ t.me.waiting = true ∧ t.me.regs = s.me.regs ∧
       t.me.bank = s.me.bank ∧ t.me.pend = s.me.pend ∧ t = { s.setCluster me t.me with note := .waited } ∧ s.SameMemory t
     (me ∈ x.members → x.phase = (s.g b).setWidth 16 → waits (.bwait k a b)) ∧
     (∀ w, s.me.barvWait = some w → ((s.core w.core).bar w.k).phase = w.phase → waits (.barv d k a)))

/-- On ring k of the issuing core: RCFG sets an idle ring that no queued command names; RCLAIM and RCLAIMT claim CLM when
CLM - TAIL < COUNT and nobody waits before (RCLAIMT also when fewer wait than slots are free), answer the slot's address
and count CLM on; RCLAIMT answers all ones when no slot is free; RFILL and RREL set a slot's bit and advance HEAD or TAIL
over the unbroken run, and wait while a FENCE of the cluster that names V, M or C is open, RFILL also for its posted
accesses (R94); RAWAIT and RAWAITT answer a filled slot's address, RAWAITT all ones for an unfilled one in reach; RSTAT
reports. RCLAIM without a free slot waits as the last of the ring's waiters, and RAWAIT on an unfilled sequence in reach
waits (R93). Misuse raises RNG with the reason of R92: 1 to 6. No other register and no memory changes.  (R89, R90, R91,
R92, R93, R94) -/
def Obligations.RingInstructions : Prop :=
  ∀ (s : State) (k : BitVec 6) (d a : Reg),
    let r := s.myCore.ring k.toNat
    let count := 2 ^ (r.cfg.toNat / 2 ^ 23 % 16)
    let size := 128 * (r.cfg.toNat / 2 ^ 27 % 2 ^ 13)
    let addr (n : BitVec 16) : Word := word (r.cfg.toNat / 2 ^ 40 + n.toNat % count * size)
    let on (f : Ring → Ring) : State := s.modMyCore fun c => c.modRing k.toNat f
    let n : BitVec 16 := BitVec.ofNat 16 (s.g a).toNat
    let covered : Bool := s.me.fences.any fun f => f.paths &&& 0b001110 != 0 && f.mask != 0
    let bad (i : Instr) (v : Word) : Prop := s.me.mode = .user → ∃ t, exec i s = .next t ∧ s.Trapped t .rng v 7
    (ringCfgOk (spadBytes s.myCoreIx) (s.g a) = true → r.clm = r.tail → s.ringNamed s.myCoreIx k.toNat = false →
      ∃ t, exec (.rcfg k a) s = .next t ∧
        (on fun y => ⟨s.g a, 0, 0, 0, 0, 0, y.waiters⟩).Wrote t 0 0 ∧ s.SameMemory t) ∧
    (∃ t, exec (.rstat d k) s = .next t ∧ s.Wrote t d
      (word (r.clm.toNat * 2 ^ 48 + r.head.toNat * 2 ^ 32 + r.tail.toNat * 2 ^ 16 + r.cfg.toNat % 2))) ∧
    (bit r.cfg 0 = true → r.waiters = [] → (r.clm - r.tail).toNat < count →
      ∀ i ∈ ([.rclaim d k, .rclaimt d k] : List Instr),
        ∃ t, exec i s = .next t ∧ (on fun y => { y with clm := y.clm + 1 }).Wrote t d (addr r.clm) ∧ s.SameMemory t) ∧
    (bit r.cfg 0 = true → (r.clm - r.tail).toNat + r.waiters.length < count →
      ∃ t v, exec (.rclaimt d k) s = .next t ∧ t.g d = (if d = 0 then 0 else addr r.clm) ∧ s.SameMemory t ∧
        ((t.core s.myCoreIx).ring k.toNat) = { r with clm := r.clm + 1, waiters := v }) ∧
    (bit r.cfg 0 = true → count ≤ (r.clm - r.tail).toNat →
      ∃ t, exec (.rclaimt d k) s = .next t ∧ s.Wrote t d 0xFFFF_FFFF_FFFF_FFFF) ∧
    (bit r.cfg 0 = true → count ≤ (r.clm - r.tail).toNat → s.me.since = 0 →
      ∃ t, exec (.rclaim d k) s = .next t ∧ t.note = .waited ∧ t.me.pc = s.me.pc ∧ t.me.regs = s.me.regs ∧ t.me.bank = s.me.bank ∧
        t.me.waiting = true ∧ t.me.since = s.serial + 1 ∧ s.SameMemory t ∧
        (t.core s.myCoreIx).ring k.toNat =
          { r with waiters := r.waiters.filter (s.stillWaits s.myCoreIx) ++ [.cluster s.focus (s.serial + 1)] }) ∧
    (bit r.cfg 0 = true → (n - r.tail).toNat < count → (r.head - r.tail).toNat ≤ (n - r.tail).toNat →
      exec (.rawait d k a) s = .next { s.setCluster s.focus { s.me with waiting := true } with note := .waited }) ∧
    (ringCfgOk (spadBytes s.myCoreIx) (s.g a) = false → bad (.rcfg k a) 2) ∧
    (ringCfgOk (spadBytes s.myCoreIx) (s.g a) = true → r.clm ≠ r.tail ∨ s.ringNamed s.myCoreIx k.toNat = true → bad (.rcfg k a) 3) ∧
    (bit r.cfg 0 = false → ∀ i ∈ ([.rclaim d k, .rclaimt d k, .rfill k a, .rawait d k a, .rawaitt d k a, .rrel k a] : List Instr),
      bad i 1) ∧
    (bit r.cfg 0 = true → (∀ q, r.seqAt (s.g a) r.head (r.clm - r.head).toNat = some q → r.canFill q = false) → bad (.rfill k a) 4) ∧
    (bit r.cfg 0 = true → count ≤ (n - r.tail).toNat → s.me.waiting = false → bad (.rawait d k a) 5 ∧ bad (.rawaitt d k a) 5) ∧
    (bit r.cfg 0 = true → (∀ q, r.seqAt (s.g a) r.tail (r.head - r.tail).toNat = some q → r.canRelease q = false) →
      bad (.rrel k a) 6) ∧
    (∀ q, bit r.cfg 0 = true → r.seqAt (s.g a) r.head (r.clm - r.head).toNat = some q → r.canFill q = true →
      (s.postedAt s.focus false = false → covered = false →
        ∃ t, exec (.rfill k a) s = .next t ∧ (on fun y => y.doFill q).Wrote t 0 0 ∧ s.SameMemory t) ∧
      (s.postedAt s.focus false = true ∨ covered = true → exec (.rfill k a) s = .next s.stall)) ∧
    (bit r.cfg 0 = true → (n - r.tail).toNat < count → (n - r.tail).toNat < (r.head - r.tail).toNat →
      ∀ i ∈ ([.rawait d k a, .rawaitt d k a] : List Instr), ∃ t, exec i s = .next t ∧ s.Wrote t d (addr n)) ∧
    (bit r.cfg 0 = true → (n - r.tail).toNat < count → (r.head - r.tail).toNat ≤ (n - r.tail).toNat →
      ∃ t, exec (.rawaitt d k a) s = .next t ∧ s.Wrote t d 0xFFFF_FFFF_FFFF_FFFF) ∧
    (∀ q, bit r.cfg 0 = true → r.seqAt (s.g a) r.tail (r.head - r.tail).toNat = some q → r.canRelease q = true →
      (covered = false → ∃ t, exec (.rrel k a) s = .next t ∧ (on fun y => y.doRelease q).Wrote t 0 0 ∧ s.SameMemory t) ∧
      (covered = true → exec (.rrel k a) s = .next s.stall))

/-- A fill of the sequence at HEAD moves HEAD by m, the length from 1 to COUNT of the unbroken run of filled slots that
begins there, clears the marks of these m slots and no other; a fill elsewhere only marks its slot. The same holds of a
release and TAIL. The claim count, the configuration and the other pointer stay.  (R91) -/
def Obligations.RingRunAdvances : Prop :=
  ∀ (r : Ring) (n : BitVec 16), r.count ≤ 256 →
    let place (i : Nat) : Nat := r.slot (n + BitVec.ofNat 16 i)
    let run (b : BitVec 256) (m : Nat) : Prop := 1 ≤ m ∧ m ≤ r.count ∧ (∀ i, 1 ≤ i → i < m → b.getLsbD (place i) = true) ∧
      (m < r.count → b.getLsbD (place m) = false)
    (∀ m, r.head = n → run r.fill m →
      (r.doFill n).head = n + BitVec.ofNat 16 m ∧ (∀ i < m, (r.doFill n).fill.getLsbD (place i) = false) ∧
      ∀ j, (∀ i < m, j ≠ place i) → (r.doFill n).fill.getLsbD j = r.fill.getLsbD j) ∧
    (r.fill.getLsbD (r.slot r.head) = false → r.slot r.head ≠ r.slot n →
      (r.doFill n).head = r.head ∧ (r.doFill n).fill.getLsbD (r.slot n) = true ∧
      ∀ j, j ≠ r.slot n → (r.doFill n).fill.getLsbD j = r.fill.getLsbD j) ∧
    (∀ m, r.tail = n → run r.rel m →
      (r.doRelease n).tail = n + BitVec.ofNat 16 m ∧ (∀ i < m, (r.doRelease n).rel.getLsbD (place i) = false) ∧
      ∀ j, (∀ i < m, j ≠ place i) → (r.doRelease n).rel.getLsbD j = r.rel.getLsbD j) ∧
    (r.rel.getLsbD (r.slot r.tail) = false → r.slot r.tail ≠ r.slot n →
      (r.doRelease n).tail = r.tail ∧ (r.doRelease n).rel.getLsbD (r.slot n) = true ∧
      ∀ j, j ≠ r.slot n → (r.doRelease n).rel.getLsbD j = r.rel.getLsbD j) ∧
    (r.doFill n).clm = r.clm ∧ (r.doFill n).cfg = r.cfg ∧ (r.doFill n).tail = r.tail ∧
    (r.doRelease n).clm = r.clm ∧ (r.doRelease n).cfg = r.cfg ∧ (r.doRelease n).head = r.head

/-- In user mode: CREC reads a word of the record; EXIT leaves the cluster idle with no record and no loops, and of its
pending causes only SQE and ECU, which units raise whether or not it holds a record (R52, R170, R269), after a decrement
where the record has a JOIN; SPAWN pushes its record to the store (0, or 1 when full) or into the ring of an ACTIVE
device slot (0; 1 when full, 2 for another slot, 4 where the entry cannot be written); JSET arms a block (0; 1 without a
free entry, 3 when it is live); JDEC answers the old count, stores one less, and at 1 pushes the block's record into the
reserved or a free entry; YIELD gives way when a candidate waits and an entry is free, and otherwise only goes to PC + 4
with the loops as they are. In handler mode each raises UDI, which is there a double trap. Model's choices: that such a
YIELD makes no end check is log 65 (R77 against R263); that an idle cluster keeps its open fences, and that EXIT and a
YIELD that gives way wait for an open FENCE while FPXEN is set, is log 10.  (R245, R255, R256, R257, R258, R259, R260,
R261, R262, R263, R264) -/
def Obligations.ContinuationWords : Prop :=
  ∀ (s : State) (d a b : Reg) (o : Cls),
    let dx := s.myDieIx
    let r := s.recordAt (s.g a)
    let push (x : Record) : State := s.modDie dx fun y => { y with store := y.store ++ [⟨x, s.myCore.secure, y.now, 0⟩] }
    let idle (t : State) : Prop := t.me.record = none ∧ t.me.taken = none ∧ t.me.loops = Loops.reset ∧
      t.me.fences.map Fence.seq = s.me.fences.map Fence.seq ∧ t.me.pend = s.me.pend.filter (fun p => p.cause == .sqe || p.cause == .ecu) ∧ t.me.mode = .user ∧ t.me.regs = s.me.regs ∧ s.focus ∉ t.runq ∧ t.note = .done
    let one (l : Loc) (va : Word) : State := (s.store l (leBytes 4 0)).joinPush s.myCoreIx l va
    (s.me.mode = .handler → ∀ i ∈ ([.crec d 0, .exit o, .spawn d a b o, .jset d a b o, .jdec d a o, .yield a o] : List Instr),
      ∃ t, exec i s = .next t ∧ t.me.stopped = true ∧ t.me.record = none ∧ t =
        { (s.setCluster s.focus t.me).log dx 11 (causeWord false s.bundling 7 .udi).toNat 0 s.me.lid with note := .trapped }) ∧
    (∀ (u : State) (k : CoreIx) (l : Loc) (v : Word), u.badWords (l.add 32) 32 = [] →
      ((∃ e x, l = .hub e x) ∨ ∃ j x, l = .spad j x) →
      let e := dieOf k
      let y := u.die e
      let t := u.joinPush k l v
      let rec_ : Ready := ⟨recordOf (u.peek (l.add 32) 32), (u.core k).secure, y.now, 0⟩
      (l ∈ y.resv → (t.die e).store = y.store ++ [rec_] ∧ (t.die e).resv = dropFirst (· == l) y.resv) ∧
      (l ∉ y.resv → y.freeEntries ≠ 0 → (t.die e).store = y.store ++ [rec_] ∧ (t.die e).resv = y.resv) ∧
      (l ∉ y.resv → y.freeEntries = 0 → (t.die e).store = y.store ∧ (t.die e).badrec = min (y.badrec + 1) (2 ^ 32 - 1)) ∧
      ∀ c, t.cluster c = u.cluster c) ∧
    (s.me.mode = .user →
    (∀ rec, s.me.record = some rec → ∀ p ∈ ([(0, rec.w0), (1, rec.w1), (2, rec.w2), (3, rec.w3)] : List (BitVec 5 × Word)),
      ∃ t, exec (.crec d p.1) s = .next t ∧ s.Wrote t d p.2) ∧
    (∀ rec, s.me.record = some rec → s.me.dual = none → s.me.fpOpen = false → rec.w2 = 0 →
      ∃ t, exec (.exit o) s = .next t ∧ idle t ∧ s.SameMemory t ∧ (∀ c, c ≠ s.focus → t.cluster c = s.cluster c)) ∧
    (∀ rec l, s.me.record = some rec → s.me.dual = none → s.me.fpOpen = false → rec.w2 ≠ 0 → s.joinErrs rec.w2 = ([], .ok l, s) →
      s.atomWaits l 8 .a o true = false → s.badUnits l 8 = [] →
      let n := leNat (s.peek l 4)
      let u := if n = 0 then s else if n = 1 then one l rec.w2 else s.store l (leBytes 4 (n - 1))
      ∃ t, exec (.exit o) s = .next t ∧ idle t ∧ t = { u.setCluster s.focus t.me with runq := t.runq, note := .done }) ∧
    (s.recordErrs (s.g a) = [] → (s.g b).toNat = 16 → s.pushWaits (s.g a) o = false → (s.die dx).freeEntries ≠ 0 →
      ∃ t, exec (.spawn d a b o) s = .next t ∧ (push r).Wrote t d 0 ∧ s.SameMemory t) ∧
    (s.recordErrs (s.g a) = [] → (s.g b).toNat = 16 → s.pushWaits (s.g a) o = false → (s.die dx).freeEntries = 0 →
      ∃ t, exec (.spawn d a b o) s = .next t ∧ s.Wrote t d 1) ∧
    (∀ q, (s.g b).toNat = q → q < 16 → s.recordErrs (s.g a) = [] → s.pushWaits (s.g a) o = false →
      let sl := (s.die dx).slot q
      let entry := sl.rbase.toNat + 32 * (sl.tail.toNat % 2 ^ sl.logn)
      let wr := s.schedWrite sl.core s.myCore.secure entry r.bytes true
      ((sl.st ≠ .active ∨ sl.devq = false) → ∃ t, exec (.spawn d a b o) s = .next t ∧ s.Wrote t d 2) ∧
      (sl.st = .active → sl.devq = true → (sl.tail - sl.head).toNat = 2 ^ sl.logn →
        ∃ t, exec (.spawn d a b o) s = .next t ∧ s.Wrote t d 1) ∧
      (sl.st = .active → sl.devq = true → (sl.tail - sl.head).toNat ≠ 2 ^ sl.logn → (wr.2.die dx).schedMiss = false →
        s.me.gated (pathOf .a entry) o = false →
        (∀ p, (s.schedPlace sl.core s.myCore.secure .write entry 32 true).1 = some p →
          s.ownPending s.focus (pathOf .a entry) o p.1 32 = false ∧ s.reductionOpen s.focus p.1 32 = false) →
        (∀ u, wr = (true, u) → ∃ t, exec (.spawn d a b o) s = .next t ∧
          (u.modSlot dx q fun y => y.advanceTail (u.die dx).now (y.tail + 1)).Wrote t d 0 ∧
          (q < 16 → ((t.die dx).slot q).tail = ((u.die dx).slot q).tail + 1)) ∧
        (∀ u, wr = (false, u) → ∃ t, exec (.spawn d a b o) s = .next t ∧ (u.logSched dx (word entry) r.lid sl.qnum).Wrote t d 4))) ∧
    (∀ l, s.joinErrs (s.g a) = ([], .ok l, s) → s.atomWaits l 8 .a o true = false → s.badUnits l 8 = [] →
      let n := leNat (s.peek l 4)
      let u := if n = 0 then s else if n = 1 then one l (s.g a) else s.store l (leBytes 4 (n - 1))
      ∃ t, exec (.jdec d a o) s = .next t ∧ s.me.Takes t.me d (word n) ∧ s.me.Follows t.me ∧ s.me.Keeps t.me ∧
        t = { u.setCluster s.focus t.me with note := .done }) ∧
    (∀ l, s.joinErrs (s.g a) = ([], .ok l, s) → s.recordErrs (s.g b) = [] → s.pushWaits (s.g b) o = false →
      s.atomWaits l 64 .a o true = false → s.badUnits l 8 = [] → 0 < (s.g d).toNat → (s.g d).toNat < 2 ^ 32 →
      (s.die dx).freeEntries ≠ 0 → leNat (s.peek l 4) = 0 →
      ∃ t, exec (.jset d a b o) s = .next t ∧ t.g d = 0 ∧
        t = { (((s.modDie dx fun y => { y with resv := y.resv ++ [l] }).store (l.add 32) (s.recordAt (s.g b)).bytes).store l
          (leBytes 8 (s.g d).toNat)).setCluster s.focus t.me with note := .done }) ∧
    (∀ l, s.joinErrs (s.g a) = ([], .ok l, s) → s.recordErrs (s.g b) = [] → s.pushWaits (s.g b) o = false →
      s.atomWaits l 64 .a o true = false → s.badUnits l 8 = [] → 0 < (s.g d).toNat → (s.g d).toNat < 2 ^ 32 →
      (s.die dx).freeEntries ≠ 0 → leNat (s.peek l 4) ≠ 0 →
      ∃ t, exec (.jset d a b o) s = .next t ∧ s.Wrote t d 3) ∧
    (∀ l, s.joinErrs (s.g a) = ([], .ok l, s) → s.recordErrs (s.g b) = [] → s.pushWaits (s.g b) o = false →
      s.atomWaits l 64 .a o true = false → 0 < (s.g d).toNat → (s.g d).toNat < 2 ^ 32 → (s.die dx).freeEntries = 0 →
      ∃ t, exec (.jset d a b o) s = .next t ∧ s.Wrote t d 1) ∧
    (∀ rec, s.me.record = some rec → a ≠ 0 → s.recordErrs (s.g a) = [] → s.pushWaits (s.g a) o = false →
      (s.waitingAt rec.prio = false ∨ s.myDie.freeEntries = 0 → ∃ t, exec (.yield a o) s = .next t ∧ s.Passed t ∧
        t.me.pc = s.me.pc + 4 ∧ t.me.loops = s.me.loops) ∧
      (s.waitingAt rec.prio = true → s.myDie.freeEntries ≠ 0 → s.me.fpOpen = false →
        ∃ t, exec (.yield a o) s = .next t ∧ idle t ∧ (t.die dx).store = ((push r).die dx).store ∧ s.SameMemory t)))

/-- Each of the 32 vector words whose COUNT is not zero, whose operands pass the checks of R139 and lie in regions open
to the core's world, and for which there is room and no fence in the way, enters the queue as one command that names its
operands, its class and its cluster, and takes the next number; with a ring destination it claims the slot first, when
the ring grants one. With COUNT = 0 the word has no effect. No register and no byte of memory changes at issue.  (R137,
R139, R142, R143) -/
def Obligations.VectorWordsQueue : Prop :=
  ∀ (s : State) (i : Bool) (o : Cls) (a b : Reg) (ty : ElemType),
    let x := s.g a
    let y := s.g b
    ∀ p ∈ ([(.vadd i o a b ty, .add, i), (.vsub i o a b ty, .sub, i), (.vmul i o a b ty, .mul, i), (.vmac i o a b ty, .mac, i),
        (.vmin i o a b ty, .min, i), (.vmax i o a b ty, .max, i), (.vabs o a b ty, .abs, false), (.vneg o a b ty, .neg, false),
        (.vscale o a b ty, .scale, true), (.vexp o a b ty, .exp, false), (.vlog o a b ty, .log, false),
        (.vrcp o a b ty, .rcp, false), (.vrsqrt o a b ty, .rsqrt, false), (.vtanh o a b ty, .tanh, false),
        (.vsigm o a b ty, .sigm, false), (.vcvt o a b ty, .cvt, false), (.vcvtz o a b ty, .cvtz, false),
        (.vsum o a b ty, .sum, false), (.vrmax o a b ty, .rmax, false), (.vdot o a b ty, .dot, false),
        (.vcmpeq i o a b ty, .cmpeq, i), (.vcmplt i o a b ty, .cmplt, i), (.vcmple i o a b ty, .cmple, i),
        (.vsel i o a b ty, .sel, i), (.vand i o a b ty, .and, i), (.vor i o a b ty, .or, i), (.vxor i o a b ty, .xor, i),
        (.vshl i o a b ty, .shl, i), (.vshr i o a b ty, .shr, i), (.vcopy o a b ty, .copy, false),
        (.vfill i o a b ty, .fill, i), (.vpred o a b ty, .pred, false)] : List (Instr × VecOp × Bool)),
      let v := s.vecArgs p.2.1 p.2.2 ty x y
      let enter (u : State) : State :=
        (u.modMyCore fun z => { z with vq := z.vq ++ [{
          seq := u.serial, cl := u.focus, cls := o, kind := .vec p.2.1 p.2.2 ty, ga := x, gb := y
          dst := v.dst.base.getD 0, s1 := v.s1.base.getD 0, s2 := v.s2.base.getD 0, dring := v.dst.ring
          aring := if usesFirst p.2.1 p.2.2 then v.s1.ring else none
          bring := if usesSecond p.2.1 p.2.2 then v.s2.ring else none
          exempt := u.exemptNow u.myCoreIx, started := false, writes := [], flags := 0, value := 0 }] }).tick
      (bits x 24 16 = 0 → ∃ t, exec p.1 s = .next t ∧ s.Passed t) ∧
      (∀ u, bits x 24 16 ≠ 0 → s.spadBarred s.myCoreIx v.ranges = (none, u) → v.check (spadBytes s.myCoreIx) none = none →
        u.myCore.vq.length < 32 → (u.myCore.vq.filter fun c => c.cl == u.focus).length < 8 → u.me.gated .v o = false →
        (v.dst.ring = none →
          ∃ t, exec p.1 s = .next t ∧ (enter u).Passed t ∧ u.SameMemory t) ∧
        (∀ r, v.dst.ring = some r → u.ringGrants u.myCoreIx r.k u.myWaiter = true →
          ∃ t, exec p.1 s = .next t ∧ (enter (u.ringClaim u.myCoreIx r.k u.myWaiter).2).Passed t ∧ u.SameMemory t)) ∧
      ((s.myCore.secure = true ∨ bit s.myDie.wmapb 0 = false) → s.spadBarred s.myCoreIx v.ranges = (none, s))

/-- In user mode each of the 32 vector words, with COUNT not zero, whose operands fail a check takes the trap of that
check with its value, VLCA and VLCB take gA and gB, and nothing is queued: where bases are aligned and inside, a byte
that the world map closes to the core is PRM, and otherwise an operand word with bit 0 set is LCH 0x101; and a misaligned
base is ALN with the lowest misaligned base.  (R52, R138, R139, R155, R312, R326) -/
def Obligations.VectorChecksTrap : Prop :=
  ∀ (s : State) (o : Cls) (a b : Reg) (ty : ElemType) (imm : Bool),
    let x := s.g a
    let y := s.g b
    s.me.mode = .user → bits x 24 16 ≠ 0 →
    ∀ p ∈ ([(.vadd imm o a b ty, .add, imm), (.vsub imm o a b ty, .sub, imm), (.vmul imm o a b ty, .mul, imm), (.vmac imm o a b ty, .mac, imm),
        (.vmin imm o a b ty, .min, imm), (.vmax imm o a b ty, .max, imm), (.vabs o a b ty, .abs, false), (.vneg o a b ty, .neg, false),
        (.vscale o a b ty, .scale, true), (.vexp o a b ty, .exp, false), (.vlog o a b ty, .log, false),
        (.vrcp o a b ty, .rcp, false), (.vrsqrt o a b ty, .rsqrt, false), (.vtanh o a b ty, .tanh, false),
        (.vsigm o a b ty, .sigm, false), (.vcvt o a b ty, .cvt, false), (.vcvtz o a b ty, .cvtz, false),
        (.vsum o a b ty, .sum, false), (.vrmax o a b ty, .rmax, false), (.vdot o a b ty, .dot, false),
        (.vcmpeq imm o a b ty, .cmpeq, imm), (.vcmplt imm o a b ty, .cmplt, imm), (.vcmple imm o a b ty, .cmple, imm),
        (.vsel imm o a b ty, .sel, imm), (.vand imm o a b ty, .and, imm), (.vor imm o a b ty, .or, imm), (.vxor imm o a b ty, .xor, imm),
        (.vshl imm o a b ty, .shl, imm), (.vshr imm o a b ty, .shr, imm), (.vcopy o a b ty, .copy, false),
        (.vfill imm o a b ty, .fill, imm), (.vpred o a b ty, .pred, false)] : List (Instr × VecOp × Bool)),
      let v := s.vecArgs p.2.1 p.2.2 ty x y
      let cap := spadBytes s.myCoreIx
      let outside_ := (v.dest ++ v.sources ++ v.mask).flatMap (Shape.outOf cap)
      (∀ w u cause tval, s.spadBarred s.myCoreIx v.ranges = (w, u) → v.check cap w = some (cause, tval) →
        ∃ t, exec p.1 s = .next t ∧ (u.modMe fun c => { c with vlca := x, vlcb := y }).Trapped t cause (word tval)
          (if cause = .aln ∨ cause = .xlt ∨ cause = .prm then 1 else 7)) ∧
      (v.alns = [] → outside_ = [] → (∀ z, v.check cap (some z) = some (.prm, z)) ∧
        (bit x 0 = true → v.check cap none = some (.lch, 0x101))) ∧
      (v.alns ≠ [] → ∃ n, (∀ w, v.check cap w = some (.aln, n)) ∧
        (∃ z ∈ v.alns, n = (z % 2 ^ 64).toNat) ∧ ∀ z ∈ v.alns, n ≤ (z % 2 ^ 64).toNat)

/-- For the six integer types and element codes in range, VADD, VSUB, VMUL, VMAC, VMIN and VMAX give the exact result
modulo 2^k, VADD, VSUB, VMUL and VMAC with SAT the result clamped to the type's range, VABS and VNEG of the signed types
likewise, VSHL and VSHR shift by the low six bits of b. VADD, VSUB, VMUL, VMAC, VMIN and VMAX without SAT raise no flag.
(R107, R147, R151) -/
def Obligations.VectorIntegerElements : Prop :=
  ∀ t ∈ ([(.s8, true, 8), (.s16, true, 16), (.s32, true, 32), (.n8, false, 8), (.n16, false, 16), (.n32, false, 32)] :
      List (ElemType × Bool × Nat)),
    let k := t.2.2
    let val (c : Nat) : Int := if t.2.1 then (c : Int).bmod (2 ^ k) else c
    let lo : Int := if t.2.1 then -2 ^ (k - 1) else 0
    let hi : Int := if t.2.1 then 2 ^ (k - 1) - 1 else 2 ^ k - 1
    ∀ a b d, a < 2 ^ k → b < 2 ^ k → d < 2 ^ k →
      (∀ p ∈ ([(.add, val a + val b), (.sub, val a - val b), (.mul, val a * val b), (.mac, val a * val b + val d),
          (.min, if val a ≤ val b then val a else val b), (.max, if val a ≤ val b then val b else val a)] :
          List (VecOp × Int)),
        (vecElem p.1 t.1 false a b d).code = (p.2 % 2 ^ k).toNat ∧ (vecElem p.1 t.1 false a b d).flags = 0) ∧
      (∀ p ∈ ([(.add, val a + val b), (.sub, val a - val b), (.mul, val a * val b), (.mac, val a * val b + val d)] :
          List (VecOp × Int)),
        (vecElem p.1 t.1 true a b d).code = ((if p.2 < lo then lo else if hi < p.2 then hi else p.2) % 2 ^ k).toNat) ∧
      (t.2.1 = true → ∀ sat : Bool,
        (vecElem .neg t.1 sat a b d).code = ((if sat ∧ val a = lo then hi else -val a) % 2 ^ k).toNat ∧
        (vecElem .abs t.1 sat a b d).code =
          ((if sat ∧ val a = lo then hi else if val a < 0 then -val a else val a) % 2 ^ k).toNat) ∧
      (vecElem .shl t.1 false a b d).code = a * 2 ^ (b % 64) % 2 ^ k ∧
      (vecElem .shr t.1 false a b d).code = (val a / 2 ^ (b % 64) % 2 ^ k).toNat

/-- A command that may start reads its operands and stands started with its writes and flags, and stores nothing yet. One
that may complete leaves the queue; each of its writes stands in the scratchpad unless a later one of it overlaps, and no
other byte changes; its destination slot is filled and, with REL, its source slots are released; its flags are merged
while its record runs. A HZPSH that may complete applies its value to its slot. VFENCE completes when no command of the
classes it names is outstanding, as a delivery point, and waits otherwise; VBUSY answers the count and the classes. That
a command reads all its operands at its start and writes all its results at its completion, each at one moment, is the
model's choice (log 11).  (R128, R142, R143, R153, R154, R158) -/
def Obligations.VectorQueueRuns : Prop :=
  (∀ (s : State) (k : CoreIx) (n : Nat) (c : VCmd), (s.core k).vcmd n = some c → s.vecReady k c = true →
    (∀ op imm ty, c.kind = .vec op imm ty →
      ∃ t, exec (.vectorCommandStart k n) s = .next t ∧
        t = (s.runVec c op imm ty).2.modVCmd k n (fun x => { x with
          started := true, writes := (s.runVec c op imm ty).1.writes, flags := (s.runVec c op imm ty).1.flags }) ∧
        ((s.core (coreOf c.cl)).spadBad = [] → s.SameMemory t)) ∧
    (∀ q, c.kind = .push q true →
      ∃ t, exec (.vectorCommandStart k n) s = .next t ∧
        t = s.modVCmd k n fun x => { x with started := true, value := c.gb.setWidth 32 }) ∧
    (∀ q, c.kind = .push q false → (s.core (coreOf c.cl)).spadBad = [] →
      ∃ t, exec (.vectorCommandStart k n) s = .next t ∧ t = s.modVCmd k n fun x => { x with
        started := true, value := BitVec.ofNat 32 (leNat (s.peek (.spad (coreOf c.cl) (bits c.ga 0 24)) 4)) }) ∧
    (∀ q, c.kind = .result q →
      ∃ t, exec (.vectorCommandStart k n) s = .next t ∧
        t = s.modVCmd k n fun x => { x with
          started := true
          writes := [(bits c.ga 0 24, leBytes 4 (((s.core k).hzSlot q).ser.result).toNat)] })) ∧
  (∀ (s : State) (k : CoreIx) (n : Nat) (c : VCmd), (s.core k).vcmd n = some c → s.vecDone k c = true →
    let flagged (t : State) : Prop := (∀ j, j ≠ c.cl → t.cluster j = s.cluster j) ∧ t.cluster c.cl =
      if (s.cluster c.cl).runs c.seq then { s.cluster c.cl with fpflg := (s.cluster c.cl).fpflg ||| c.flags } else s.cluster c.cl
    ((∀ q r, c.kind ≠ .push q r) → (s.core k).spad.wf = true → (s.core k).spadBad = [] →
      ∃ t, exec (.vectorCommandComplete k n) s = .next t ∧
        (t.core k).vcmd n = none ∧ (∀ m ≠ n, (t.core k).vcmd m = (s.core k).vcmd m) ∧ flagged t ∧
        (∀ pre w post, c.writes = pre ++ w :: post → (∀ v ∈ post, v.1 + v.2.length ≤ w.1 ∨ w.1 + w.2.length ≤ v.1) →
          t.peek (.spad k w.1) w.2.length = w.2) ∧
        (∀ l, (∀ w ∈ c.writes, ∀ i < w.2.length, l ≠ .spad k (w.1 + i)) → t.peek l 1 = s.peek l 1) ∧
        ∀ j < 64,
          let fill (x : Ring) : Ring := match c.dring with
            | some r => if r.k = j ∧ x.canFill r.s = true then x.doFill r.s else x
            | none => x
          let rel (x : Ring) (q : Option RingRef) : Ring := match q with
            | some q => if q.k = j ∧ x.canRelease q.s = true then x.doRelease q.s else x
            | none => x
          (t.core k).ring j = (if bit c.ga 4 && (match c.kind with | .vec _ _ _ => true | _ => false) then
            rel (rel (fill ((s.core k).ring j)) c.aring) (if c.bring = c.aring then none else c.bring)
          else fill ((s.core k).ring j))) ∧
    (∀ q r, q < 16 → c.kind = .push q r → c.writes = [] → c.dring = none →
      ∃ t, exec (.horizonCheckpoint k n) s = .next t ∧ (t.core k).vcmd n = none ∧ flagged t ∧ s.SameMemory t ∧
        (t.core k).hzSlot q = { (s.core k).hzSlot q with
          ser := ((s.core k).hzSlot q).ser.checkpoint ((s.core k).hzSlot q).cfg c.value } ∧
        (∀ j < 16, j ≠ q → (t.core k).hzSlot j = (s.core k).hzSlot j))) ∧
  (∀ (s : State) (d a : Reg),
    let mine := s.myCore.vq.filter fun c => c.cl == s.focus
    ((∀ c ∈ mine, a ≠ 0 ∧ bit (s.g a) c.cls.toNat = false) → ∃ t, exec (.vfence a) s = .next t ∧ s.Delivered t 0 0) ∧
    ((∃ c ∈ mine, a = 0 ∨ bit (s.g a) c.cls.toNat = true) →
      ∃ t, exec (.vfence a) s = .next t ∧ t.me.waiting = true ∧ t.me.pc = s.me.pc ∧ t.me.regs = s.me.regs) ∧
    (∃ t v, exec (.vbusy d) s = .next t ∧ s.Wrote t d v ∧
      (∀ j, j < 16 → bit v j = mine.any fun c => c.cls.toNat == j) ∧
      (mine.length < 2 ^ 48 → bits v 16 48 = mine.length)))

/-- With no pending operation on slot K: HZCFG with legal parameters sets the slot and starts a new series, HZEST answers
the estimate, flags, count and whether the series is closed, and HZCLR starts the series anew. The parameters are legal
as the table of R130 says. HZPSH, HZPSH.R and HZRD with a legal address in a region open to the core's world, and room,
queue one command. No register but HZEST's changes, and no byte of memory. In user mode HZCFG raises LCH 0x202 for a
reserved bit and else LCH 0x201 for a parameter out of range; HZPSH and HZRD raise ALN, else XLT at or beyond the
capacity, else PRM where the world map forbids the address, else LCH 0x202 for a bit above 23, with the operands in VLCA
and VLCB as of any vector command (log 55).  (R130, R156, R157, R158, R159, R160, R161) -/
def Obligations.HorizonWords : Prop :=
  ∀ (s : State) (k : BitVec 4) (d a b : Reg) (o : Cls),
    let h := s.myCore.hzSlot k.toNat
    let on (f : HzSlot → HzSlot) : State := s.modMyCore fun x => x.modHz k.toNat f
    let new : HzSlot := ⟨s.g a, s.g b, s.g d, Series.reset⟩
    let enter (s : State) (kind : VecKind) (o : Cls) (ga gb : Word) : State :=
      (s.modMyCore fun z => { z with vq := z.vq ++ [{
        seq := s.serial, cl := s.focus, cls := o, kind := kind, ga := ga, gb := gb, dst := 0, s1 := 0, s2 := 0
        dring := none, aring := none, bring := none, exempt := s.exemptNow s.myCoreIx
        started := false, writes := [], flags := 0, value := 0 }] }).tick
    let room (s : State) (o : Cls) : Prop := s.myCore.vq.length < 32 ∧ (s.myCore.vq.filter fun c => c.cl == s.focus).length < 8 ∧
      s.me.gated .v o = false
    (s.myCore.hzPending k.toNat s.serial = false →
      (bits (s.g a) 0 8 = 0 → bits (s.g a) 10 2 = 0 → bits (s.g a) 32 32 = 0 → new.cfg.ok = true →
        ∃ t, exec (.hzcfg k d a b) s = .next t ∧ (on fun _ => new).Passed t ∧ s.SameMemory t) ∧
      (∃ t, exec (.hzclr k) s = .next t ∧ (on fun y => { y with ser := Series.reset }).Passed t ∧ s.SameMemory t) ∧
      (h.ser.n < 256 → ∃ t v, exec (.hzest d k) s = .next t ∧ s.Wrote t d v ∧ bits v 0 32 = h.ser.t.toNat ∧
        bit v 32 = h.ser.conv ∧ bit v 33 = h.ser.nzd ∧ bit v 34 = h.ser.stag ∧ bit v 35 = h.ser.lim ∧
        bits v 40 8 = h.ser.n ∧ bit v 48 = (h.ser.conv || decide (h.cfg.maxc ≤ h.ser.n)))) ∧
    (∀ u, bits (s.g a) 0 2 = 0 → bits (s.g a) 0 24 < spadBytes s.myCoreIx → bits (s.g a) 24 40 = 0 →
      s.spadBarred s.myCoreIx [(bits (s.g a) 0 24, bits (s.g a) 0 24 + 4)] = (none, u) → room u o →
      (∃ t, exec (.hzpsh k a o) s = .next t ∧ (enter u (.push k.toNat false) o (s.g a) 0).Passed t ∧ u.SameMemory t) ∧
      (∃ t, exec (.hzrd k a o) s = .next t ∧ (enter u (.result k.toNat) o (s.g a) 0).Passed t ∧ u.SameMemory t)) ∧
    (room s 0 →
      ∃ t, exec (.hzpshR k b) s = .next t ∧ (enter s (.push k.toNat true) 0 0 (s.g b)).Passed t ∧ s.SameMemory t) ∧
    (let mode := bits (s.g a) 8 2
     let depth := bits (s.g a) 12 4
     let lo (x : Word) : Nat := x.toNat % 2 ^ 32
     let hi (x : Word) : Nat := x.toNat / 2 ^ 32
     new.cfg.ok = true ↔
      ((mode = 0 ∧ depth = 0) ∨ (mode = 1 ∧ (depth = 2 ∨ depth = 4 ∨ depth = 6)) ∨ (mode = 2 ∧ 3 ≤ depth ∧ depth ≤ 8)) ∧
      1 ≤ bits (s.g a) 16 8 ∧ bits (s.g a) 16 8 ≤ bits (s.g a) 24 8 ∧ hi (s.g b) < 0x7F80_0000 ∧ lo (s.g b) < 0x7F80_0000 ∧
      hi (s.g d) < 0x7F80_0000 ∧ lo (s.g d) ≤ 0x7F80_0000) ∧
    (s.me.mode = .user →
      let reserved : Bool := bits (s.g a) 0 8 != 0 || bits (s.g a) 10 2 != 0 || bits (s.g a) 32 32 != 0
      (reserved = true → ∃ t, exec (.hzcfg k d a b) s = .next t ∧ s.Trapped t .lch 0x202 7) ∧
      (reserved = false → new.cfg.ok = false → ∃ t, exec (.hzcfg k d a b) s = .next t ∧ s.Trapped t .lch 0x201 7) ∧
      ∀ w u, s.spadBarred s.myCoreIx [(bits (s.g a) 0 24, bits (s.g a) 0 24 + 4)] = (w, u) →
        let cap := spadBytes s.myCoreIx
        let fails (cause : Cause) (v : Word) (path : Nat) : Prop := ∀ i ∈ [Instr.hzpsh k a o, .hzrd k a o],
          ∃ t, exec i s = .next t ∧ (u.modMe fun c => { c with vlca := s.g a, vlcb := 0 }).Trapped t cause v path
        (bits (s.g a) 0 2 ≠ 0 → fails .aln (s.g a) 1) ∧
        (bits (s.g a) 0 2 = 0 → cap ≤ bits (s.g a) 0 24 → fails .xlt (word (bits (s.g a) 0 24)) 1) ∧
        (bits (s.g a) 0 2 = 0 → bits (s.g a) 0 24 < cap → (∀ z, w = some z → fails .prm (word z) 1) ∧
          (w = none → bits (s.g a) 24 40 ≠ 0 → fails .lch 0x202 7)))

/-- On a core of a hub die, MXCFG writes the shadow plane while nothing is armed, and MXIDX the shadow index table, at
once or, where the range checker or a locked bank holds it, by a later move of the engine (log 76, the model's
inference); MXGO with a plane that passes the checks arms it, and on an idle engine swaps the planes and starts the nest;
one that gathers waits for a table still to be read (log 76); MXWAIT passes when no nest runs or is armed, or the engine
is frozen, and no fault is recorded (with a nest armed behind a frozen one the passing is the model's inference, log 31);
MXSTAT reports; MXPROG names the chunk and the six indices of the next tile step, and is 0 when none remains; SQP appends
a scale; SQLD and MXDRAIN queue their work; MXFRZ freezes at the chunk boundary; MXTHAW resumes when no fault is
recorded; MXCLR empties all but the planes, and drops the abandoned nest's walks. No general register changes but that of
MXSTAT and MXPROG, and no byte of memory. In user mode MXCFG raises LCH 0x301 for a register above 31; MXIDX, SQLD and
MXDRAIN raise ALN, else XLT, else PRM of the world map, else LCH 0x308 or 0x309 for their counts (R169, R175; the order
of the checks is log 33); and MXGO the least of the causes of R168's table, whose rows are stated one by one, with no
effect.  (R163, R167, R168, R169, R171, R172, R173, R174, R175, R176) -/
def Obligations.MatrixWords : Prop :=
  ∀ (s : State) (d a b : Reg) (o : Cls),
    let m := s.myCore.mx
    let x := s.g a
    let y := s.g b
    let cap := spadBytes s.myCoreIx
    let free : Bool := !m.frozen && (m.run.isSome || m.armed.isSome)
    let on (f : Matrix → Matrix) : State := s.modMyCore fun c => { c with mx := f c.mx }
    let onU (u : State) (f : Matrix → Matrix) : State := u.modCore s.myCoreIx fun c => { c with mx := f c.mx }
    isHub s.myDieIx = true →
    (bits x 5 59 = 0 → m.armed = none →
      ∃ t, exec (.mxcfg a b) s = .next t ∧ (on fun z => { z with shd := vset z.shd (bits x 0 5) y }).Passed t ∧ s.SameMemory t) ∧
    ((s.myCore.secure = true ∨ bit s.myDie.wmapb 0 = false) → ∀ align n, x.toNat % align = 0 → x.toNat + n ≤ cap →
      s.mxSpadErrs x align n = ([], s)) ∧
    (∀ u, s.mxSpadErrs x 64 256 = ([], u) → u.myCore.mx.armed = none → u.me.gated .m o = false → u.myCore.mx.idxq = none →
      let waits : Bool := u.myCore.lockedMx x.toNat 256 ||
        u.held u.myCoreIx ⟨u.serial, [], [(x.toNat, x.toNat + 256)], [], u.exemptNow u.myCoreIx⟩
      (waits = false → u.myCore.spadBad = [] →
        ∃ t table, exec (.mxidx a o) s = .next t ∧ u.SameMemory t ∧
          (onU u fun z => { z with ishd := table }).tick.Passed t ∧
          ∀ i (h : i < 128), (table[i]).toNat = leNat (u.peek (.spad s.myCoreIx (x.toNat + 2 * i)) 2)) ∧
      (waits = true → ∃ t, exec (.mxidx a o) s = .next t ∧ u.SameMemory t ∧
        (onU u fun z => { z with idxq := some ⟨u.serial, u.focus, o, x.toNat, u.exemptNow u.myCoreIx, false⟩ }).tick.Passed t)) ∧
    (m.armed = none → bit m.shd[0] 17 = true → (∃ q, m.idxq = some q ∧ q.swapped = false) → exec (.mxgo o) s = .next s.stall) ∧
    (m.armed = none → (bit m.shd[0] 17 = true → ∀ q, m.idxq = some q → q.swapped = true) → s.me.gated .m o = false → ∀ ob u, s.mxObject m.shd (mxNest m.shd m.ishd) = (ob, [], u) →
      leastErr (mxgoErrs cap m.shd (mxNest m.shd m.ishd)) = none →
      let l : Launch := ⟨s.serial, s.focus, o, s.me.mode == .user, ob, s.exemptNow s.myCoreIx⟩
      ((u.core s.myCoreIx).mx.run = none → ∃ t, exec (.mxgo o) s = .next t ∧ u.SameMemory t ∧
        (onU u fun z => { z with
          act := z.shd, shd := z.act, iact := z.ishd, ishd := z.iact, run := some l, armed := none, frozen := false
          idxq := z.idxq.map fun q => { q with swapped := !q.swapped }
          sqef := false, chunk := 0, idx := Vector.replicate 6 0, xl := [], flags := 0, drained := false, cxFrz := false
          }).tick.Passed t) ∧
      ((u.core s.myCoreIx).mx.run ≠ none → ∃ t, exec (.mxgo o) s = .next t ∧ u.SameMemory t ∧
        (onU u fun z => { z with armed := some l }).tick.Passed t)) ∧
    (free = false → m.flt = false → ∃ t, exec .mxwait s = .next t ∧ s.Passed t) ∧
    (free = false → m.flt = true → s.me.mode = .user → ∃ t, exec .mxwait s = .next t ∧
      (on fun z => { z with flt := false }).Trapped t (if m.fkind then .prm else .xlt) m.fa 2) ∧
    (m.sq.length ≤ 256 → ∃ t v, exec (.mxstat d) s = .next t ∧ s.Wrote t d v ∧ bit v 0 = m.run.isSome ∧
      bit v 1 = m.armed.isSome ∧ bit v 2 = m.frozen ∧ bit v 3 = m.sqef ∧ bit v 4 = m.flt ∧ bit v 5 = (m.flt && m.fkind) ∧
      bits v 8 9 = m.sq.length ∧ bit v 17 = (!m.sqlds.isEmpty) ∧
      bits v 22 2 = (match m.run with | some l => cluNo l.cl | none => 0)) ∧
    (∃ t v, exec (.mxprog d) s = .next t ∧ s.Wrote t d v ∧ (m.run = none ∨ m.drained = true → v = 0) ∧
      (m.run ≠ none → m.drained = false → m.chunk < 16 → (∀ i (h : i < 6), m.idx[i] < 1024) →
        bits v 60 4 = m.chunk ∧ ∀ i (h : i < 6), bits v (10 * i) 10 = m.idx[i])) ∧
    (m.sq.length < 256 → m.sqlds = [] →
      ∃ t, exec (.sqp a) s = .next t ∧ (on fun z => { z with sq := z.sq ++ [x.setWidth 16] }).Passed t ∧ s.SameMemory t) ∧
    (∀ u, s.mxSpadErrs x 2 (2 * bits y 0 16) = ([], u) → 0 < bits y 0 16 → bits y 0 16 ≤ 256 → m.sqlds.length < 4 →
      u.me.gated .m o = false →
      ∃ t, exec (.sqld a b o) s = .next t ∧ u.SameMemory t ∧
        (onU u fun z => { z with sqlds := z.sqlds ++ [⟨u.serial, u.focus, o, x.toNat, bits y 0 16⟩] }).tick.Passed t) ∧
    (∀ u, s.mxSpadErrs x 128 (1024 * bits y 8 8) = ([], u) → 0 < bits y 8 8 → bits y 0 7 + bits y 8 8 ≤ 128 →
      bits y 16 48 = 0 → bit y 7 = false → free = false → u.me.gated .m o = false →
      (∀ z ∈ u.myCore.tiles, ∀ c o, z.owner ≠ .drain c o) →
      let v := u.accPoison u.myCoreIx u.focus u.serial (inRows (bits y 0 7) (bits y 8 8))
      (u.myCore.mx.accBad = [] → v = u) ∧
      ∃ t bs, exec (.mxdrain a b o) s = .next t ∧ v.SameMemory t ∧ bs.length = 1024 * bits y 8 8 ∧
        (let z : Tile := ⟨v.serial, .drain v.focus o, [(x.toNat, bs)], false, v.exemptNow v.myCoreIx, some v.serial⟩
         let wait := v.held v.myCoreIx ⟨v.serial, [(x.toNat, x.toNat + bs.length)], [], [], v.exemptNow v.myCoreIx⟩
         (v.modMyCore fun c => { c with tiles := c.tiles ++
          [if wait then { z with asked := none } else z] }).tick.Passed t) ∧
        ∀ j < bits y 8 8, (bs.drop (1024 * j)).take 1024 = v.myCore.mx.acc.readN (1024 * (bits y 0 7 + j)) 1024) ∧
    (free = false → ∃ t, exec .mxfrz s = .next t ∧ s.Passed t) ∧
    (m.run ≠ none → m.frozen = false → m.drained = false → (∀ z ∈ s.myCore.tiles, z.owner ≠ .nest) →
      ∃ t, exec .mxfrz s = .next t ∧ (on fun z => { z with
        frozen := true
        cxFrz := false }).Passed t ∧ s.SameMemory t) ∧
    (∃ t, exec .mxthaw s = .next t ∧ s.SameMemory t ∧
      (on fun z => if m.flt then z else { z with frozen := false, sqef := false, cxFrz := false }).Passed t) ∧
    (free = false → m.sqlds = [] →
      ∃ t, exec .mxclr s = .next t ∧ s.SameMemory t ∧ (onU (s.dropMxWalks s.myCoreIx) fun z => { z with
        acc := [], accBad := [], sq := [], undone := [], frozen := false, sqef := false, flt := false, run := none, armed := none
        chunk := 0, idx := Vector.replicate 6 0, xl := [], flags := 0, drained := false, cxFrz := false }).Passed t) ∧
    (s.me.mode = .user →
      let raises (i : Instr) (u : State) (cause : Cause) (v : Nat) : Prop := ∃ t, exec i s = .next t ∧
        u.Trapped t cause (word v) (if cause = .aln ∨ cause = .xlt ∨ cause = .prm then 2 else 7)
      (bits x 5 59 ≠ 0 → raises (.mxcfg a b) s .lch 0x301) ∧
      (∀ p ∈ ([(.mxidx a o, 64, 256, false, 0), (.sqld a b o, 2, 2 * bits y 0 16, bits y 0 16 == 0 || decide (256 < bits y 0 16), 0x308),
          (.mxdrain a b o, 128, 1024 * bits y 8 8, bits y 8 8 == 0 || decide (128 < bits y 0 7 + bits y 8 8) || bits y 16 48 != 0 || bit y 7,
            0x309)] : List (Instr × Nat × Nat × Bool × Nat)),
        let far := x.toNat + p.2.2.1
        ∀ es u, s.mxSpadErrs x p.2.1 p.2.2.1 = (es, u) →
          (x.toNat % p.2.1 ≠ 0 → raises p.1 u .aln x.toNat) ∧
          (x.toNat % p.2.1 = 0 → cap < far → raises p.1 u .xlt (max x.toNat cap)) ∧
          (x.toNat % p.2.1 = 0 → far ≤ cap → ∀ z, s.spadBarred s.myCoreIx [(x.toNat, far)] = (some z, u) → x.toNat < cap →
            raises p.1 u .prm z) ∧
          (es = [] → p.2.2.2.1 = true → raises p.1 u .lch p.2.2.2.2)) ∧
      let n := mxNest m.shd m.ishd
      let es := mxgoErrs cap m.shd n
      let r (i : Nat) : Word := planeReg m.shd i
      let ta := bits (r 0) 0 4
      let tb := bits (r 0) 4 4
      let fp8 : Prop := (ta = 3 ∨ ta = 4) ∧ (tb = 3 ∨ tb = 4)
      (m.armed = none → m.tableDue = false → ∀ ob he u, s.mxObject m.shd n = (ob, he, u) → ∀ c v, leastErr (es ++ he) = some (c, v) →
        raises (.mxgo o) s c v) ∧
      (∀ i, (.aln, i) ∈ es ↔ ((8 ≤ i ∧ i ≤ 13 ∨ 20 ≤ i ∧ i ≤ 25 ∨ i = 30) ∧ bits (r i) 0 32 % 64 ≠ 0) ∨ ((i = 26 ∨ i = 28) ∧ bits (r i) 0 48 % 64 ≠ 0) ∨
        (i = 29 ∧ bits (r i) 0 32 % 64 ≠ 0) ∨ (bit (r 0) 20 = false ∧ ((14 ≤ i ∧ i ≤ 19 ∧ bits (r i) 0 32 % 64 ≠ 0) ∨
        (i = 27 ∧ bits (r i) 0 48 % 64 ≠ 0) ∨ (i = 29 ∧ bits (r i) 32 32 % 64 ≠ 0)))) ∧
      (∀ v, (.xlt, v) ∈ es ↔ ∃ e ∈ n.envelopes, 0 ≤ e.1 ∧ e.1 < 0x100_0000 ∧ (cap : Int) < e.2 ∧ v = max e.1.toNat cap) ∧
      ((.lch, 0x301) ∈ es ↔ ∃ i < 32, planeRead m.shd i ≠ r i) ∧
      ((.lch, 0x302) ∈ es ↔ ¬ (bits (r 0) 8 4 ≤ 2 ∧ (fp8 ∨ (ta = tb ∧ (ta = 1 ∨ ta = 2))))) ∧
      ((.lch, 0x303) ∈ es ↔ 128 < bits (r 1) 0 8 + 1 ∨ (¬ fp8 ∧ 128 < bits (r 1) 8 8 + 1)) ∧
      ((.lch, 0x304) ∈ es ↔ ∃ i < 6, bits (r (2 + i)) 0 11 = 0 ∨ 1024 < bits (r (2 + i)) 0 11) ∧
      ((.lch, 0x305) ∈ es ↔ bits (r 0) 12 3 = 0 ∨ bits (r 0) 12 3 = 7) ∧
      ((.lch, 0x306) ∈ es ↔ ∃ e ∈ n.envelopes, ¬ (0 ≤ e.1 ∧ e.2 ≤ 0x100_0000) ∧ ¬ (0x1_0000_0000 ≤ e.1 ∧ e.2 ≤ 0x2_0000_0000)) ∧
      ((.lch, 0x307) ∈ es ↔ 1 < bits (r 0) 18 2 ∨ (bits (r 0) 18 2 = 1 ∧ ¬ fp8)) ∧
      (bit (r 0) 20 = false → (s.mxObject m.shd n).2.1 = []) ∧
      (bit (r 0) 20 = true → ∀ h ob, h = planeHandle m.shd → (s.localHandle s.myCoreIx h s.myCore.secure).1 = ob →
        let he := (s.mxObject m.shd n).2.1
        ((∀ z, ob = some z → z.cls ≠ 0 ∨ z.elem = some .bpn ∨ z.elem = some .mxi8) → he = [(.hdl, h.toNat)]) ∧
        (∀ z, ob = some z → z.cls = 0 → z.elem ≠ some .bpn → z.elem ≠ some .mxi8 →
          ((.lch, 0x302) ∈ he ↔ bits z.w0 57 4 ≠ tb) ∧ ((.lch, 0x30A) ∈ he ↔ n.bSpan.1 < 0 ∨ (z.rows * z.d3 : Nat) < n.bSpan.2))))

/-- An armed nest starts when none runs; an MXIDX that waited reads its table into the plane it was issued for (log 76);
a ready chunk whose accesses translate and meet no locked bank runs, and one that needs a scale when none is to come
freezes the engine with SQEF and leaves SQE pending in the cluster that issued the nest, its TVAL free (log 6); the
oldest SQLD pushes its next scale; a drained nest without a C write under way completes; a tile transfer that asked for
its banks before every other waiting one takes them, an MXDRAIN that the range checker has held asks when nothing holds
it, and a locked one of the matrix engine stores its bytes, the last of overlapping ones, and nothing else, and leaves.
(R165, R168, R169, R170, R177, R230) -/
def Obligations.MatrixEngineEvents : Prop :=
  ∀ (s : State) (k : CoreIx),
    let x := s.core k
    let m := x.mx
    (∀ l, m.armed = some l → m.run = none → x.cxPend = false →
      ∃ t, exec (.nestStart k) s = .next t ∧ t = s.modCore k fun c => { c with mx := { c.mx with
        act := m.shd, shd := m.act, iact := m.ishd, ishd := m.iact, run := some l, armed := none, frozen := false
        idxq := m.idxq.map fun q => { q with swapped := !q.swapped }
        sqef := false, chunk := 0, idx := Vector.replicate 6 0, xl := [], flags := 0, drained := false, cxFrz := false } }) ∧
    (∀ l n u, s.mxReady k = some (l, n) → (n.scl = 1 → m.undone ++ m.sq ≠ []) → s.mxTranslate k l (n.accesses m.at) = (none, u) →
      u.mxPagesLocked k l n m.at = false → ∃ t, exec (.matrixChunk k) s = .next t ∧ t = u.mxRun k l n) ∧
    (∀ l n, s.mxReady k = some (l, n) → n.scl = 1 → m.undone = [] → m.sq = [] → m.sqlds = [] →
      ∃ t, exec (.matrixChunk k) s = .next t ∧ (t.core k).mx = { m with frozen := true, sqef := true } ∧
        (∀ r, t.peek r 1 = s.peek r 1) ∧
        ∃ v, (t.cluster l.cl).pend = (s.cluster l.cl).pend.filter (fun p => p.cause != .sqe) ++ [⟨.sqe, v, noPath⟩]) ∧
    (∀ q, m.idxq = some q → x.cxPend = false → x.lockedMx q.addr 256 = false → x.spadBad = [] →
      s.held k ⟨q.seq, [], [(q.addr, q.addr + 256)], [], q.exempt⟩ = false →
      ∃ t table, s.indexMove k = .next t ∧
        t = s.modCore k (fun c => { c with mx := { c.mx with
          ishd := if q.swapped then m.ishd else table
          iact := if q.swapped then table else m.iact
          idxq := none } }) ∧
        ∀ i (h : i < 128), (table[i]).toNat = leNat (s.peek (.spad k (q.addr + 2 * i)) 2)) ∧
    (∀ q rest, m.sqlds = q :: rest → x.cxPend = false → m.sq.length < 256 → x.lockedMx q.addr 2 = false → x.spadBad = [] →
      s.held k ⟨q.seq, [], [(q.addr, q.addr + 2 * q.left)], [], []⟩ = false →
      ∃ t, exec (.sqldEntryPush k) s = .next t ∧ t = s.modCore k fun c => { c with mx := { c.mx with
        sq := m.sq ++ [BitVec.ofNat 16 (leNat (s.peek (.spad k q.addr) 2))]
        sqlds := if q.left ≤ 1 then rest else { q with addr := q.addr + 2, left := q.left - 1 } :: rest } }) ∧
    (∀ l, m.run = some l → m.drained = true → (∀ z ∈ x.tiles, z.owner ≠ .nest) →
      ∃ t, exec (.nestComplete k) s = .next t ∧ (∀ r, t.peek r 1 = s.peek r 1) ∧
        (t.core k).mx = { m with run := none, drained := false, frozen := false, flags := 0 } ∧
        ((s.cluster l.cl).runs l.seq = true →
          (t.cluster l.cl).fpflg = (s.cluster l.cl).fpflg ||| m.flags)) ∧
    (∀ n z at₀, x.tiles.find? (fun z => z.seq = n) = some z → z.locked = false → z.asked = some at₀ →
      (∀ w ∈ x.tiles, w.seq = n ∨ w.shares z = false ∨ (w.locked = false ∧ ∀ b, w.asked = some b → at₀ < b)) →
      ∃ t, exec (.tileTransferLock k n) s = .next t ∧
        (t.core k).tiles.find? (fun z => z.seq = n) = some { z with locked := true } ∧
        t = s.modCore k fun c => { c with tiles := (t.core k).tiles }) ∧
    (∀ n z c o, x.tiles.find? (fun z => z.seq = n) = some z → z.asked = none → z.locked = false → z.owner = .drain c o →
      s.held k ⟨n, z.writes.map fun w => (w.1, w.1 + w.2.length), [], [], z.exempt⟩ = false →
      ∃ t l, exec (.tileTransferLock k n) s = .next t ∧
        (t.core k).tiles.find? (fun z => z.seq = n) = some { z with
          locked := l
          asked := some s.serial } ∧
        (l = true ↔ ∀ w ∈ x.tiles, w.seq = n ∨ w.shares z = false ∨ (w.locked = false ∧ ∀ b, w.asked = some b → s.serial < b)) ∧
        t = (s.modCore k fun c => { c with tiles := (t.core k).tiles }).tick) ∧
    (∀ n z, x.tiles.find? (fun z => z.seq = n) = some z → z.locked = true → (∀ e o, z.owner ≠ .copy e o) →
      x.spad.wf = true → x.spadBad = [] →
      ∃ t, exec (.tileTransferRelease k n) s = .next t ∧ (t.core k).tiles = x.tiles.filter (fun w => w.seq != n) ∧
        (∀ c, t.cluster c = s.cluster c) ∧
        (∀ pre w post, z.writes = pre ++ w :: post → (∀ v ∈ post, v.1 + v.2.length ≤ w.1 ∨ w.1 + w.2.length ≤ v.1) →
          t.peek (.spad k w.1) w.2.length = w.2) ∧
        ∀ l, (∀ w ∈ z.writes, ∀ i < w.2.length, l ≠ .spad k (w.1 + i)) → t.peek l 1 = s.peek l 1)

/-- For operands that are integers, of any size and number, chunkAdd forms the exact sum of the products, rounds it once
to F32 by RNE, +0 where it is zero, and adds it once to the accumulator, with the flags of the two roundings; a scale
multiplies the exact sum before the rounding.  (R123, R165) -/
def Obligations.MatrixChunkArithmetic : Prop :=
  ∀ (acc : W32) (ps : List (Int × Int)),
    let num (v : Int) : Machine.Num := .fin (decide (v < 0)) v.natAbs 0
    let total : Int := (ps.map fun p => p.1 * p.2).sum
    let xs := ps.map fun p => num p.1
    let ys := ps.map fun p => num p.2
    (total = 0 → chunkAdd acc xs ys none = ((addF32 acc 0).1, (addF32 acc 0).2)) ∧
    (total ≠ 0 →
      let c := fmtF32.ofNum false (num total)
      chunkAdd acc xs ys none = ((addF32 acc c.w32).1, (addF32 acc c.w32).2 ||| c.flags)) ∧
    (∀ g : Nat, total ≠ 0 → 0 < g →
      let c := fmtF32.ofNum false (num (total * g))
      chunkAdd acc xs ys (some (num g)) = ((addF32 acc c.w32).1, (addF32 acc c.w32).2 ||| c.flags))

/-- For an engine the core has: CPY, CPYP, CPINV and CPNEST whose operands pass their checks (block addresses in the
store, the window or hub SRAM, aligned; CPNEST bytes open to the core's world), with room and no fence in the way, enter
the queue of the engine they name as one command and complete; CPY of length 0, checked as any other, completes at once
(that it is checked as though one byte stood at each address is log 37, the model's inference). CPWAIT passes when no
named engine is held and none holds a command of the cluster; of the named engines that are held it raises the lowest
recorded cause, of the lowest such engine (log 70, the model's choice), and discards that command. CPQUIE, CPSTAT,
CPPROG, CPSAT and CPSEL answer quietness, status, indices, counters and the least busy engine; CPST.BUSY, a command at
the head of a queue that is not held, is log 29 (DEDUCED), and the masks' reading is log 32 (DEDUCED). No byte of memory
changes. In user mode an engine that the core lacks traps AUT, with a free TVAL (log 6); the failed checks of each copy
word trap as R185, R186, R198 to R200 say, the lowest cause first (R52).  (R179, R180, R185, R186, R196, R198, R199,
R200, R52, R312) -/
def Obligations.CopyWords : Prop :=
  ∀ (s : State) (d a b : Reg) (o : Cls),
    let x := s.g a
    let y := s.g b
    let count := s.engineCount s.myCoreIx
    let cap := spadBytes s.myCoreIx
    let eng (e : Nat) : Engine := s.myCore.engine e
    let room (e : Nat) : Prop := (eng e).queue.length < 16 ∧ (s.myCore.ce.toList.map fun z => z.queue.length).sum < 32
    let on (e : Nat) (f : Engine → Engine) : State := s.modEngine s.myCoreIx e f
    let blockOk : Prop := (bit x 63 = true ∧ bits x 5 58 = 0) ∨ (x.toNat % 128 = 0 ∧
      (x.toNat + 128 ≤ cap ∨ (isHub s.myDieIx = true ∧ 2 ^ 32 ≤ x.toNat ∧ x.toNat < 2 ^ 33)))
    let enter (e : Nat) (kind : CopyKind) (o : Cls) (nest : Option Nest) : State :=
      (on e fun z => { z with queue := z.queue ++ [{
        seq := s.serial, cl := s.focus, cls := o, kind := kind, ga := x, gb := y, user := s.me.mode == .user
        tag := s.myCore.owntag, nest := nest, idx := List.replicate 6 0, unit := none, fillDue := false, finished := false
        flying := false, counts := (0, 0, 0), exempt := s.exemptNow s.myCoreIx }] }).tick
    (∀ e, e = bits y 32 5 → e < count → bits y 0 25 ≠ 0 → room e → s.me.gated .c o = false →
      leastErr (cpyErrs cap (s.myCore.ring (bits y 42 6)) (s.g d).toNat x.toNat y) = none →
      ∃ t, exec (.cpy d a b o) s = .next t ∧ s.SameMemory t ∧
        (enter e .cpy o (some (cpyNest (s.g d).toNat x.toNat y))).Passed t) ∧
    (bits y 32 5 < count → bits y 0 25 = 0 →
      leastErr (cpyErrs cap (s.myCore.ring (bits y 42 6)) (s.g d).toNat x.toNat y) = none →
      ∃ t, exec (.cpy d a b o) s = .next t ∧ s.Passed t) ∧
    (bits y 0 5 < count → bits y 5 59 = 0 → blockOk → room (bits y 0 5) → s.me.gated .c o = false →
      ∃ t, exec (.cpyp a b o) s = .next t ∧ (enter (bits y 0 5) .cpyp o none).Passed t ∧ s.SameMemory t) ∧
    (bits y 0 5 < count → bits y 5 3 = 0 → bits y 9 55 = 0 → blockOk →
      room (bits y 0 5) →
      ∃ t, exec (.cpinv a b) s = .next t ∧ (enter (bits y 0 5) .cpinv 0 none).Passed t ∧ s.SameMemory t) ∧
    (bits y 8 5 < count → bits y 5 3 = 0 → bits y 13 51 = 0 → x.toNat % 128 = 0 → x.toNat + 128 ≤ cap →
      s.spadBarred s.myCoreIx [(x.toNat, x.toNat + 128)] = (none, s) → room (bits y 8 5) → s.me.gated .c o = false →
      ∃ t, exec (.cpnest a b o) s = .next t ∧ (enter (bits y 8 5) .cpnest o none).Passed t ∧ s.SameMemory t) ∧
    (let named (e : Nat) : Prop := e < count ∧ (x = 0 ∨ bit x e = true)
     x.toNat < 2 ^ count → count ≤ 20 →
      ((∀ e, named e → (eng e).hold = false ∧ ∀ c ∈ (eng e).queue, c.cl ≠ s.focus) →
        ∃ t, exec (.cpwait a) s = .next t ∧ s.Passed t) ∧
      (∀ e, named e → (eng e).hold = true → s.me.mode = .user →
        (∀ f, named f → (eng f).hold = true → (eng e).recorded.1.code ≤ (eng f).recorded.1.code ∧
          ((eng f).recorded.1.code = (eng e).recorded.1.code → e ≤ f)) →
        (eng e).stopAt = none → ∀ cause, (eng e).err = some cause →
        ∃ t, exec (.cpwait a) s = .next t ∧ (on e fun z => { z with hold := false, queue := z.queue.drop 1 }).Trapped t cause
          (if cause = .xlt ∨ cause = .prm then (eng e).fa else (eng e).errVal.setWidth 64)
          (cpPath cause (eng e).recorded.2.toNat)) ∧
      (∃ t v, exec (.cpquie d a) s = .next t ∧ s.Wrote t d v ∧ ∀ e, named e → bit v e = s.engineQuiet s.myCoreIx e) ∧
      (x ≠ 0 → ∃ t e, exec (.cpsel d a) s = .next t ∧ s.Wrote t d (word e) ∧ named e ∧
        ∀ f, named f → (eng e).queue.length ≤ (eng f).queue.length ∧
          ((eng f).queue.length = (eng e).queue.length → e ≤ f))) ∧
    (x.toNat < count → count ≤ 32 →
      (∃ t v, exec (.cpstat d a) s = .next t ∧ s.Wrote t d v ∧
        bit v 0 = (!(eng x.toNat).queue.isEmpty && !(eng x.toNat).hold) ∧ bit v 3 = (eng x.toNat).pause ∧
        bit v 4 = (eng x.toNat).hold ∧ bit v 5 = (eng x.toNat).supp) ∧
      (∃ t v, exec (.cpprog d a) s = .next t ∧ s.Wrote t d v ∧ ((eng x.toNat).queue = [] → v = 0) ∧
        ∀ c, (eng x.toNat).queue.head? = some c → c.idx.length = 6 → (∀ i ∈ c.idx, i < 1024) →
          ∀ l < 6, bits v (10 * l) 10 = c.idx.getD l 0) ∧
      (bits y 1 63 = 0 → ∃ t, exec (.cpsat d a b) s = .next t ∧ s.SameMemory t ∧
        (if bit y 0 then on x.toNat fun z => { z with
            satt := 0, nft := 0, lowt := 0, satw := 0, loww := 0, satev := false, lowev := false }
          else s).Wrote t d (word ((eng x.toNat).lowt + (eng x.toNat).nft * 2 ^ 16 + (eng x.toNat).satt * 2 ^ 32)))) ∧
    (s.me.mode = .user →
      let raises (i : Instr) (cause : Cause) (v : Word) (path : Nat) : Prop := ∃ t, exec i s = .next t ∧ s.Trapped t cause v path
      let absent (i : Instr) : Prop := ∃ t v, exec i s = .next t ∧ ({ s with freeCtr := s.freeCtr + 1 } : State).Trapped t .aut v 7
      let n := bits y 0 25
      let src := (s.g d).toNat
      let r := s.myCore.ring (bits y 42 6)
      let plain : Prop := bits y 25 7 = 0 ∧ bits y 37 3 = 0 ∧ bits y 48 16 = 0
      let overlap : Prop := 0 < n ∧ src < x.toNat + n ∧ x.toNat < src + n
      (count ≤ bits y 32 5 → absent (.cpy d a b o)) ∧
      (count ≤ bits y 0 5 → absent (.cpyp a b o) ∧ absent (.cpinv a b)) ∧
      (count ≤ bits y 8 5 → absent (.cpnest a b o)) ∧
      (bits y 32 5 < count →
        (∀ cause v, leastErr (cpyErrs cap r src x.toNat y) = some (cause, v) →
          raises (.cpy d a b o) cause (word v) (cpPath cause v)) ∧
        (0 < n → src < 2 ^ 24 → cap < src + n → x.toNat + n ≤ cap → raises (.cpy d a b o) .xlt (word (max src cap)) 3) ∧
        (src + max 1 n ≤ cap → x.toNat + max 1 n ≤ cap →
          (¬ plain → raises (.cpy d a b o) .lch 0x401 7) ∧
          (plain → bits y 40 2 = 3 → raises (.cpy d a b o) .lch 0x402 7) ∧
          (plain → bits y 40 2 < 2 → overlap → raises (.cpy d a b o) .lch 0x406 7) ∧
          (plain → bits y 40 2 = 2 ∨ (bits y 40 2 = 1 ∧ ¬ overlap) → r.enabled = false → raises (.cpy d a b o) .rng 1 7) ∧
          (plain → bits y 40 2 = 1 → ¬ overlap → r.enabled = true → 0 < n →
            (∀ j < r.count, ¬ (r.base + j * r.size ≤ x.toNat ∧ x.toNat + n ≤ r.base + (j + 1) * r.size)) →
            raises (.cpy d a b o) .rng 7 7))) ∧
      (let z := bits x 0 48
       let low : Prop := z % 128 = 0 ∧ (z + 128 ≤ cap ∨ (isHub s.myDieIx = true ∧ 2 ^ 32 ≤ z ∧ z < 2 ^ 33))
       let off : Prop := (bit x 63 = true ∧ bits x 5 58 ≠ 0) ∨ (bit x 63 = false ∧ bits x 48 15 ≠ 0)
       bits y 0 5 < count → ∀ i ∈ ([.cpyp a b o, .cpinv a b] : List Instr),
        (bit x 63 = false → z % 128 ≠ 0 → raises i .aln x (cpPath .aln x.toNat)) ∧
        (bit x 63 = false → z % 128 = 0 →
          (z < 2 ^ 24 ∧ cap < z + 128) ∨ (2 ^ 24 ≤ z ∧ (isHub s.myDieIx = false ∨ z < 2 ^ 32 ∨ 2 ^ 33 ≤ z)) →
          raises i .xlt x (cpPath .xlt x.toNat)) ∧
        (bit x 63 = true ∨ low → off ∨ bits y 5 3 ≠ 0 ∨ bits y 9 55 ≠ 0 → raises i .lch 0x401 7)) ∧
      (bit x 63 = false ∧ blockOk → bits y 0 5 < count → bit y 8 = true → raises (.cpyp a b o) .lch 0x401 7) ∧
      (bits y 8 5 < count →
        let named := if x.toNat < cap then [(x.toNat, min cap (x.toNat + 128))] else []
        (s.spadBarred s.myCoreIx named = (none, s) →
          (x.toNat % 128 ≠ 0 → raises (.cpnest a b o) .aln x (cpPath .aln x.toNat)) ∧
          (x.toNat % 128 = 0 → cap < x.toNat + 128 → raises (.cpnest a b o) .xlt (word (max x.toNat cap)) (cpPath .xlt (max x.toNat cap))) ∧
          (x.toNat % 128 = 0 → x.toNat + 128 ≤ cap → bits y 5 3 ≠ 0 ∨ bits y 13 51 ≠ 0 → raises (.cpnest a b o) .lch 0x401 7)) ∧
        (∀ v u, s.spadBarred s.myCoreIx named = (some v, u) → x.toNat % 128 = 0 → x.toNat + 128 ≤ cap →
          ∃ t, exec (.cpnest a b o) s = .next t ∧ u.Trapped t .prm (word v) (cpPath .prm v))) ∧
      (count ≤ 20 →
        (2 ^ count ≤ bits x 0 20 → absent (.cpwait a) ∧ absent (.cpquie d a)) ∧
        (bits x 0 20 < 2 ^ count → 2 ^ 20 ≤ x.toNat → raises (.cpquie d a) .lch 0x401 7 ∧
          ((∀ e < count, (eng e).hold = false) → raises (.cpwait a) .lch 0x401 7)) ∧
        (2 ^ 20 ≤ x.toNat → raises (.cpsel d a) .lch 0x401 7) ∧
        (x.toNat < 2 ^ 20 → (∀ e < count, bit x e = false) → raises (.cpsel d a) .lch 0x40B 7)) ∧
      (count ≤ bits x 0 5 → absent (.cpstat d a) ∧ absent (.cpprog d a) ∧ absent (.cpsat d a b)) ∧
      (bits x 0 5 < count →
        (bits x 5 59 ≠ 0 → raises (.cpstat d a) .lch 0x401 7 ∧ raises (.cpprog d a) .lch 0x401 7) ∧
        (bits x 5 59 ≠ 0 ∨ bits y 1 63 ≠ 0 → raises (.cpsat d a b) .lch 0x401 7)))

/-- For a head command with a plain nest whose next run lies, source and destination, in the core's scratchpad, with
nothing in the way: INNERMOST_COPY queues one tile transfer that holds exactly the bytes read from the source, marks the
command as on its way, and changes no byte of memory. TILE_TRANSFER_RELEASE of a locked transfer of a copy puts its bytes
at the destination, changes no other byte of memory, and the command goes on to the next index, or is finished after the
last. That the run is read at one event and its bytes land as one tile transfer is log 11, the model's inference.  (R181,
R182, R230) -/
def Obligations.InnermostCopyMoves : Prop :=
  (∀ (s : State) (k : CoreIx) (e : Nat) (c : CopyCmd) (n : Nest) (src dst : Nat),
    s.copyNext k e = some (c, n) → ((s.core k).engine e).queue.head? = some c → coreOf c.cl = k → s.flits = [] → n.skind = 0 → n.dkind = 0 → n.rm = 0 → n.nar = 0 →
    n.total = none → 0 < n.run → n.run ≤ 2 ^ 20 → n.srcAt c.idx = src → n.dstAt c.idx 0 = dst →
    src + n.run ≤ spadBytes k → dst + n.run ≤ spadBytes k →
    (s.core k).secure = true → (s.die (dieOf k)).ready = true → (s.core k).spadBad = [] → (s.core k).tiles = [] → c.tag = 0 → e < 20 →
    ∃ t, exec (.innermostCopy k e) s = .next t ∧ (∀ l, t.peek l 1 = s.peek l 1) ∧
      (t.core k).tiles = [⟨s.serial, .copy e c.cls, [(dst, s.peek (.spad k src) n.run)], false, [], some s.serial⟩] ∧
      ((t.core k).engine e).queue = { c with flying := true, counts := (0, 0, 0) } :: ((s.core k).engine e).queue.drop 1) ∧
  (∀ (s : State) (k : CoreIx) (e m a : Nat) (bs : List Byte) (c : CopyCmd) (cs : List CopyCmd) (n : Nest) (asked : Option Nat),
    (s.core k).tiles = [⟨m, .copy e c.cls, [(a, bs)], true, [], asked⟩] → s.flits = [] → ((s.core k).engine e).queue = c :: cs →
    c.flying = true → c.nest = some n → n.rm = 0 → (s.core k).spad.wf = true → (s.core k).spadBad = [] → a + bs.length ≤ 2 ^ 24 → e < 20 →
    ∃ t, exec (.tileTransferRelease k m) s = .next t ∧ (t.core k).tiles = [] ∧ s.Stored t (.spad k a) bs ∧
      ((t.core k).engine e).queue = (match nextIdx c.idx n.trips with
        | some i => { c with flying := false, counts := (0, 0, 0), fillDue := false, idx := i }
        | none => { c with
          flying := false, counts := (0, 0, 0), fillDue := false, idx := List.replicate 6 0, finished := true }) :: cs)

/-- The head CPYP takes its block from the cache or the command store: a block that passes its checks gives the command
its nest, and one that fails holds the queue with the cause recorded. CPINV drops cache entries and leaves; CPNEST copies
128 bytes into the command store and leaves; a unit in claim mode claims the next slot when the ring grants it, and a
finished unit fills it; a finished command leaves, and a failed walk of the command behind it takes effect then, when
that command stands at the head (log 11, the model's inference); a window that ends clears its counts; a paused engine
with no open fault goes on.  (R93, R186, R188, R189, R190, R191, R192, R195, R198) -/
def Obligations.CopyEngineEvents : Prop :=
  ∀ (s : State) (k : CoreIx) (e : Nat), e < 20 →
    let x := s.core k
    let q := (x.engine e).queue
    let head (f : CopyCmd → CopyCmd) : List CopyCmd := match q with | c :: cs => f c :: cs | [] => []
    (∀ c block n, s.copyHead k e = some c → q.head? = some c → c.kind = .cpyp → c.nest = none → c.finished = false → s.beforeFetch c = false →
      s.fetchHeld k e c = false →
      ((∃ z, ((x.engine e).cache.find? fun z => z.key == c.ga && z.secure == x.secure) = some z ∧ z.block = block) ∨
        ((∀ z ∈ (x.engine e).cache, z.key ≠ c.ga) ∧ bit c.ga 63 = true ∧
          block = blockWords ((x.engine e).store.readN (128 * bits c.ga 0 5) 128))) →
      let u := s.modEngine k e fun z => z.enterBlock ⟨c.ga, x.secure, block⟩
      (u.checkBlock k c.user block = (.ok n, u) →
        ∃ t, exec (.blockFetch k e) s = .next t ∧ ((t.core k).engine e).queue = head (fun y => { y with nest := some n }) ∧
          ((t.core k).engine e).cache.head? = some ⟨c.ga, x.secure, block⟩ ∧ ∀ l, t.peek l 1 = s.peek l 1) ∧
      (∀ cause v, cause ≠ .prm → u.checkBlock k c.user block = (.error (cause, v), u) →
        ∃ t, exec (.blockFetch k e) s = .next t ∧ ((t.core k).engine e).hold = true ∧
          ((t.core k).engine e).err = some cause ∧ ((t.core k).engine e).errVal = BitVec.ofNat 32 v ∧
          ∀ l, t.peek l 1 = s.peek l 1)) ∧
    (∀ c, s.copyHead k e = some c → q.head? = some c → c.kind = .cpinv → (x.engine e).stopAt = none →
      ∃ t, exec (.cpinvEffect k e) s = .next t ∧ t = s.modEngine k e fun z => { z with
        queue := q.drop 1, cache := if bit c.gb 8 then [] else z.cache.filter fun b => b.key != c.ga }) ∧
    (∀ c, s.copyHead k e = some c → q.head? = some c → c.kind = .cpnest → s.held k (s.copyEntryOf k c) = false →
      x.lockedBut (Tile.byEngine e) c.ga.toNat 128 = false → x.spadBad = [] → (x.engine e).stopAt = none →
      ∃ t, exec (.cpnestEffect k e) s = .next t ∧ t = s.modEngine k e fun z => { z with
        queue := q.drop 1, cache := z.cache.filter fun b => b.key != word (2 ^ 63 + bits c.gb 0 5)
        store := z.store.writeN (128 * bits c.gb 0 5) (s.peek (.spad k c.ga.toNat) 128) }) ∧
    (∀ c n, s.copyNext k e = some (c, n) → q.head? = some c → n.rm = 2 → c.unit = none → s.ringGrants k n.ring (some (.engine e)) = true →
      n.ring < 64 →
      ∃ t, exec (.ringUnitClaim k e) s = .next t ∧ ((t.core k).ring n.ring).clm = (x.ring n.ring).clm + 1 ∧
        ((t.core k).engine e).queue = head (fun y => { y with unit := some ⟨n.ring, (x.ring n.ring).clm⟩ })) ∧
    (∀ c u, s.copyHead k e = some c → q.head? = some c → c.fillDue = true → c.unit = some u → u.k < 64 → (x.ring u.k).canFill u.s = true →
      ∃ t, exec (.ringUnitFill k e) s = .next t ∧ (t.core k).ring u.k = (x.ring u.k).doFill u.s ∧
        ((t.core k).engine e).queue = head (fun y => { y with fillDue := false, unit := none })) ∧
    (∀ c, s.copyHead k e = some c → q.head? = some c → c.finished = true → c.fillDue = false →
      ((x.engine e).stopAt = none →
        ∃ t, exec (.copyCommandComplete k e) s = .next t ∧ t = s.modEngine k e fun z => { z with queue := q.drop 1 }) ∧
      (∀ v c₂ cs, q = c :: c₂ :: cs → (x.engine e).stopAt = some (c₂.seq, v) →
        ∃ t, exec (.copyCommandComplete k e) s = .next t ∧ (∀ l, t.peek l 1 = s.peek l 1) ∧ ((t.core k).engine e).hold = true ∧
          ((t.core k).engine e).err = some .xlt ∧ ((t.core k).engine e).fa = word v ∧
          ((t.core k).engine e).queue.length = cs.length + 1)) ∧
    (let winl := max 10 (min 30 (bits (x.engine e).scfg 8 5))
     e < s.engineCount k → 2 ^ winl ≤ (x.engine e).winAge →
      ∃ t, exec (.narrowWindowBoundary k e) s = .next t ∧ t = s.modEngine k e fun z => { z with
        satw := 0, loww := 0, winAge := z.winAge - 2 ^ winl }) ∧
    ((x.engine e).pause = true → s.engWaits k e = false → (s.die (dieOf k)).mig = none →
      (∀ f ∈ s.flits, f.agent = e + 1 → coreOf f.cl = k → (s.die (f.dst.gate f.source)).mig = none) →
      ∃ t, exec (.engineFaultResume k e) s = .next t ∧ t = s.modEngine k e fun z => { z with pause := false })

/-- On a core of a stack die with room in the issue buffer, but for places that earlier waits will take, and in the
interval: LFMT, LHZC, LRTGT and LRSYNC with legal operands enter the buffer and change the issue view as their rules say;
LSAFE enters and starts the interval anew; LMCST and LDOT that pass their checks enter with no fence in the way, LDOT
with the entry it selects, its object and its destination, which may be the ring slot it claims, and LDOT of no rows
completes at once. With no room a macro waits, and stands last in the order of the waits. LPOLL and LSTAT answer the
register they name, LSTAT poison for a table word that cannot be corrected, and LCLR clears the reports. No byte of
memory changes at issue. LMCST and LDOT that fail a check trap, in user mode, with the cause of the lowest number and, of
one cause, the first that R287 lists. Also R52, R270, R273, R283, R312. An LSTAT poison word (R318, R323) holds the
poison value; its report, and the format words' place among what can be upset, are log 18, the model's inference.  (R271,
R272, R275, R285, R286, R287, R288, R289, R290, R291, R318, R323) -/
def Obligations.LaneWords : Prop :=
  ∀ (s : State) (d a b : Reg) (o : Cls),
    let x := s.g a
    let y := s.g b
    let w := s.g d
    let l := s.myDie.lanes
    let on (f : Lanes → Lanes) : State := s.modDie s.myDieIx fun z => { z with lanes := f z.lanes }
    let enter (u : State) (m : LMacro) (f : Lanes → Lanes) : State :=
      (u.modDie s.myDieIx fun z => { z with lanes := { f z.lanes with
        buf := l.buf ++ [m], intv := if m.kind = .lsafe then 0 else l.intv + 1
        waiters := l.waiters.filter fun v => v != (s.focus, s.me.since) } }).tick
    isHub s.myDieIx = false →
    (s.laneFull = true → (∀ v ∈ l.waiters, v.1 ≠ s.focus) → s.me.since = 0 →
      ∃ t n, exec .lsafe s = .next t ∧ t.note = .waited ∧ t.me.pc = s.me.pc ∧ t.me.since = n ∧ n ≠ 0 ∧ t.myLanes.buf = l.buf ∧
        t.myLanes.waiters = (l.waiters.filter fun v => (s.cluster v.1).since == v.2) ++ [(s.focus, n)] ∧ s.SameMemory t) ∧
    (s.laneFull = false →
      (∃ t, exec .lsafe s = .next t ∧ (enter s (s.newMacro .lsafe 0 0 0 0) id).Passed t ∧ s.SameMemory t) ∧
      (l.intv < 256 →
        (∀ e : FmtEntry, e = ⟨word (bits w 0 58), x, y⟩ → bits w 1 3 = 0 → bits w 6 2 = 0 → bits w 24 34 = 0 → e.ok = true →
          ∃ t, exec (.lfmt d a b) s = .next t ∧ s.SameMemory t ∧
            (enter s { s.newMacro .lfmt 0 w x y with entry := e } fun z =>
              if z.issApl then { z with iss0 := vset z.iss0 (bits w 58 6) e }
              else { z with iss1 := vset z.iss1 (bits w 58 6) e }).Passed t) ∧
        (bits x 0 2 ≠ 3 → bits x 2 6 = 0 → bits x 16 48 = 0 → -32 ≤ sextNat (bits x 8 8) 8 → sextNat (bits x 8 8) 8 ≤ 31 →
          ∃ t, exec (.lhzc a) s = .next t ∧ s.SameMemory t ∧
            (enter s (s.newMacro .lhzc 0 0 x 0) fun z => { z with issHzdef := x }).Passed t) ∧
        (x.toNat < 3 → ∃ t, exec (.lrtgt a) s = .next t ∧ s.SameMemory t ∧
            (enter s (s.newMacro .lrtgt 0 0 x 0) fun z => { z with issRmode := x }).Passed t) ∧
        (x.toNat < 2 → ∃ t, exec (.lrsync a) s = .next t ∧ s.SameMemory t ∧
            (enter s (s.newMacro .lrsync 0 0 x 0) fun z => { z with issApl := z.issApl != bit x 0 }).Passed t) ∧
        (let len := 64 * bits y 36 12
         let n := if bit y 35 then len / 64 * 65 else len / 32 * 33
         bits x 24 40 = 0 → bits y 0 35 = 0 → 0 < len → len ≤ 4096 → bits y 54 10 % 2 ^ bits y 50 4 = 0 →
          bits y 54 10 + 2 ^ bits y 50 4 ≤ s.myDie.lanesN → 2048 * bits y 48 2 + n ≤ 8192 →
          bits x 0 24 + n * 2 ^ bits y 50 4 ≤ spadBytes s.myCoreIx →
          s.spadBarred s.myCoreIx [(bits x 0 24, bits x 0 24 + n * 2 ^ bits y 50 4)] = (none, s) → s.me.gated .l o = false →
          ∃ t, exec (.lmcst a b o) s = .next t ∧ s.SameMemory t ∧ (enter s (s.newMacro .lmcst o 0 x y) id).Passed t))) ∧
    (bits y 48 16 = 0 → ∃ t, exec (.ldot d a b o) s = .next t ∧ s.Passed t) ∧
    (∀ ob e, bits y 48 16 ≠ 0 → s.laneFull = false → s.me.gated .l o = false →
      let k := bits w 58 6
      let r := s.myCore.ring k
      let m : LMacro := { s.newMacro .ldot o w x y with
        dring := if bit w 7 then some ⟨k, r.clm⟩ else none
        dbase := if bit w 7 then r.addr r.clm + bits w 40 18 else bits w 40 24 }
      s.laneObject (BitVec.ofNat 32 (bits x 32 32)) = (.ok ob, s) → m.select s.me.loops = some e →
      s.laneBarred (m.vectors.map fun v => (m.resultAddr 0 v, m.resultAddr m.rows v)) = ([], s) →
      m.addrErrs (spadBytes s.myCoreIx) ++ s.ldotErrs m (.ok ob) (some (l.issueEntry e)) ++
        m.ringErrs (if bit w 7 then some r else none) (bits w 40 18) = [] →
      (bit w 7 = true → s.ringGrants s.myCoreIx k s.myWaiter = true) →
      ∃ t, exec (.ldot d a b o) s = .next t ∧ s.SameMemory t ∧
        (enter (if bit w 7 then (s.ringClaim s.myCoreIx k s.myWaiter).2 else s)
          { m with entry := l.issueEntry e, fe := e, obj := some ob } id).Passed t) ∧
    (bits x 2 6 = 0 → bits x 9 55 = 0 → (bit x 8 = true ∨ s.ldotPending = false) →
      ∃ t, exec (.lpoll d a) s = .next t ∧ s.Wrote t d (match bits x 0 2 with
        | 0 => word l.lpois
        | 1 => l.lpfirst
        | 2 => l.hzsum
        | _ => l.planeCounts)) ∧
    (s.ldotPending = false → ∃ t, exec .lclr s = .next t ∧ s.SameMemory t ∧
      (on fun z => { z with lpois := 0, lpfirst := 0, hzConv := 0, hzStag := 0, hzNzd := 0, hzLim := 0
                            lplh := Vector.replicate 8 0 }).Passed t) ∧
    (bits x 2 4 = 0 → bits x 13 51 = 0 → bits x 0 2 ≠ 3 →
      let e := l.entry (bit x 12) (bits x 6 6)
      let bad := l.fmtBad.contains (bits x 6 6 + (if bit x 12 then 64 else 0), bits x 0 2)
      (bad = false → ∃ t, exec (.lstat d a) s = .next t ∧
        s.Wrote t d (match bits x 0 2 with | 0 => e.ctl | 1 => e.tol | _ => e.lim)) ∧
      (bad = true → d ≠ 0 → ∃ t, exec (.lstat d a) s = .next t ∧ t.me.g d = 0x7FE0_0000_7FE0_0000)) ∧
    (s.me.mode = .user →
      let raises (i : Instr) (u : State) (cause : Cause) (v path : Nat) : Prop :=
        ∃ t, exec i s = .next t ∧ u.Trapped t cause (word v) path
      let cap := spadBytes s.myCoreIx
      (let lc := bits y 36 12
       let src := bits x 0 24
       let each := if bit y 35 then lc * 65 else 64 * lc / 32 * 33
       let n := each * 2 ^ bits y 50 4
       let plain : Prop := bits x 24 40 = 0 ∧ bits y 0 35 = 0
       let i : Instr := .lmcst a b o
       ∀ world u, s.laneBarred [(src, src + n)] = (world, u) →
        let ok : Prop := 0 < lc ∧ lc ≤ 64 ∧ bits y 54 10 % 2 ^ bits y 50 4 = 0 ∧
          bits y 54 10 + 2 ^ bits y 50 4 ≤ u.myDie.lanesN ∧ 2048 * bits y 48 2 + each ≤ 8192
        (n ≠ 0 → cap < src + n → raises i u .xlt (max src cap) 4) ∧
        (n = 0 ∨ src + n ≤ cap →
          (∀ v, world = [(.prm, v)] → raises i u .prm v 4) ∧
          (world = [] → ¬ plain → raises i u .lch 0x601 7) ∧
          (world = [] → plain → ¬ ok → raises i u .lch 0x606 7) ∧
          (world = [] → plain → ok → 256 ≤ u.myDie.lanes.intv → raises i u .lch 0x608 7))) ∧
      (bits y 48 16 ≠ 0 →
        let k := bits w 58 6
        let r := s.myCore.ring k
        let m : LMacro := { s.newMacro .ldot o w x y with
          dring := if bit w 7 then some ⟨k, r.clm⟩ else none
          dbase := if bit w 7 then r.addr r.clm + bits w 40 18 else bits w 40 24 }
        let placed : Bool := !bit w 7 || r.enabled
        let h := bits x 32 32
        let e? := (m.select s.me.loops).map l.issueEntry
        let plain : Prop := bits y 0 35 = 0 ∧ bits w 0 7 = 0 ∧ bits w 8 16 = 0
        let ends := m.vectors.map fun v => m.resultAddr 0 v + m.esz * m.rows
        let i : Instr := .ldot d a b o
        ∀ ob u world v, s.laneObject (BitVec.ofNat 32 h) = (ob, u) →
          u.laneBarred (if placed then m.vectors.map fun v => (m.resultAddr 0 v, m.resultAddr m.rows v) else []) = (world, v) →
          (placed = true → m.dbase % m.esz ≠ 0 → raises i v .aln m.dbase 4) ∧
          (placed = true → m.dbase % m.esz = 0 → (∃ z ∈ ends, cap < z) → ∃ q, cap ≤ q ∧ raises i v .xlt q 4) ∧
          (placed = false ∨ (m.dbase % m.esz = 0 ∧ ∀ z ∈ ends, z ≤ cap) →
            (∀ q, placed = true → world = [(.prm, q)] → raises i v .prm q 4) ∧
            (placed = false ∨ world = [] →
              (∀ q, ob = .error (.hdl, q) → raises i v .hdl q 7) ∧
              (¬ plain → (∀ q, ob ≠ .error (.hdl, q)) → raises i v .lch 0x601 7) ∧
              (plain → ∀ q, ob = .error (.lch, q) → raises i v .lch q 7) ∧
              (plain → ∀ z, ob = .ok z →
                let short : Prop := z.rows < m.row0 + m.rows
                let tall : Prop := m.vectorsBad z.sliceLen e? = true
                (short → raises i v .lch 0x604 7) ∧
                (¬ short → tall → raises i v .lch 0x606 7) ∧
                (¬ short → ¬ tall → e? = none → raises i v .lch 0x607 7) ∧
                (∀ e, ¬ short → ¬ tall → e? = some e →
                  let unfit : Prop := e.npl = 0 ∨ e.npl ≠ z.npl
                  (unfit → raises i v .lch 0x605 7) ∧
                  (¬ unfit → 256 ≤ s.myDie.lanes.intv → raises i v .lch 0x608 7) ∧
                  (¬ unfit → s.myDie.lanes.intv < 256 → bit w 7 = true →
                    (r.enabled = false → raises i v .rng 1 7) ∧
                    (r.enabled = true → (∃ c ∈ m.vectors, r.size < bits w 40 18 + m.esz * (m.rows + m.vstr * c)) →
                      raises i v .rng 7 7))))))))

/-- In user mode, each of the twelve matrix words on a core of a stack die, which has no matrix engine, and each of the
ten lane words on a core of a hub die, which has no lanes, takes the trap AUT. The value saved in TVAL is the model's
free value, for the manual gives none (log 6): the statement holds for every one.  (R28, R284, R326) -/
def Obligations.AbsentUnitsRaiseAut : Prop :=
  ∀ (s : State) (d a b : Reg) (o : Cls), s.me.mode = .user →
    let raises (i : Instr) : Prop :=
      ∃ t tval, exec i s = .next t ∧ ({ s with freeCtr := s.freeCtr + 1 } : State).Trapped t .aut tval 7
    (isHub s.myDieIx = false → ∀ i ∈ ([.mxcfg a b, .mxgo o, .mxwait, .mxstat d, .mxidx a o, .sqp a, .sqld a b o, .mxdrain a b o,
      .mxfrz, .mxthaw, .mxprog d, .mxclr] : List Instr), raises i) ∧
    (isHub s.myDieIx = true → ∀ i ∈ ([.lfmt d a b, .lmcst a b o, .ldot d a b o, .lhzc a, .lrsync a, .lsafe, .lpoll d a, .lclr,
      .lrtgt a, .lstat d a] : List Instr), raises i)

/-- The model's sum over the elements of an activation block, formed from p-bit prefixes, is the sum over the planes j <
p of 2^(p-j) M_j less (2^p - 1) A, where M_j sums the codes whose plane-j bit is one and A sums them all, for every
slice, block, activation and p.  (R119) -/
def Obligations.LaneBlockSums : Prop :=
  ∀ (data act : List Byte) (len kb h p : Nat), kb = 32 ∨ kb = 64 →
    let code (n : Nat) : Int := (act.getD (h * (kb + 1) + n) 0).toInt
    let plane (j i : Nat) : Bool := (data.getD (32 * ((len + 1023) / 1024) + j * len / 8 + i / 8) 0).getLsbD (i % 8)
    let m (j : Nat) : Int := ((List.range kb).map fun n => if plane j (h * kb + n) then code n else 0).sum
    let total : Int := ((List.range kb).map code).sum
    blockSum data act len kb h p = ((List.range p).map fun j => (2 : Int) ^ (p - j) * m j).sum - (2 ^ p - 1) * total

/-- For every power of two, the tree over 2^(n+1) values is one rounded addition of the trees over its two halves, with
the flags of all additions; the tree over one value is that value, with no flag.  (R122) -/
def Obligations.ReductionTreeOrder : Prop :=
  (∀ v : W32, reduceTree 0 [v] = (v, 0)) ∧
  ∀ (n : Nat) (xs ys : List W32), xs.length = 2 ^ n → ys.length = 2 ^ n →
    (reduceTree (n + 1) (xs ++ ys)).1 = (addF32 (reduceTree n xs).1 (reduceTree n ys).1).1 ∧
    (reduceTree (n + 1) (xs ++ ys)).2 = (reduceTree n xs).2 ||| (reduceTree n ys).2 |||
      (addF32 (reduceTree n xs).1 (reduceTree n ys).1).2

/-- The oldest macro of the buffer is broadcast when the lanes allow it, marked where its format entry cannot be
corrected; a lane starts or completes the macro at its head; a beat read joins the slice's data within a plane, and one
that fails ends the slice poisoned; a complete row is delivered to its address in the three modes of R289, with the
poison value where a slice met an error, its roundings' flags join the macro's, and with the last result the cluster's,
and a poison value makes ECU pending under LCTL.PTE; a multicast lands its bytes in every lane it names; LRSYNC and LSAFE
complete when every lane has reached them; the macros of an interval that passes the watchdog go back to the buffer,
their undelivered results to be formed anew; a lane with a parity error forms its slice anew, and after two replays its
column is reset and the interval goes back likewise. Also R285. Model's choices and inferences: that a macro whose format
entry cannot be corrected ends its slices with poison is log 67 (R318, R323); the delivery of a row at one event is log
38; that a P(p) formed for a vector whose series has closed raises its flags is log 63.  (R135, R269, R272, R273, R274,
R275, R286, R287, R289, R318, R322, R323) -/
def Obligations.LaneEvents : Prop :=
  ∀ (s : State) (die : DieIx) (lane : Nat), lane < 1024 →
    let x := (s.die die).lanes
    let n := (s.die die).lanesN
    let same (t : State) : Prop := ∀ l, t.peek l 1 = s.peek l 1
    let again := ((x.tail ++ x.live).filter fun m => m.accessing || (m.kind != .ldot && m.kind != .lmcst)).map (fun m =>
      ({ m with results := [], replays := [] } : LMacro)) ++ x.buf
    (∀ m rest, x.buf = m :: rest → x.mayBroadcast n = true → m.kind = .ldot →
      (∃ b ∈ x.fmtBad, b.1 = m.fe + (if x.apl then 64 else 0)) →
      ∃ t, exec (.macroBroadcast die) s = .next t ∧ (t.die die).lanes.buf = rest ∧
        (t.die die).lanes.live = x.live ++ [{ m with feBad := true }]) ∧
    (∀ m rest, x.buf = m :: rest → x.mayBroadcast n = true →
      (m.kind = .ldot → ∀ b ∈ x.fmtBad, b.1 ≠ m.fe + (if x.apl then 64 else 0)) →
      ∃ t, exec (.macroBroadcast die) s = .next t ∧ same t ∧ (t.die die).lanes.buf = rest ∧
        (t.die die).lanes.live = x.live ++ [{ m with feBad := false }] ∧
        (m.kind = .lfmt → (t.die die).lanes.entry (!x.apl) (bits m.gd 58 6) = m.entry) ∧
        (m.kind = .lhzc → (t.die die).lanes.lhzdef = m.ga) ∧ (m.kind = .lrtgt → (t.die die).lanes.lrmode = m.ga)) ∧
    (∀ m, s.laneRuns die lane = true → (∀ r ∈ x.runs, r.lane ≠ lane) → x.doneOf lane < x.least n + 48 → x.head lane = some m →
      (m.kind = .lfmt ∨ m.kind = .lhzc ∨ m.kind = .lrtgt ∨ (m.kind = .lmcst ∧ m.landed = true) ∨ (m.kind = .ldot ∧ m.obj = none) →
        ∃ t, exec (.laneMacroRun die lane) s = .next t ∧ same t ∧ (t.die die).lanes.doneOf lane = x.doneOf lane + 1 ∧
          ∀ j, j ≠ lane → (t.die die).lanes.doneOf j = x.doneOf j) ∧
      (∀ o k i, m.kind = .ldot → m.obj = some o → o.sliceIn lane = some k → m.nextRow k 0 = some i →
        ∃ t, exec (.laneMacroRun die lane) s = .next t ∧ same t ∧
          t = s.modDie die fun z => { z with lanes := { x with runs :=
            ⟨lane, i, 0, [], m.vectors.map fun _ => Series.reset, m.vectors.map fun _ => 0⟩ :: x.runs.filter fun q => q.lane != lane } })) ∧
    (∀ m o k r, s.laneRuns die lane = true → x.runs.find? (fun r => r.lane == lane) = some r → x.head lane = some m →
      m.obj = some o → o.sliceIn lane = some k →
      let beat := s.shareRead o r.lane ((m.row0 + r.row) * o.rowBytes + r.data.length) (o.nextBeat r) (s.cluster m.cl).lid
      ∃ t, exec (.lanePlaneRead die lane) s = .next t ∧ t = s.planeRead die m o k r ∧
        (beat.2.1 = true ∨ m.feBad = true → t = beat.2.2.sliceEnd die m k r true) ∧
        (beat.2.1 = false → m.feBad = false → r.data.length + beat.1.length < o.prefixBytes r.p →
          (t.die die).lanes.runs.find? (fun q => q.lane == lane) = some { r with data := r.data ++ beat.1 } ∧
          ∀ l, t.peek l 1 = beat.2.2.peek l 1)) ∧
    (∀ m j q o k, x.macro? m = some q → q.kind = .ldot → q.obj = some o → s.tableCore die = some k →
      let rs := q.slices (j / 4) (j % 4) (2 ^ o.spl)
      let adr := q.resultAddr (j / 4) (j % 4)
      let poison := rs.any (·.poison)
      let value := (rowValue rs).1
      let sum := addF32 (BitVec.ofNat 32 (leNat (s.peek (.spad k adr) 4))) value
      let half := fmtBF16.ofNum false (numF32 value)
      let bytes : List Byte :=
        if poison then (if q.rmode = 2 then leBytes 2 0x7FE0 else leBytes 4 0x7FE0_0000)
        else if q.rmode = 1 then leBytes 4 sum.1.toNat
        else if q.rmode = 2 then leBytes 2 half.code
        else leBytes 4 (if (numF32 value).isNan then 0x7FC0_0000 else value.toNat)
      let flags : Flags :=
        if poison then rs.foldl (fun acc z => acc ||| z.flags) 0
        else (rowValue rs).2 ||| (if q.rmode = 1 then sum.2 else if q.rmode = 2 then half.flags else 0)
      let left := q.rows * q.vectors.length - q.delivered.length
      let report (y : Lanes) : Word := if y.lpois = 0 then packWord [(32, q.handle.toNat), (0, (q.row0 + j / 4) % 2 ^ 32)] else y.lpfirst
      rs.length = 2 ^ o.spl → q.isDelivered (j / 4) (j % 4) = false → s.bankWait (.spad k adr) q.esz = false →
      (s.core k).spad.wf = true → (s.core k).spadBad = [] → adr + 4 ≤ 2 ^ 24 → 0 < left →
      ∃ t, exec (.rowResultDelivery die m j) s = .next t ∧ s.Stored t (.spad k adr) bytes ∧
        (1 < left → ∃ q', (t.die die).lanes.macro? m = some q' ∧ q'.flags = q.flags ||| flags ∧
          q'.delivered = (4 * (j / 4) + j % 4) :: q.delivered) ∧
        (left = 1 → (s.cluster q.cl).runs q.seq = true →
          (t.cluster q.cl).fpflg = (s.cluster q.cl).fpflg ||| q.flags ||| flags) ∧
        (poison = true → bit x.lctl 0 = true → 1 < left →
          (t.cluster q.cl).pend = (s.cluster q.cl).pend.filter (fun p => p.cause != .ecu) ++ [⟨.ecu, report x, 4⟩]) ∧
        (t.die die).lanes.lpois = (if poison then min (2 ^ 32 - 1) (x.lpois + 1) else x.lpois)) ∧
    (∀ m i q k, findIdx (fun q => q.seq == m) x.live = some (i, q) → q.kind = .lmcst → q.landed = false → x.stopped = false →
      s.tableCore die = some k → (∀ j < q.mcstLanes.2, x.doneOf (q.mcstLanes.1 + j) = x.base + i) →
      s.bankWait (.spad k q.mcstSrc) (q.mcstBytes * q.mcstLanes.2) = false → (s.core k).spadBad = [] → x.abuf.wf = true →
      2048 * q.mcstSlot + q.mcstBytes ≤ 8192 →
      ∃ t, exec (.multicastLand die m) s = .next t ∧ same t ∧ ∀ j < q.mcstLanes.2,
        (t.die die).lanes.abuf.readN (8192 * (q.mcstLanes.1 + j) + 2048 * q.mcstSlot) q.mcstBytes =
          s.peek (.spad k (q.mcstSrc + j * q.mcstBytes)) q.mcstBytes) ∧
    (∀ m rest, x.live = m :: rest → x.gathered n = true → x.stopped = false →
      (m.kind = .lrsync → ∃ t, exec (.lrsyncDrain die) s = .next t ∧ same t ∧ (t.die die).lanes.live = rest ∧
        (t.die die).lanes.apl = (x.apl != bit m.ga 0) ∧ (t.die die).lanes.syncn = (x.syncn + 1) % 256) ∧
      (m.kind = .lsafe → x.tail = [] → ∃ t, exec (.lsafeComplete die) s = .next t ∧ same t ∧ (t.die die).lanes.live = rest ∧
        (t.die die).lanes.safen = (x.safen + 1) % 256 ∧ (t.die die).lanes.stopped = x.prep)) ∧
    (x.prep = true → 3_200_000 ≤ x.prepAge →
      ∃ t, exec (.laneWatchdogReset die) s = .next t ∧ (bit (s.die die).elbase 0 = false → same t) ∧ (t.die die).lanes.wdr = true ∧ (t.die die).lanes.prep = false ∧
        (t.die die).lanes.live = [] ∧ (t.die die).lanes.runs = [] ∧ (t.die die).lanes.buf = again) ∧
    (∀ m r, x.head lane = some m → x.runs.find? (fun r => r.lane == lane) = some r → x.stopped = false →
      (m.replaysIn lane < 2 → ∃ t, exec (.laneParityReplay die lane) s = .next t ∧ same t ∧
        (t.die die).lanes.runs.find? (fun r => r.lane == lane) = some (m.freshRun lane r.row)) ∧
      (2 ≤ m.replaysIn lane → ∃ t, exec (.laneParityReplay die lane) s = .next t ∧
        (bit (s.die die).elbase 0 = false → same t) ∧ (t.die die).lanes.runs = [] ∧
        (t.die die).lanes.buf = again))

/-- TURN of 1 to 15 groups on a link of the issuing die joins the queue as a share of end A and answers 0; a turn to the
present share with nothing before it is removed at once; with eight turns queued it answers 1. LNKQ reports the groups
outbound, the queue and the forced turns, which it clears when gB[0] is set. A turn starts 3,200 cycles after the last
where no forced turn is due, takes effect with 77 cycles of dead time and the age at zero, and the dead time ends; a
direction of one group whose flits have waited 32,000 cycles forces a turn to 8.  (R292, R293, R294, R295) -/
def Obligations.LinkWordsAndTurns : Prop :=
  (∀ (s : State) (d a b : Reg) (l : LinkIx),
    let me := s.myDieIx
    let x := s.link l
    let n := (s.g b).toNat
    let share := if (linkEnds l).1 = me then n else 16 - n
    let on (f : Link → Link) : State := s.modLink l f
    (s.g a).toNat = l.val → onLink l me = true →
    (1 ≤ n → n ≤ 15 → x.queue.length < 8 → ∃ t, exec (.turn d a b) s = .next t ∧ s.SameMemory t ∧
      (on fun y => { y with queue := if x.turning.isSome then x.queue ++ [share]
        else (x.queue ++ [share]).dropWhile (· == x.share) }).Wrote t d 0) ∧
    (1 ≤ n → n ≤ 15 → 8 ≤ x.queue.length → ∃ t, exec (.turn d a b) s = .next t ∧ s.Wrote t d 1) ∧
    (n < 2 → x.queue.length ≤ 8 → (∀ q ∈ x.share :: x.queue, 1 ≤ q ∧ q ≤ 15) → (x.nearEnd l me).fcnt ≤ 255 →
      ∃ t v, exec (.lnkq d a b) s = .next t ∧ s.SameMemory t ∧
        (if n = 1 then on fun y => y.modNear l me fun e => { e with fcnt := 0 } else s).Wrote t d v ∧
        bits v 0 32 = min x.age (2 ^ 32 - 1) ∧ bits v 32 4 = l.val ∧
        bits v 36 4 = (if (linkEnds l).1 = me then x.share else 16 - x.share) ∧ bits v 44 4 = x.queue.length ∧
        bits v 48 8 = (x.nearEnd l me).fcnt)) ∧
  (∀ (s : State) (l : LinkIx),
    let x := s.link l
    (∀ a rest, x.queue = a :: rest → a ≠ x.share → x.turning = none → x.retraining = false → 3200 ≤ x.age →
      (x.share = 1 → x.endA.floorAge < 32000) → (x.share = 15 → x.endB.floorAge < 32000) →
      ∃ t, exec (.turnStart l) s = .next t ∧ t = s.modLink l fun y => { y with turning := some (a, false) }) ∧
    (∀ a forced, x.turning = some (a, forced) →
      ∃ t, exec (.turnEffect l) s = .next t ∧ (t.link l).share = a ∧ (t.link l).age = 0 ∧ (t.link l).dead = 77 ∧
        (t.link l).turning = none ∧
        (t.link l).queue = (if forced then x.queue else x.queue.drop 1).dropWhile (· == a) ∧
        t = s.modLink l fun _ => t.link l) ∧
    (x.dead ≠ 0 → x.dead ≤ x.age →
      ∃ t, exec (.deadTimeEnd l) s = .next t ∧ t = s.modLink l fun y => { y with dead := 0 }) ∧
    (x.turning = none → x.retraining = false → 3200 ≤ x.age →
      ((x.share = 1 ∧ 32000 ≤ x.endA.floorAge) ∨ (x.share = 15 ∧ 32000 ≤ x.endB.floorAge)) →
      ∃ t, exec (.forcedTurn l) s = .next t ∧ (t.link l).turning = some (8, true) ∧
        (t.link l).endA.fcnt = min 255 (x.endA.fcnt + 1) ∧ (t.link l).endB.fcnt = min 255 (x.endB.fcnt + 1) ∧
        t = s.modLink l fun _ => t.link l))

/-- For every address that is allocated on the die and whose unit the core has, and in the secure world for the
secure-only range, GETC completes and writes the register's value, once no earlier scalar store of the cluster is on its
way; until then it waits; and the values of the cluster's registers, of the user registers seen from handler mode, of the
loop registers, the cycle counter, the page-table root, the world map and others are the state's own.  (R38, R39, R41,
R45, R75, R87, R131, R225, R328) -/
def Obligations.RegistersRead : Prop :=
  ∀ (s : State) (d : Reg), s.me.gatedCreg = false →
    (s.postedScalar s.focus = true → ∀ c : BitVec 12, cregAcc (isHub s.myDieIx) c.toNat ≠ none →
      s.cregAbsent s.myCoreIx c.toNat = false → (c.toNat < 0xC00 ∨ s.myCore.secure = true) →
      ∃ t, exec (.getc d c) s = .next t ∧ t.me.pc = s.me.pc ∧ (∀ r, t.me.g r = s.me.g r) ∧ s.SameMemory t) ∧
    (s.postedScalar s.focus = false → ∀ c : BitVec 12, cregAcc (isHub s.myDieIx) c.toNat ≠ none → s.cregAbsent s.myCoreIx c.toNat = false →
      (c.toNat < 0xC00 ∨ s.myCore.secure = true) →
      ∃ t, exec (.getc d c) s = .next t ∧ s.Wrote t d (s.cregRead s.focus c.toNat)) ∧
    (s.postedScalar s.focus = false → ∀ p ∈ ([(0x001, s.me.tcause), (0x002, s.me.tepc), (0x003, s.me.tval), (0x005, s.me.thvec),
        (0x004, word (flagNat (s.me.mode == .handler) + 2 * flagNat s.myCore.secure + 4 * flagNat s.me.pmode +
          8 * flagNat s.me.pworld + 16 * flagNat s.me.solo)),
        (0x008, s.me.fpflg.setWidth 64), (0x009, s.me.fpxen.setWidth 64), (0x040, s.me.vlca), (0x041, s.me.vlcb),
        (0x018, word s.me.loops.depth), (0x010, (s.me.loops.cnt[0]).setWidth 64), (0x013, (s.me.loops.cnt[3]).setWidth 64),
        (0x014, word ((s.me.loops.start[0]).toNat * 2 ^ 32 + (s.me.loops.stop[0]).toNat)),
        (0x020, 0), (0x021, s.me.regs[1]), (0x03F, s.me.regs[31]), (0x100, s.myCore.syncwd), (0x102, s.myCore.preq),
        (0x300, s.myCore.ptroot), (0x110, (s.myCore.rings[0]).cfg), (0x14F, (s.myCore.rings[63]).cfg),
        (0x480, (s.myCore.hzSlot 0).ctl), (0x4FA, (s.myCore.hzSlot 15).lim), (0x800, s.myDie.orient), (0x801, s.myDie.cycle),
        (0x809, s.myDie.ckcfg), (0x903, s.myDie.notify), (0xA08, s.myDie.pwrcap.setWidth 64)] : List (BitVec 12 × Word)),
      ∃ t, exec (.getc d p.1) s = .next t ∧ s.Wrote t d p.2) ∧
    (s.postedScalar s.focus = false → s.myCore.secure = true →
      ∀ p ∈ ([(0xC00, s.myDie.wmapb), (0xC01, s.myDie.blkw.setWidth 64), (0xC03, s.myDie.spnum.setWidth 64),
          (0xC20, s.myDie.elbase)] : List (BitVec 12 × Word)),
        ∃ t, exec (.getc d p.1) s = .next t ∧ s.Wrote t d p.2)

/-- In handler mode of the secure world, and with a value that sets no reserved bit, with no scalar store of the cluster
on its way and no fence of it that names the scalar path open, SETC of each register named takes gA and completes: the
trap registers, THVEC, the flags, the user registers, and the registers of the core, of the die and of the secure-only
range. FPFLG and FPXEN take it in either mode and either world. No general register of the current bank and no byte of
memory changes. Also R250 (SCHEN) and R326 (the trap registers). That the register paths wait for a fence naming the
scalar path is R39 and R216; a value that a rule excludes, as SPNUM above 639, is refused as a reserved bit is (log 40,
the model's inference).  (R39, R87, R252, R306, R312, R313, R324, R325, R329, R339, R346, R352) -/
def Obligations.RegistersWritten : Prop :=
  ∀ (s : State) (a : Reg), s.me.gatedCreg = false → s.postedScalar s.focus = false →
    let v := s.g a
    let core (f : Core → Core) : State := s.modMyCore f
    let die (f : Die → Die) : State := s.modDie s.myDieIx f
    (∀ p ∈ ([(0x008, fun x => x.fpflg), (0x009, fun x => x.fpxen)] : List (BitVec 12 × (Cluster → BitVec 5))),
      v.toNat < 32 → ∃ t, exec (.setc p.1 a) s = .next t ∧ p.2 t.me = v.setWidth 5 ∧ s.SameMemory t ∧ s.OnlyMe t ∧
        s.me.Follows t.me ∧ (∀ r, t.me.g r = s.me.g r) ∧ t.me.mode = s.me.mode ∧ t.me.tepc = s.me.tepc) ∧
    (s.me.mode = .handler → s.myCore.secure = true →
      (∀ p ∈ ([(0x001, 0xC71F, fun x => x.tcause), (0x002, 0x3FFFF, fun x => x.tepc), (0x003, 2 ^ 64 - 1, fun x => x.tval),
          (0x005, 0x3FFFC, fun x => x.thvec)] : List (BitVec 12 × Nat × (Cluster → Word))),
        outside v p.2.1 = false → ∃ t, exec (.setc p.1 a) s = .next t ∧ p.2.2 t.me = v ∧ s.SameMemory t ∧ s.OnlyMe t ∧
          (∀ r, t.me.g r = s.me.g r) ∧ t.me.pc = s.me.pc + 4 ∧ t.me.mode = .handler ∧ t.me.regs = s.me.regs) ∧
      (outside v 0x1F = false → ∃ t, exec (.setc 0x004 a) s = .next t ∧ t.me.solo = bit v 4 ∧ t.me.pworld = bit v 3 ∧
        t.me.pmode = bit v 2 ∧ t.me.mode = .handler ∧ s.OnlyMe t ∧ s.SameMemory t) ∧
      (∀ k : Reg, ∃ t, exec (.setc (0x020 + k.setWidth 12) a) s = .next t ∧ (k ≠ 0 → t.me.ug k = v) ∧ t.me.ug 0 = 0 ∧
        (∀ r, r ≠ k → t.me.ug r = s.me.ug r) ∧ (∀ r, t.me.g r = s.me.g r) ∧ s.OnlyMe t ∧ s.SameMemory t) ∧
      (∀ p ∈ ([(0x100, 2 ^ 64 - 1, core fun x => { x with syncwd := v }), (0x104, 0x7F, core fun x => { x with hlim := bits v 0 7 }),
          (0x200, 0xF, core fun x => { x with schen := v.setWidth 4 }),
          (0x300, 0xFFFF_FFFF_F001, core fun x => { x with ptroot := v }),
          (0x306, 0xFFFF, core fun x => { x with owntag := v.setWidth 16 }), (0x804, 1, die fun x => { x with ete := bit v 0 }),
          (0x808, 0x00FF_00FF_FFFF_0000, die fun x => { x with scrub := scrubClamp v }),
          (0x809, 0xFFFF_0001, die fun x => { x with ckcfg := v }), (0x900, 0x1F, die fun x => { x with agel := bits v 0 5 }),
          (0x902, 0xFFFF_FFFF_8000, die fun x => { x with qtbase := v }),
          (0xA08, 0xFFFF, die fun x => { x with pwrcap := v.setWidth 16 }),
          (0xC00, 0xFFFF_FFFF_0001, die fun x => { x with wmapb := v }),
          (0xC01, 0xFF_FFFF, die fun x => { x with blkw := v.setWidth 24 }),
          (0xC20, 0xFFFF_FFFF_E001, die fun x => { x with elbase := v }),
          (0xC21, 2 ^ 64 - 1, die fun x => { x with elRd := (v >>> 16).setWidth 24 })] : List (BitVec 12 × Nat × State)),
        outside v p.2.1 = false → ∃ t, exec (.setc p.1 a) s = .next t ∧ p.2.2.Passed t ∧ s.SameMemory t) ∧
      (v.toNat ≤ 639 → ∃ t, exec (.setc 0xC03 a) s = .next t ∧ (die fun x => { x with spnum := v.setWidth 10 }).Passed t ∧
        s.SameMemory t) ∧
      (isHub s.myDieIx = false →
        ∀ p ∈ ([(0x740, 1, die fun x => { x with lanes := { x.lanes with lctl := v } }),
            (0xA00, 0xFF, die fun x => { x with vbsel := bits v 0 8 }), (0xA05, 0x807F_807F_807F_807F, die fun x => { x with cremap := v }),
            (0xA06, 0xFF0F, die fun x => { x with tectl := v })] : List (BitVec 12 × Nat × State)),
          outside v p.2.1 = false → ∃ t, exec (.setc p.1 a) s = .next t ∧ p.2.2.Passed t ∧ s.SameMemory t))

/-- In user mode RETT, CSAVE, CREST, CKPT and TLBINV raise PRM, CSAVE where its address is aligned and lies in the
scratchpad window or is mapped, and CREST where it is aligned; a misaligned address is ALN, and for CSAVE an unmapped one
XLT, before PRM (R52, R334, R335). PRM too raises SETC of every register of access H or S of a present unit; and there an
unallocated register is UDI for GETC and SETC, a reserved bit or an excluded value UDI for SETC before all else, the
lowest number first (R52; log 39), an excluded value counting as a reserved bit (log 40), both the model's inferences;
then a register of an absent unit is AUT, a read-only one PRM for SETC, a secure-only one PRM in the non-secure world.
Nothing changes but the trap. RETT with an aligned TEPC is meant (log 47). The value in TVAL is the model's free value
where the manual gives none (log 6).  (R37, R39, R52, R87, R326) -/
def Obligations.PrivilegedWords : Prop :=
  ∀ (s : State) (d a b : Reg) (c : BitVec 12), s.me.mode = .user →
    let u : State := { s with freeCtr := s.freeCtr + 1 }
    let raises (i : Instr) (cause : Cause) : Prop := ∃ t tval, exec i s = .next t ∧ u.Trapped t cause tval 7
    let acc := cregAcc (isHub s.myDieIx) c.toNat
    let v := s.g a
    let reserved := outside v (if acc = some .r then readMask c.toNat else cregMask c.toNat) || cregValueBad c.toNat v
    (bits s.me.tepc 0 2 = 0 → raises .rett .prm) ∧ raises (.ckpt d) .prm ∧ raises (.tlbinv a b) .prm ∧
    (v.toNat % 4096 = 0 → raises (.crest d a) .prm ∧
      let place := (s.xlate s.myCoreIx false s.myCore.secure .write v.toNat).1
      let unmapped : Prop := 0x100_0000 ≤ v.toNat ∧ (place = .xlt ∨ ∃ n, place = .hole n)
      (¬ unmapped → raises (.csave d a) .prm) ∧
      (unmapped → ∃ t, exec (.csave d a) s = .next t ∧ s.Trapped t .xlt v 7)) ∧
    (v.toNat % 4096 ≠ 0 → ∀ i ∈ [Instr.csave d a, .crest d a], ∃ t, exec i s = .next t ∧ s.Trapped t .aln v 7) ∧
    (acc = none → raises (.getc d c) .udi ∧ raises (.setc c a) .udi) ∧
    (acc ≠ none → s.cregAbsent s.myCoreIx c.toNat = true → raises (.getc d c) .aut ∧ (reserved = false → raises (.setc c a) .aut)) ∧
    (acc ≠ none → reserved = true → raises (.setc c a) .udi) ∧
    (s.cregAbsent s.myCoreIx c.toNat = false →
      (acc = some .r → reserved = false → raises (.setc c a) .prm) ∧
      (acc ≠ none → 0xC00 ≤ c.toNat → s.myCore.secure = false → raises (.getc d c) .prm) ∧
      (acc = some .h ∨ acc = some .sec → reserved = false → raises (.setc c a) .prm))

/-- In user mode BRK k takes DBG with TVAL k: TCAUSE, TEPC, TVAL, PMODE and PWORLD are saved, the mode becomes handler,
the PC is THVEC and both register banks stay. In handler mode RETT with an aligned TEPC sets the PC to it and the mode to
user and changes no other trap register, no register and no memory. Between words a pending cause that can be taken is
taken: it is no longer pending and TCAUSE shows it as asynchronous. A write of DBGREQ.HALT makes DBG pending.  (R45,
R326, R328, R337) -/
def Obligations.TrapEntryAndReturn : Prop :=
  (∀ (s : State) (k : BitVec 5), s.me.mode = .user →
    ∃ t, exec (.brk k) s = .next t ∧ s.Trapped t .dbg (k.setWidth 64) 7) ∧
  (∀ s : State, s.me.mode = .handler → s.me.tepc.toNat % 4 = 0 →
    ∃ t, exec .rett s = .next t ∧ t.me.mode = .user ∧ t.me.pc = s.me.tepc.setWidth 18 ∧ t.me.regs = s.me.regs ∧
      t.me.bank = s.me.bank ∧ t.me.loops = s.me.loops ∧ t.me.tcause = s.me.tcause ∧ t.me.tepc = s.me.tepc ∧
      t.me.tval = s.me.tval ∧ t.me.pmode = s.me.pmode ∧ t.me.fpflg = s.me.fpflg ∧ t.me.record = s.me.record ∧
      s.OnlyMe t ∧ s.SameMemory t) ∧
  (∀ (s : State) (c : CluIx) (p : Pend), (s.cluster c).nextAsync = some p → (s.cluster c).mode = .user →
    (s.cluster c).fences = [] → p.path < 8 →
    ∃ t, exec (.asyncTrapEntry c) s = .next t ∧ t = s.setCluster c (t.cluster c) ∧
      bits (t.cluster c).tcause 0 5 = p.cause.code ∧ bits (t.cluster c).tcause 8 3 = p.path ∧
      bit (t.cluster c).tcause 15 = true ∧ bit (t.cluster c).tcause 14 = false ∧
      (t.cluster c).tepc = (s.cluster c).pc.setWidth 64 ∧ (t.cluster c).tval = p.tval ∧ (t.cluster c).mode = .handler ∧
      (t.cluster c).pc = (s.cluster c).thvec.setWidth 18 ∧ (t.cluster c).regs = (s.cluster c).regs ∧
      (t.cluster c).pend = (s.cluster c).pend.filter fun q => q.cause != p.cause) ∧
  (∀ (s : State) (c : CluIx), (s.cluster c).record.isSome = true →
    ∃ t, exec (.debugHalt c) s = .next t ∧ t = s.setCluster c { s.cluster c with
      pend := (s.cluster c).pend.filter (fun p => p.cause != .dbg) ++ [⟨.dbg, 0x100, noPath⟩] })

/-- In handler mode BRK, RETT with a misaligned TEPC, a SETC of an unallocated register, LOOPS and LOOPX stop the
cluster, as every synchronous cause there does: its record is gone, it holds no loop, and of the pending causes only SQE
and ECU, which units raise whether or not it holds a record (R52), every other cluster is as it was, and the error log
has its entry of kind 11 with TCAUSE. A pending MCK does the same between words, where another asynchronous cause is not
taken. A stopped cluster selects no record.  (R327) -/
def Obligations.DoubleTraps : Prop :=
  (∀ (s : State) (k : BitVec 5) (c : BitVec 12) (a b : Reg), s.me.mode = .handler →
    let gone (u t : State) (cause : Cause) : Prop :=
      t.me.stopped = true ∧ t.me.record = none ∧ t.me.loops = Loops.reset ∧ t.me.pend = s.me.pend.filter (fun p => p.cause == .sqe || p.cause == .ecu) ∧
      (∀ x, x ≠ s.focus → t.cluster x = s.cluster x) ∧
      t = { (u.setCluster s.focus t.me).log s.myDieIx 11 (causeWord false s.bundling 7 cause).toNat 0 s.me.lid with
        note := .trapped }
    (∃ t, exec (.brk k) s = .next t ∧ gone s t .dbg) ∧
    (∀ i ∈ ([.loops a b, .loopx] : List Instr), ∃ t, exec i s = .next t ∧ gone s t .udi) ∧
    (bits s.me.tepc 0 2 ≠ 0 → ∃ t, exec .rett s = .next t ∧ gone s t .aln) ∧
    (cregAcc (isHub s.myDieIx) c.toNat = none →
      ∃ t, exec (.setc c a) s = .next t ∧ gone { s with freeCtr := s.freeCtr + 1 } t .udi)) ∧
  (∀ (s : State) (cause : Cause) (v : Word) (path : Nat), s.me.mode = .handler → (s.trap cause v path).me.stopped = true ∧
    (s.trap cause v path).me.record = none) ∧
  (∀ (s : State) (c : CluIx), (s.cluster c).mode = .handler →
    (∀ p, (s.cluster c).firstPend = some p → p.cause ≠ .mck → exec (.asyncTrapEntry c) s = .next { s with note := .waited }) ∧
    (∀ p, (s.cluster c).nextAsync = some p →
      ∃ t, exec (.asyncTrapEntry c) s = .next t ∧ (t.cluster c).stopped = true ∧ (t.cluster c).record = none)) ∧
  (∀ (s : State) (c : CluIx), (s.cluster c).stopped = true → exec (.recordSelect c) s = .next { s with note := .waited })

/-- IDLE counts gA cycles, none where a cause can be taken or a record waits above PRIO, and passes when the count is
out; TLBINV in handler mode with no access outstanding drops the translations, handle or import entries or world-map bits
that it names, of its core or of all of the die, at one moment, after the accesses admitted under them (log 46, the
model's inference); WSCALL answers all ones less one without a management firmware, files its request and waits
otherwise, unless another request of the cluster is unanswered (log 45, the model's inference), and takes the reply when
it is there; CKPT answers all ones while checkpoints are off, and otherwise begins one and waits. IDLE_TIMEOUT ends a
wait and WSCALL_REPLY answers the oldest request. IDLE of a value above 32 bits is LCH 0x550; TLBINV in handler mode is
PRM for code 6 from the non-secure world, else LCH 0x701 for a reserved code or bit of gB, else LCH 0x702 for a gA out of
its column, and each is there a double trap (R327).  (R316, R317, R327, R328, R341) -/
def Obligations.WaitingSystemWords : Prop :=
  (∀ (s : State) (d a b : Reg),
    let x := s.g a
    let y := s.g b
    let waits (u t : State) : Prop := t.me.pc = s.me.pc ∧ t.me.waiting = true ∧ (∀ r, t.me.g r = s.me.g r) ∧
      s.SameMemory t ∧ t.note = .done ∧ t = { u.setCluster s.focus t.me with note := .done }
    (x.toNat < 2 ^ 32 →
      (s.me.idle = none → s.idleEnds = true → ∃ t, exec (.idle a) s = .next t ∧ s.Passed t) ∧
      (s.me.idle = none → s.idleEnds = false →
        ∃ t, exec (.idle a) s = .next t ∧ waits s t ∧ t.me.idle = some (if x = 0 then 1 else x.toNat)) ∧
      (s.me.idle = some 0 → ∃ t, exec (.idle a) s = .next t ∧ s.Passed t)) ∧
    (s.me.mode = .handler → s.postedAt s.focus false = false → s.tlbinvWaits x y = false →
      (y = 1 → ∃ t, exec (.tlbinv a b) s = .next t ∧ s.SameMemory t ∧ (s.modMyCore fun z => { z with
        tlb := [], mx := { z.mx with xl := [] } }).Passed t) ∧
      (y = 0 → x.toNat < 2 ^ 48 → ∃ t, exec (.tlbinv a b) s = .next t ∧ s.SameMemory t ∧ (s.modMyCore fun z => { z with
        tlb := z.tlb.filter (fun e => !e.covers x.toNat), mx := { z.mx with xl := z.mx.xl.filter fun e => !e.covers x.toNat }
        }).Passed t) ∧
      (y = 0x101 → ∃ t, exec (.tlbinv a b) s = .next t ∧ s.SameMemory t ∧ ((coresOf s.myDieIx).foldl (fun u k =>
        u.modCore k fun z => { z with tlb := [], mx := { z.mx with xl := [] } }) s).Passed t) ∧
      (y = 0x100 → x.toNat < 2 ^ 48 → ∃ t, exec (.tlbinv a b) s = .next t ∧ s.SameMemory t ∧ ((coresOf s.myDieIx).foldl (fun u k =>
        u.modCore k fun z => { z with
          tlb := z.tlb.filter (fun e => !e.covers x.toNat)
          mx := { z.mx with xl := z.mx.xl.filter fun e => !e.covers x.toNat } }) s).Passed t) ∧
      (y = 2 → bits x 32 32 = 0 → bit x 23 = false → ∃ t, exec (.tlbinv a b) s = .next t ∧ s.SameMemory t ∧
        (s.modDie s.myDieIx fun z => { z with hcache := z.hcache.filter fun e => e.slot != bits x 0 24 }).Passed t) ∧
      (y = 3 → ∃ t, exec (.tlbinv a b) s = .next t ∧ s.SameMemory t ∧ (s.modDie s.myDieIx fun z => { z with
        hcache := [] }).Passed t) ∧
      (y = 4 → bits x 23 41 = 0 → ∃ t, exec (.tlbinv a b) s = .next t ∧ s.SameMemory t ∧
        (s.modDie s.myDieIx fun z => { z with icache := z.icache.filter fun e => e.1 != bits x 0 23 }).Passed t) ∧
      (y = 5 → ∃ t, exec (.tlbinv a b) s = .next t ∧ s.SameMemory t ∧ (s.modDie s.myDieIx fun z => { z with
        icache := [] }).Passed t) ∧
      (y = 6 → s.myCore.secure = true → ∃ t, exec (.tlbinv a b) s = .next t ∧ s.SameMemory t ∧ (s.modDie s.myDieIx fun z => { z with
        wcache := [] }).Passed t)) ∧
    (s.wsMine = none → s.wsOther = false → s.postedAt s.focus false = false →
      (s.myDie.mbRun = false → ∃ t, exec (.wscall d a b) s = .next t ∧ s.Wrote t d 0xFFFF_FFFF_FFFF_FFFE) ∧
      (s.myDie.mbRun = true → ∃ t r, exec (.wscall d a b) s = .next t ∧ t.myDie.ws = s.myDie.ws ++ [r] ∧ r.cl = s.focus ∧
        r.ga = x ∧ r.gb = y ∧ r.reply = none ∧ r.secure = s.myCore.secure ∧ (∀ q ∈ s.myDie.ws, q.tag ≠ r.tag) ∧
        t.me.pc = s.me.pc ∧ t.me.waiting = true ∧ (∀ r, t.me.g r = s.me.g r) ∧ s.SameMemory t)) ∧
    (∀ r v, s.wsMine = some r → r.reply = some v →
      ∃ t, exec (.wscall d a b) s = .next t ∧ s.SameMemory t ∧
        ((s.modDie s.myDieIx fun z => { z with ws := z.ws.filter fun q => q.tag != r.tag }).modMe fun c =>
          { c with wstag := if r.user then none else c.wstag }).Wrote t d v) ∧
    (s.me.mode = .user → 2 ^ 32 ≤ x.toNat → ∃ t, exec (.idle a) s = .next t ∧ s.Trapped t .lch 0x550 7) ∧
    (s.me.mode = .handler →
      let stops (u : State) (i : Instr) (cause : Cause) : Prop := ∃ t, exec i s = .next t ∧ t.me.stopped = true ∧ t.me.record = none ∧
        t = { (u.setCluster s.focus t.me).log s.myDieIx 11 (causeWord false s.bundling 7 cause).toNat 0 s.me.lid with note := .trapped }
      let code := bits y 0 3
      let badB : Prop := code = 7 ∨ bits y 3 5 ≠ 0 ∨ bits y 9 55 ≠ 0
      let badA : Prop := (code = 0 ∧ bits x 48 16 ≠ 0) ∨ (code = 2 ∧ (bits x 32 32 ≠ 0 ∨ bit x 23 = true)) ∨ (code = 4 ∧ bits x 23 41 ≠ 0)
      (2 ^ 32 ≤ x.toNat → stops s (.idle a) .lch) ∧
      (code = 6 → s.myCore.secure = false → stops { s with freeCtr := s.freeCtr + 1 } (.tlbinv a b) .prm) ∧
      (code ≠ 6 ∨ s.myCore.secure = true →
        (badB → exec (.tlbinv a b) s = .next (s.trap .lch 0x701) ∧ stops s (.tlbinv a b) .lch) ∧
        (¬ badB → badA → exec (.tlbinv a b) s = .next (s.trap .lch 0x702) ∧ stops s (.tlbinv a b) .lch))) ∧
    (s.me.mode = .handler →
      (bit s.myDie.ckcfg 0 = false → ∃ t, exec (.ckpt d) s = .next t ∧ s.Wrote t d 0xFFFF_FFFF_FFFF_FFFF) ∧
      (bit s.myDie.ckcfg 0 = true → s.me.ckWait = none → s.mayCheckpoint s.myDieIx = true →
        ∃ t, exec (.ckpt d) s = .next t ∧ waits (s.beginCheckpoint s.myDieIx) t ∧ t.me.ckWait = some d))) ∧
  (∀ (s : State) (c : CluIx),
    ((s.cluster c).idle = some 0 → (s.cluster c).record.isSome = true → (s.cluster c).held = false →
      ∃ t, exec (.idleTimeout c) s = .next t ∧ t = s.setCluster c (t.cluster c) ∧ (s.cluster c).Follows (t.cluster c) ∧
        (t.cluster c).idle = none ∧ (t.cluster c).regs = (s.cluster c).regs) ∧
    (∀ r v, (s.die (dieOfClu c)).ws.find? (fun r => r.cl = c ∧ r.reply.isNone) = some r → r.answer (dieOfClu c) = some v →
      ((s.die (dieOfClu c)).ws.map WsReq.tag).Nodup →
      ∃ t, exec (.wscallReply c) s = .next t ∧ t = s.modDie (dieOfClu c) (fun x => { x with ws := (t.die (dieOfClu c)).ws }) ∧
        (t.die (dieOfClu c)).ws = (s.die (dieOfClu c)).ws.map fun q => if q = r then { r with reply := some v } else q))

/-- A core asked to stop holds its clusters at their boundaries; when its units have stopped its copies that are on their
way are abandoned, OWNTAG is 0xFFFF, a running or armed nest is frozen, and either the trap PRE is given to its first
cluster that holds a record, or its image is written and every cluster is idle with CXST done. CSAVE by the cluster that
has taken PRE writes the image and leaves its cluster idle, and is LCH 0x541 for any other, LCH 0x540 in the scratchpad
window; CREST and a restore put a checked image into a quiescent core, or answer an error and write nothing of it when
the core is not quiescent. What becomes of another operation that was in progress at a CREST is log 91, the model's
choice. An operation whose accesses have to wait for a link, a bank or a die below READY takes no effect meanwhile (log
77, the model's inference). A clear zeroes the scratchpad and the instruction memory below HLIM.  (R267, R329, R330,
R334, R335, R336) -/
def Obligations.ContextOperations : Prop :=
  (∀ (s : State) (k : CoreIx), (s.core k).stopAsked = true → s.allHeld k = false →
    (∀ c ∈ clustersOf k, (s.cluster c).stoppable = true ∧ (s.cluster c).dual = none ∧ s.dualEnds c = false) →
    ∃ t, exec (.preempt k) s = .next t ∧ (∀ l, t.peek l 1 = s.peek l 1) ∧
      (∀ c ∈ clustersOf k, (s.cluster c).record.isSome = true → (t.cluster c).held = true ∧ c ∉ t.runq ∧
        (t.cluster c).pc = (s.cluster c).pc ∧ (t.cluster c).regs = (s.cluster c).regs) ∧
      ∀ c, c ∉ clustersOf k → t.cluster c = s.cluster c) ∧
  (∀ (s : State) (k : CoreIx) (img : Nat) (trap : Bool), (s.core k).ctxOp = .saving img trap → (s.core k).cxFail = false →
    s.allHeld k = true → (∀ c ∈ clustersOf k, (s.cluster c).stoppable = true) → s.unitsStopped k = true →
    (∀ c, trap = true → (clustersOf k).find? (fun c => (s.cluster c).record.isSome) = some c →
      ∃ t, exec (.preemptUnitsStopped k) s = .next t ∧ (t.core k).owntag = 0xFFFF ∧ (t.core k).ctxOp = .trapping img ∧
        (t.core k).mx.frozen = ((s.core k).mx.frozen || (s.core k).mx.run.isSome || (s.core k).mx.armed.isSome) ∧
        (t.cluster c).held = false ∧ c ∈ t.runq ∧
        ⟨.pre, word img, noPath⟩ ∈ (t.cluster c).pend ∧ ∀ l, t.peek l 1 = s.peek l 1) ∧
    (trap = false → ∀ u,
      ((s.abandonCopies k).modCore k fun x => { x with owntag := 0xFFFF, mx := x.mx.stop }).writeImage k img = (true, u) →
      s.schedWaited u (dieOf k) = false → ∃ t, exec (.preemptUnitsStopped k) s = .next t ∧ t = u ∧ (t.core k).cxPend = false ∧ (t.core k).cxDone = true ∧
        (t.core k).cxLop = 1 ∧ (t.core k).cxErr = 0 ∧ (t.core k).vq = [] ∧ (t.core k).tiles = [] ∧
        ∀ c ∈ clustersOf k, (t.cluster c).record = none ∧ (t.cluster c).held = false)) ∧
  (∀ (s : State) (c : CluIx) (p : Pend), (s.cluster c).nextAsync = some p → p.cause = .pre → (s.cluster c).mode = .user →
    ∃ t, exec (.asyncTrapEntry c) s = .next t ∧ (t.cluster c).saver = true ∧ (t.cluster c).mode = .handler) ∧
  (∀ (s : State) (d a : Reg), s.me.mode = .handler → (s.g a).toNat % 4096 = 0 →
    ((s.g a).toNat < 0x100_0000 → exec (.csave d a) s = .next (s.trap .lch 0x540)) ∧
    (s.me.saver = false → (∃ l, (s.xlate s.myCoreIx false s.myCore.secure .write (s.g a).toNat).1 = .ok l) → 0x100_0000 ≤ (s.g a).toNat →
      exec (.csave d a) s = .next (s.trap .lch 0x541)) ∧
    (s.me.saver = true → 0x100_0000 ≤ (s.g a).toNat →
      (∃ l, (s.xlate s.myCoreIx false s.myCore.secure .write (s.g a).toNat).1 = .ok l) →
      (∀ u, s.writeImage s.myCoreIx (s.g a).toNat = (true, u) → s.schedWaited u s.myDieIx = false →
        ∃ t, exec (.csave d a) s = .next t ∧ t = { u with note := .done } ∧ t.me.record = none) ∧
      (∀ u, s.writeImage s.myCoreIx (s.g a).toNat = (false, u) → s.schedWaited u s.myDieIx = false →
        ∃ t, exec (.csave d a) s = .next t ∧ u.Wrote t d u.myCore.cxst)) ∧
    (∀ u, s.restore s.myCoreIx (s.g a).toNat (some s.focus) = (0, u) → s.schedWaited u s.myDieIx = false →
      let x := u.core s.myCoreIx
      ∃ t y, exec (.crest d a) s = .next t ∧ t = { u.setCore s.myCoreIx y with note := .done } ∧ y.cxLop = 2 ∧ y.cxErr = 0 ∧
        (x.ctxOp = .none ∨ (∃ img, x.ctxOp = .trapping img) → y = x.endCtx 2 0 ∧ y.cxDone = true ∧ y.cxPend = false) ∧
        (x.ctxOp ≠ .none → (∀ img, x.ctxOp ≠ .trapping img) → y.ctxOp = x.ctxOp ∧ y.cxPend = x.cxPend)) ∧
    (s.quiescent s.myCoreIx (some s.focus) = false →
      ∃ t v y, exec (.crest d a) s = .next t ∧ (s.setCore s.myCoreIx y).Wrote t d v ∧ bits v 8 8 = 2 ∧ s.SameMemory t ∧
        y.cxLop = 2 ∧ y.cxErr = 2 ∧ y.spad = s.myCore.spad ∧ y.imem = s.myCore.imem ∧
        (s.myCore.ctxOp = .none → y = s.myCore.endCtx 2 2) ∧ (s.myCore.ctxOp ≠ .none → y.ctxOp = s.myCore.ctxOp ∧ y.cxPend = s.myCore.cxPend))) ∧
  (∀ (s : State) (k : CoreIx),
    (∀ img e u, (s.core k).ctxOp = .restoring img → s.restore k img none = (e, u) → s.schedWaited u (dieOf k) = false →
      ∃ t, exec (.contextRestore k) s = .next t ∧ t = u.modCore k (fun x => x.endCtx 2 e) ∧ (t.core k).cxErr = e) ∧
    ((s.core k).ctxOp = .clearing → s.quiescent k none = true →
      ∃ t, exec (.contextClear k) s = .next t ∧ (t.core k).cxLop = 3 ∧ (t.core k).cxErr = 0 ∧ (t.core k).owntag = 0 ∧
        (∀ a, t.peek (.spad k a) 1 = [0]) ∧ (∀ a < 4096 * min 64 (s.core k).hlim, (t.core k).imem.readN a 1 = [0]) ∧
        ((s.core k).imem.wf = true → ∀ a, 4096 * min 64 (s.core k).hlim ≤ a → (t.core k).imem.readN a 1 = (s.core k).imem.readN a 1)) ∧
    ((s.core k).ctxOp = .clearing → s.quiescent k none = false →
      ∃ t, exec (.contextClear k) s = .next t ∧ t = s.modCore k fun x => x.endCtx 3 2))

/-- For every list of at most 2^20 words, decoding the tokens that a save writes for it gives exactly these words and
leaves what follows in the image untouched.  (R332) -/
def Obligations.ImageTokensRoundTrip : Prop :=
  ∀ ws rest : List Word, ws.length ≤ 2 ^ 20 →
    decodeTokens (ws.length + 1) ws.length (encodeTokens ws ++ rest) = some (ws, rest)

/-- A periodic checkpoint that is due asks every core of the die to stop; when all have stopped it commits, once the home
die is READY: NUM rises by one, VALID is set, the older of its two slots in the home's memory takes the state of hub
SRAM, queues and store, and the cores go on. A cluster whose CKPT the commit completes takes NUM in gD, goes on at the
next word, and is recorded there with that value (R341). A report frees the flits of the far log that the committed
checkpoint holds; a log three-quarters full begins a checkpoint of the far die. That a commit needs its home READY, and
that a log's request acts whatever CKCFG.EN is, are log 48, the model's inferences.  (R339, R340, R341) -/
def Obligations.CheckpointEvents : Prop :=
  (∀ (s : State) (d : DieIx),
    let x := s.die d
    (bit x.ckcfg 0 = true → 0 < bits x.ckcfg 16 16 → bits x.ckcfg 16 16 * 1600000 ≤ x.ckAge → x.ready = true →
      s.mayCheckpoint d = true →
      ∃ t, exec (.checkpointTimer d) s = .next t ∧ (t.die d).ckBusy = true ∧
        (∀ k ∈ coresOf d, (t.core k).ctxOp = .checkpoint ∧ (t.core k).cxPend = true) ∧ (∀ l, t.peek l 1 = s.peek l 1) ∧
        ∀ c, t.cluster c = s.cluster c) ∧
    (s.checkpointStopped d = true → (s.die (ckHome d)).ready = true → x.hubBad = [] →
      (bit x.elbase 0 = false ∨ ∀ j ∈ coresOf d, (s.core j).spadBad = [] ∧ (s.core j).imemBad = []) →
      ∃ t k, exec (.checkpointCommit d) s = .next t ∧ (t.die d).ckNum = x.ckNum + 1 ∧ (t.die d).ckValid = true ∧
        (t.die d).ckBusy = false ∧ t.committed d = some k ∧
        (t.die (ckHome d)).slotsOf d = k :: ((s.die (ckHome d)).slotsOf d).take 1 ∧ k.num = x.ckNum + 1 ∧ k.hub = x.hub ∧
        k.qslots = x.qslots ∧ k.store = x.store ∧ k.resv = x.resv ∧
        (∀ c r, c ∈ clustersOn d → (s.cluster c).ckWait = some r → (s.cluster c).record.isSome = true →
          let y := t.cluster c
          y.ckWait = none ∧ y.held = false ∧ c ∈ t.runq ∧ y.record = (s.cluster c).record ∧ y.mode = (s.cluster c).mode ∧
          (r ≠ 0 → y.g r = (x.ckNum + 1).setWidth 64) ∧ (∀ q, q ≠ r → y.g q = (s.cluster c).g q) ∧
          ((s.cluster c).mode = .handler → y.pc = (s.cluster c).pc + 4) ∧
          (c, { y with dual := (s.cluster c).dual }) ∈ k.issuers) ∧
        ∀ j ∈ coresOf d, (t.core j).ctxOp = .none ∧ (t.core j).cxPend = false)) ∧
  (∀ (s : State) (l : LinkIx) (e : Nat), e < 2 →
    let d := endDie l e
    let far := endDie l (1 - e)
    (∀ x, s.committedEnd d l = some x → ((s.link l).farEnd l d).reported ≠ x.applied →
      ∃ t, exec (.checkpointReport l e) s = .next t ∧ t = s.modLink l fun y => y.modFar l d fun z => { z with
        log := z.log.filter (fun f => !x.hasApplied f.num), reported := x.applied }) ∧
    (3 * logFlits d ≤ 4 * ((s.link l).nearEnd l d).logged → ((s.link l).nearEnd l d).ckAsked = false →
      (s.die far).ready = true → s.mayCheckpoint far = true →
      ∃ t, exec (.sendLogCheckpointRequest l e) s = .next t ∧ ((t.link l).nearEnd l d).ckAsked = true ∧
        (t.die far).ckBusy = true ∧ ∀ k ∈ coresOf far, (t.core k).ctxOp = .checkpoint))

/-- After a cold reset of a die it stands at stage 1, every cluster of it is as after reset and issues nothing, its cores
have the worlds of BLKW and empty memories, its DRAM and hub SRAM stand as they were and FCNT of its links is 0; power-on
does so for every die with empty memories. A warm reset of a ready die without a committed checkpoint keeps DRAM, clears
instruction memory and gives clusters their reset state with THVEC kept; with one it restores hub SRAM, queues and store.
Each stage of boot ends in the next or with its error: the second by the image's header, key digest, signature and SVN,
the third by the memory and bus tests; the fourth, once firmware has enabled the world map (R312), sets READY and the
links to a = 8; firmware enables it at an address of which nothing is known (log 92). A report answers a nonce of 32
bytes with the fields of R350, signed, and MINSVN never falls. Model's readings and choices: BOOTST.STAGE as the stage in
progress is log 13; the image as it is found, the digests and signatures as functions without a body and the fields that
are signed are log 14; what each reset keeps is log 21; the bus test, and MINSVN at most 255, are log 48.  (R12, R312,
R342, R347, R348, R349, R350) -/
def Obligations.ResetsAndBoot : Prop :=
  (∀ (s : State) (d : DieIx),
    ∃ t, exec (.coldReset d) s = .next t ∧ (t.die d).stage = 1 ∧ (t.die d).ready = false ∧ (t.die d).bootErr = 0 ∧
      (∀ c, (dieOfClu c = d → t.cluster c = Cluster.reset ∧ c ∉ t.runq) ∧ (dieOfClu c ≠ d → t.cluster c = s.cluster c)) ∧
      (∀ k, dieOf k = d → (t.core k).secure = (s.die d).blkw.getLsbD (s.coreNo k) ∧ (∀ a, t.peek (.spad k a) 1 = [0]) ∧
        (t.core k).vq = [] ∧ (t.core k).ptroot = 0) ∧
      (∀ a, t.peek (.dram d a) 1 = s.peek (.dram d a) 1 ∧ t.peek (.hub d a) 1 = s.peek (.hub d a) 1) ∧
      (∀ l ∈ linksOf d, ((t.link l).nearEnd l d).fcnt = 0) ∧
      ∀ e, e ≠ d → t.die e = s.die e) ∧
  (∀ s : State, ∃ t, exec .powerOn s = .next t ∧ (∀ d, (t.die d).stage = 1 ∧ (t.die d).ready = false) ∧
    (∀ c, t.cluster c = Cluster.reset) ∧ (∀ k, (t.core k).secure = false) ∧ t.runq = [] ∧ t.hostMem = s.hostMem ∧
    ∀ d a, t.peek (.dram d a) 1 = [0] ∧ t.peek (.hub d a) 1 = [0]) ∧
  (∀ (s : State) (d : DieIx), (s.die d).ready = true → bit (s.die d).elbase 0 = false →
    (s.committed d = none →
      ∃ t, exec (.warmReset d) s = .next t ∧ (t.die d).ready = true ∧ (t.die d).store = [] ∧
        (∀ a, t.peek (.dram d a) 1 = s.peek (.dram d a) 1) ∧ t.out = s.out ++ [.faultMessage d, .restored d 0] ∧
        (∀ k a, dieOf k = d → (t.core k).imem.readN a 1 = [0]) ∧
        ∀ c, dieOfClu c = d → t.cluster c = { Cluster.reset with thvec := (s.cluster c).thvec } ∧ c ∉ t.runq) ∧
    (∀ k, s.committed d = some k →
      ∃ t, exec (.warmReset d) s = .next t ∧ (t.die d).hub = k.hub ∧ (t.die d).qslots = k.qslots ∧ (t.die d).store = k.store ∧
        (t.die d).resv = k.resv ∧ t.out = s.out ++ [.faultMessage d, .restored d k.num])) ∧
  (∀ (s : State) (d : DieIx), (s.die d).bootErr = 0 →
    let x := s.die d
    let same (t : State) : Prop := ∀ l, t.peek l 1 = s.peek l 1
    let fails (t : State) (e : Nat) : Prop := (t.die d).bootErr = e ∧ (t.die d).stage = x.stage ∧ same t ∧
      t.out = s.out ++ [.faultMessage d]
    (x.stage = 1 → ∃ t, exec (.bootRailsSettled d) s = .next t ∧ (t.die d).stage = 2 ∧ (t.die d).orient = orientWord d ∧ same t) ∧
    (x.stage = 2 →
      ((∀ im, x.image = some im → im.length < 64 ∨ leNat (im.take 4) ≠ 0x4B494653 ∨ imageParts im = none) →
        ∃ t, exec (.bootImageVerified d) s = .next t ∧ fails t 1) ∧
      (∀ im signed sig key, x.image = some im → imageParts im = some (signed, sig, key) →
        let svn := leNat ((im.drop 4).take 4)
        let genuine := Config.shake256 32 key = Config.keyDigest d.val ∧ Config.falconVerifies key sig signed = true
        (¬ genuine → ∃ t, exec (.bootImageVerified d) s = .next t ∧ fails t 2) ∧
        (genuine → svn < x.minsvn → ∃ t, exec (.bootImageVerified d) s = .next t ∧ fails t 3) ∧
        (genuine → x.minsvn ≤ svn → ∃ t, exec (.bootImageVerified d) s = .next t ∧ (t.die d).stage = 3 ∧
          (t.die d).svn = BitVec.ofNat 32 svn ∧ (t.die d).measure = Config.shake256 64 im ∧ same t))) ∧
    (x.stage = 3 →
      (isHub d = false → x.memTestOk = false ∨ s.busesPass d = false → ∃ t, exec (.bootMemoryReady d) s = .next t ∧ fails t 4) ∧
      ((isHub d = true ∨ (x.memTestOk = true ∧ s.busesPass d = true)) → ∃ t, exec (.bootMemoryReady d) s = .next t ∧ (t.die d).stage = 4 ∧
        ∀ a, (isHub d = true → t.peek (.hub d a) 1 = [0]) ∧ (isHub d = false → t.peek (.dram d a) 1 = [0]))) ∧
    (x.stage = 4 →
      (x.linksOk = false → ∃ t, exec (.bootLinksTrained d) s = .next t ∧ fails t 5) ∧
      (x.linksOk = true → bit x.wmapb 0 = false → exec (.bootLinksTrained d) s = .next { s with note := .waited }) ∧
      (bit x.wmapb 0 = false → s.tableCore d ≠ none → ∃ t, s.enableMap d = .next t ∧ bit (t.die d).wmapb 0 = true ∧ same t) ∧
      (x.linksOk = true → bit x.wmapb 0 = true → ∃ t, exec (.bootLinksTrained d) s = .next t ∧ (t.die d).stage = 5 ∧ (t.die d).ready = true ∧ same t ∧
        ∀ l ∈ linksOf d, (t.link l).share = 8 ∧ (t.link l).age = 0 ∧ (t.link l).queue = [])) ∧
    (∀ nonce : List Byte, 3 ≤ x.stage → nonce.length = 32 →
      ∃ t, exec (.attestationRequest d nonce) s = .next t ∧ t = s.modDie d fun y => { y with attest := some nonce })) ∧
  (∀ (s : State) (d : DieIx),
    (∀ nonce, (s.die d).attest = some nonce →
      ∃ t, exec (.attestationReport d) s = .next t ∧ (t.die d).attest = none ∧
        ∃ r, t.out = s.out ++ [.report d r] ∧ r.nonce = nonce ∧ r.serial = Config.packageSerial ∧ r.device = d.val ∧
          r.rot = rotOf d ∧ r.measurement = (s.die d).measure ∧ r.svn = (s.die d).svn ∧ r.minsvn = (s.die d).minsvn ∧
          r.blkw = (s.die d).blkw ∧ r.worldDigest = s.worldDigest d ∧
          r.identity = (Config.falconKeys (Config.fusedSecret d.val)).2 ∧
          r.signature = Config.falconSign (Config.falconKeys (Config.fusedSecret d.val)).1 r.signed) ∧
    ((s.die d).ready = true →
      ∃ t, exec (.minsvnRaiseRequest d) s = .next t ∧ (t.die d).minsvn = max (s.die d).minsvn (min 255 (s.die d).svn.toNat) ∧
        (s.die d).minsvn ≤ (t.die d).minsvn))

/-- A cluster in sync wait beyond SYNCWD has WDG pending with TVAL 1; a word with a detected error is replayed, an atomic
that has been carried out under its old tag, and raises MCK with TVAL 2 the third time; a flit, request or response with
a CRC error is sent again, and a link with 16 retries retrains until it is done; an access that has waited 3,200,000
cycles for a die below READY is refused: a posted one leaves the fabric, and a load or atomic traps PRM; scrub writes the
poison word over an uncorrectable SRAM word and counts it, and counts a DRAM beat that fails.  (R34, R310, R318, R321,
R323, R324, R325, R347) -/
def Obligations.RecoveryEvents : Prop :=
  (∀ (s : State) (c : CluIx),
    let x := s.cluster c
    let wd := (s.core (coreOf c)).syncwd.toNat
    (x.record.isSome = true → x.syncWait = true → 0 < wd → wd < x.syncAge → (∀ p ∈ x.pend, p.cause ≠ .wdg) →
      ∃ t, exec (.syncWaitWatchdog c) s = .next t ∧ t = s.setCluster c { x with pend := x.pend ++ [⟨.wdg, 1, noPath⟩] }) ∧
    (x.record.isSome = true → x.held = false → s.hasBegun c = false → bit (s.die (dieOfClu c)).elbase 0 = false →
      (x.replays < 2 → ∃ t, exec (.pipelineReplay c) s = .next t ∧
        t = s.setCluster c { x with
          remote := none, replays := x.replays + 1, retag := match x.carriedTag with | some q => some q | none => x.retag }) ∧
      (2 ≤ x.replays → ∃ t, exec (.pipelineReplay c) s = .next t ∧ t = s.setCluster c { x with
        remote := none, replays := 0, retag := (match x.carriedTag with | some q => some q | none => x.retag)
        pend := x.pend.filter (fun p => p.cause != .mck) ++ [⟨.mck, 2, noPath⟩] }))) ∧
  (∀ (s : State) (l : LinkIx),
    ((s.link l).retraining = false → ((∃ f ∈ s.flits, f.link = some l) ∨ ∃ c ∈ allClusters, s.requestOn l c = true) →
      ((s.link l).retries < 16 → ∃ t, exec (.flitCrcRetry l) s = .next t ∧
        t = s.modLink l fun x => { x with retries := x.retries + 1 }) ∧
      (16 ≤ (s.link l).retries → ∃ t, exec (.flitCrcRetry l) s = .next t ∧
        t = s.modLink l fun x => { x with retraining := true })) ∧
    ((s.link l).retraining = true → ∃ t, exec (.groupRetrainDone l) s = .next t ∧
      t = s.modLink l fun x => { x with retraining := false, retries := 0 })) ∧
  (∀ (s : State) (n : Nat) (f : Flit), s.flits.find? (fun f => f.seq = n) = some f → s.homeReady f.dst = false →
    3200000 ≤ f.age → f.agent = 0 → (∀ d, bit (s.die d).elbase 0 = false) →
    ∃ t, exec (.flitSendTimeout n) s = .next t ∧ (∀ l, t.peek l 1 = s.peek l 1) ∧ t.flits = dropFirst (fun g => g.seq == n) s.flits) ∧
  (∀ (s : State) (n : Nat) (c : CluIx) (r : Remote), (∀ f ∈ s.flits, f.seq ≠ n) → (s.cluster c).remote = some r → r.seq = n →
    (∀ c' r', (s.cluster c').remote = some r' → r'.seq = n → c' = c) → r.executed = false → s.homeReady r.loc = false →
    3200000 ≤ r.age → (s.cluster c).mode = .user → (∀ d, bit (s.die d).elbase 0 = false) →
    ∃ t, exec (.flitSendTimeout n) s = .next t ∧ (∀ l, t.peek l 1 = s.peek l 1) ∧ t.flits = s.flits ∧
      (∀ x, x ≠ c → t.cluster x = s.cluster x) ∧ (t.cluster c).remote = none ∧ bits (t.cluster c).tcause 0 5 = Cause.prm.code ∧
      bit (t.cluster c).tcause 15 = false ∧ (t.cluster c).tval = r.tval ∧ (t.cluster c).mode = .handler ∧
      (t.cluster c).tepc = (s.cluster c).pc.setWidth 64 ∧ (t.cluster c).pc = (s.cluster c).thvec.setWidth 18 ∧
      (t.cluster c).regs = (s.cluster c).regs) ∧
  (∀ (s : State) (d : DieIx) (a : Nat), bit (s.die d).elbase 0 = false →
    (a / 128 ∈ (s.die d).dramBad ∨ s.beatFails d (a / 128) = true →
      ∃ t, exec (.patrolScrub d .dram a) s = .next t ∧ (t.die d).unc = min (2 ^ 32 - 1) ((s.die d).unc + 1) ∧
        ∀ l, t.peek l 1 = s.peek l 1) ∧
    (a / 8 ∈ (s.die d).hubBad → (s.die d).hub.wf = true →
      ∃ t, exec (.patrolScrub d .hubSram a) s = .next t ∧ (t.die d).unc = min (2 ^ 32 - 1) ((s.die d).unc + 1) ∧
        a / 8 ∉ (t.die d).hubBad ∧ t.peek (.hub d (a / 8 * 8)) 8 = leBytes 8 Config.poisonWord.toNat ∧
        ∀ b, (b < a / 8 * 8 ∨ a / 8 * 8 + 8 ≤ b) → t.peek (.hub d b) 1 = s.peek (.hub d b) 1) ∧
    (∀ n k, s.coreAt d n = some k → a / 8 ∈ (s.core k).spadBad → (s.core k).spad.wf = true →
      ∃ t, exec (.patrolScrub d (.scratchpad n) a) s = .next t ∧ (t.die d).unc = min (2 ^ 32 - 1) ((s.die d).unc + 1) ∧
        a / 8 ∉ (t.core k).spadBad ∧ t.peek (.spad k (a / 8 * 8)) 8 = leBytes 8 Config.poisonWord.toNat) ∧
    (∀ n k, s.coreAt d n = some k → a / 8 ∈ (s.core k).imemBad → (s.core k).imem.wf = true →
      ∃ t, exec (.patrolScrub d (.imem n) a) s = .next t ∧ (t.die d).unc = min (2 ^ 32 - 1) ((s.die d).unc + 1) ∧
        a / 8 ∉ (t.core k).imemBad ∧ (t.core k).imem.readN (a / 8 * 8) 8 = leBytes 8 Config.poisonWord.toNat))

/-- A load whose data returns writes gD, or takes PRM with the TVAL it carries where its home refuses it. A scalar atomic
is applied once at its execution point, which keeps its old value under its tag; a tag that the point holds is answered
from there and applies nothing; the response writes gD, moves to the next tag, or takes the cause met. A reduction store
applies its 32 bytes at home and leaves the fabric, and so does a posted write; a merge entry is marked as forwarded.
(R207, R210, R212, R213, R222, R238, R310, R323) -/
def Obligations.RemoteAccesses : Prop :=
  (∀ (s : State) (c : CluIx) (r : Remote), (s.cluster c).remote = some r →
    let x := s.cluster c
    let others (t : State) : Prop := ∀ k, k ≠ c → t.cluster k = s.cluster k
    let trapped (t : State) (path : Nat) (cause : Cause) : Prop :=
      x.TookTrap (t.cluster c) (s.core (coreOf c)).secure false r.bundled path cause ∧ (t.cluster c).tval = r.tval ∧
        (t.cluster c).remote = none ∧ others t ∧ s.SameMemory t
    (s.loggedAnswer r c = none → ∀ size sg, r.kind = .load size sg → s.requestHeld c r = false → s.homeReady r.loc = true →
      (∀ l, s.arrive r.loc size .read (s.secureOf c) = (some l, s) → s.badUnits l size = [] → x.dual = none →
        (∀ e a, l = .dram e a → bit (s.die e).elbase 0 = false) →
        ∃ t, exec (.loadDataReturn c) s = .next t ∧ x.Takes (t.cluster c) r.d (extend sg size (leNat (s.peek l size))) ∧
          (t.cluster c).remote = none ∧ x.Follows (t.cluster c) ∧ others t ∧ s.SameMemory t) ∧
      (s.arrive r.loc size .read (s.secureOf c) = (none, s) → x.mode = .user →
        ∃ t, exec (.loadDataReturn c) s = .next t ∧ trapped t (pathOf .s r.va.toNat).code .prm)) ∧
    (s.loggedAnswer r c = none → r.executed = false → s.requestHeld c r = false → s.homeReady r.loc = true → (∀ size sg, r.kind ≠ .load size sg) →
      let met (t : State) (r' : Remote) : Prop :=
        (t.cluster c).remote.map (fun q => { q with resp := r.resp }) = some r' ∧ others t
      (∀ old, (s.die r.loc.point).tagOf c r.tag = some old →
        ∃ t, exec (.atomicExecute c) s = .next t ∧ met t { r with executed := true, old := old.old } ∧ s.SameMemory t) ∧
      ((s.die r.loc.point).tagOf c r.tag = none → s.arrive r.loc r.kind.bytes r.kind.acc (s.secureOf c) = (none, s) →
        ∃ t, exec (.atomicExecute c) s = .next t ∧ s.SameMemory t ∧ met t { r with
          executed := true, failed := some .prm, tval := r.va }) ∧
      (∀ op size b e d a, r.kind = .atomic op size b e → (s.die r.loc.point).tagOf c r.tag = none →
        s.arrive r.loc size .atomic (s.secureOf c) = (some (.hub d a), s) → (s.die d).hub.wf = true →
        let l : Loc := .hub d a
        let old := s.peek l size
        let m := 2 ^ (8 * size)
        (s.badUnits l size = [] →
          ∃ t, exec (.atomicExecute c) s = .next t ∧ met t { r with executed := true, old := old } ∧
            (t.die r.loc.point).tagOf c r.tag = some ⟨c, r.tag, old⟩ ∧
            s.Stored t l (match atomNew op (8 * size) (leNat old) (b.toNat % m) (e.toNat % m) with
              | some v => leBytes size v
              | none => old)) ∧
        (s.badUnits l size ≠ [] → bit (s.die d).elbase 0 = false →
          ∃ t, exec (.atomicExecute c) s = .next t ∧ s.SameMemory t ∧ met t { r with
            executed := true, failed := some .ecu, tval := word (r.va.toNat + s.firstBad l size - a) }))) ∧
    (r.executed = true → s.responseHeld c r = false →
      (∀ op size b e, r.kind = .atomic op size b e → r.failed = none →
        ∃ t, exec (.atomicResponse c) s = .next t ∧ x.Takes (t.cluster c) r.d (atomResult size r.old) ∧
          (t.cluster c).remote = none ∧ (t.cluster c).atag = x.atag + 1 ∧ x.Follows (t.cluster c) ∧ others t ∧ s.SameMemory t) ∧
      (∀ op size b e cause, r.kind = .atomic op size b e → r.failed = some cause → x.mode = .user →
        ∃ t, exec (.atomicResponse c) s = .next t ∧ trapped t (pathOf .a r.va.toNat).code cause) ∧
      (∀ vop ty b a, r.kind = .vatomic vop ty b (some a) → r.failed = none → (s.core (coreOf c)).spad.wf = true →
        (s.core (coreOf c)).spadBad = [] →
        ∃ t, exec (.atomicResponse c) s = .next t ∧ x.Takes (t.cluster c) 0 0 ∧ (t.cluster c).remote = none ∧
          (t.cluster c).atag = x.atag + 1 ∧ others t ∧ s.Stored t (.spad (coreOf c) a) r.old))) ∧
  (∀ (s : State) (n : Nat) (f : Flit) (d : DieIx) (a : Nat), s.flits.find? (fun f => f.seq = n) = some f → s.isRepeat f = false →
    s.flitReady f = true → (s.die d).ready = true → f.underway = false → f.dst = .hub d a → (s.die d).hub.wf = true → (s.die d).hubBad = [] →
    (∀ vop ty, f.red = some (vop, ty) → f.bytes.length = 32 →
      ∃ t, exec (.reductionApplyHome n) s = .next t ∧ s.Stored t f.dst (atomVector vop ty (s.peek f.dst 32) f.bytes) ∧
        t.flits = dropFirst (fun g => g.seq == n) s.flits ∧ ∀ c, t.cluster c = s.cluster c) ∧
    (f.red = none → f.agent = 0 → f.tag = none → f.msg = .write →
      ∃ t, exec (.peerAccessArrival n) s = .next t ∧ s.Stored t f.dst f.bytes ∧
        t.flits = dropFirst (fun g => g.seq == n) s.flits ∧ ∀ c, t.cluster c = s.cluster c)) ∧
  (∀ (s : State) (n : Nat) (m : MergeEntry), s.merges.find? (fun m => m.seq = n) = some m →
    ∃ t, exec (.mergeEntryForward n) s = .next t ∧ t.merges.find? (fun m => m.seq = n) = some { m with forwarded := true } ∧
      t.flits = s.flits ∧ s.SameMemory t ∧ ∀ c, t.cluster c = s.cluster c)

/-- A host write stores its bytes and a host read answers them, in hub SRAM in no secure region; in a secure region the
read answers ones and nothing is written; before READY nothing is written and a read answers ones. A host atomic is
applied at the hub SRAM bank and answers the old value. A control write of a core register acts as SETC, a control read
answers the register, ones before READY and 0 for a secure-only one, and a notify read answers 0. A notify is kept in
NOTIFY, without reserved bits, and moves TAIL of an ACTIVE slot when it is ahead, and is counted when it has reserved
bits. A slot maps to MAPPING, becomes ACTIVE with what its header holds, unmaps to UNMAPPING, and ends FREE, its
registers as after reset (log 75, the model's choice), with HEAD, and TAIL as an ahead write, in its header, once none of
these accesses has to wait (log 77).  (R210, R240, R251, R253, R254, R312, R314, R315) -/
def Obligations.HostAndQueueEvents : Prop :=
  ∀ (s : State) (d : DieIx),
    let x := s.die d
    let ans (t : State) (o : HostOut) : Prop := t.out = s.out ++ [o]
    let hubPlace (off n : Nat) : Prop := isHub d = true ∧ 0 < n ∧ off % 2 ^ 16 + n ≤ 2 ^ 16 ∧ off + n ≤ Config.hubSramBytes ∧
      x.hub.wf = true ∧ x.hubBad = []
    (∀ (off : Nat) (bs : List Byte),
      (x.ready = false → ∃ t, exec (.hostMemoryWrite d off bs) s = .next t ∧ s.SameMemory t) ∧
      (x.ready = true → hubPlace off bs.length →
        (s.worldOk d false off bs.length = (true, s) →
          ∃ t, exec (.hostMemoryWrite d off bs) s = .next t ∧ s.Stored t (.hub d off) bs ∧ ∀ c, t.cluster c = s.cluster c) ∧
        (s.worldOk d false off bs.length = (false, s) → bit x.elbase 0 = false →
          ∃ t, exec (.hostMemoryWrite d off bs) s = .next t ∧ s.SameMemory t))) ∧
    (∀ off n : Nat,
      (x.ready = false → ∃ t, exec (.hostMemoryRead d off n) s = .next t ∧ ans t (.read d (List.replicate n 0xFF))) ∧
      (x.ready = true → hubPlace off n →
        (s.worldOk d false off n = (true, s) →
          ∃ t, exec (.hostMemoryRead d off n) s = .next t ∧ ans t (.read d (s.peek (.hub d off) n)) ∧ s.SameMemory t) ∧
        (s.worldOk d false off n = (false, s) → bit x.elbase 0 = false →
          ∃ t, exec (.hostMemoryRead d off n) s = .next t ∧ ans t (.read d (List.replicate n 0xFF)) ∧ s.SameMemory t))) ∧
    (∀ (pa : Nat) (op : AtomOp) (w : Bool) (b e : Word),
      let size := if w then 4 else 8
      let old := s.peek (.hub d pa) size
      let m := 2 ^ (8 * size)
      x.ready = true → hubPlace pa size → pa % size = 0 → s.worldOk d false pa size = (true, s) →
        ∃ t, exec (.hostAtomicRequest d pa op w b e) s = .next t ∧ ans t (.atomic d (word (leNat old))) ∧
          s.Stored t (.hub d pa) (match atomNew op (8 * size) (leNat old) (b.toNat % m) (e.toNat % m) with
            | some v => leBytes size v
            | none => old)) ∧
    (x.ready = true → ∀ (n a : Nat) (k : CoreIx) (v : Word), s.coreAt d n = some k → n < 32 → 0x100 ≤ a → a < 0xC00 →
      (cregAcc (isHub d) a = some .r → ∃ t, exec (.hostControlWrite d (2 ^ 15 * n + 8 * a) v) s = .next t ∧ t = s) ∧
      (∀ acc u, cregAcc (isHub (dieOf k)) a = some acc → acc ≠ .r → acc ≠ .sec → s.cregAbsent k a = false →
        outside v (cregMask a) = false → cregValueBad a v = false → s.cregWrite k false a v = .ok u →
        s.schedWaited u d = false → ∃ t, exec (.hostControlWrite d (2 ^ 15 * n + 8 * a) v) s = .next t ∧ t = u)) ∧
    (∀ off : Nat,
      (x.ready = false → ans (s.hostControlRead d off) (.read d (List.replicate 8 0xFF))) ∧
      (x.ready = true → off % 8 = 0 → off < 0x3F_0000 → 0xC00 ≤ off % 2 ^ 15 / 8 →
        ans (s.hostControlRead d off) (.read d (List.replicate 8 0))) ∧
      (∀ n a k, x.ready = true → s.coreAt d n = some k → n < 32 → 0x100 ≤ a → a < 0xC00 → cregAcc (isHub d) a ≠ none →
        s.cregAbsent k a = false →
        ans (s.hostControlRead d (2 ^ 15 * n + 8 * a)) (.read d (leBytes 8 (s.sharedRead k a).toNat))) ∧
      ans (s.hostNotifyRead d) (.read d (List.replicate 8 0))) ∧
    (∀ v : Word, x.ready = true →
      (bits v 44 20 ≠ 0 → ∃ t, exec (.notify d v) s = .next t ∧ (t.die d).notify = v &&& word (maskAt 0 44) ∧ (t.die d).ndrop = min (x.ndrop + 1) (2 ^ 32 - 1) ∧
        (t.die d).qslots = x.qslots ∧ s.SameMemory t) ∧
      (bits v 44 20 = 0 → ∀ i, x.slotOf (bits v 32 12) = some i → (x.slot i).st = .active → (x.slot i).devq = false →
        let tl : W32 := v.setWidth 32
        tailTooFar (x.slot i).head (x.slot i).logn tl = false →
        ∃ t, exec (.notify d v) s = .next t ∧ ((t.die d).slot i).head = (x.slot i).head ∧ ((t.die d).slot i).st = .active ∧
          ((t.die d).slot i).tail = (if aheadOf tl (x.slot i).tail then tl else (x.slot i).tail) ∧ s.SameMemory t)) ∧
    (∀ (k : Nat), k < 16 → x.ready = true →
      let sl := x.slot k
      (∀ (v : Word) (sec : Bool), bit v 0 = true → outside v (maskAt 36 12 + maskAt 0 4) = false → sl.st = .free →
        x.slotOf (bits v 36 12) = none →
        ∃ t, exec (.qslotMap d k v sec) s = .next t ∧ ((t.die d).slot k).st = .mapping ∧ ((t.die d).slot k).qnum = bits v 36 12 ∧
          ((t.die d).slot k).devq = bit v 1 ∧ ((t.die d).slot k).secure = sec ∧ s.SameMemory t) ∧
      (sl.st = .active → ∃ t, exec (.qslotUnmap d k) s = .next t ∧ ((t.die d).slot k).st = .unmapping ∧
        ((t.die d).slot k).head = sl.head ∧ ((t.die d).slot k).tail = sl.tail ∧ s.SameMemory t) ∧
      (sl.st = .mapping → sl.heldTails = [] → sl.unmapDue = false → ∀ e,
        s.schedRead sl.core sl.secure (x.tableEntry sl.qnum) 8 = (some e, s) →
        (leNat e = 0 → ∃ t, exec (.qslotMappingDone d k) s = .next t ∧ (t.die d).slot k = QSlot.reset ∧ s.SameMemory t) ∧
        (leNat e ≠ 0 → ∀ h, s.schedRead sl.core sl.secure (leNat e) 24 = (some h, s) →
          4 ≤ leNat ((h.drop 7).take 1) → leNat ((h.drop 7).take 1) ≤ 16 →
          ∃ t, exec (.qslotMappingDone d k) s = .next t ∧ s.SameMemory t ∧
            let y := (t.die d).slot k
            y.st = .active ∧ y.qnum = sl.qnum ∧ y.devq = sl.devq ∧ y.secure = sl.secure ∧ y.hdr = word (leNat e) ∧
            y.rbase = word (leNat (h.take 6)) ∧ y.logn = leNat ((h.drop 7).take 1) ∧ y.head = w32At h 8 ∧ y.tail = w32At h 16)) ∧
      (sl.st = .unmapping → s.taking d k = false →
        (∀ ok u, s.schedWrite sl.core sl.secure (sl.hdr.toNat + 8) (leBytes 4 sl.head.toNat) = (ok, u) →
          s.schedWaited (if ok then (u.aheadWrite sl.core sl.secure sl.hdr.toNat sl.tail).2 else u) d = false →
          ∃ t, exec (.qslotUnmapDone d k) s = .next t ∧ (t.die d).slot k = QSlot.reset) ∧
        (∀ (h l : Loc × Loc) (u : State),
          s.schedPlace sl.core sl.secure .write (sl.hdr.toNat + 8) 4 = (some h, s) →
          u = s.schedStore sl.core (sl.hdr.toNat + 8) h (leBytes 4 sl.head.toNat) →
          u.schedPlace sl.core sl.secure .atomic (sl.hdr.toNat + 16) 4 = (some l, u) →
          let r := u.schedPeek (dieOf sl.core) l.2 4
          ∃ t, exec (.qslotUnmapDone d k) s = .next t ∧ (t.die d).slot k = QSlot.reset ∧
            ∀ m, t.peek m 1 = (if aheadOf sl.tail (BitVec.ofNat 32 (leNat r.1))
              then r.2.schedStore sl.core (sl.hdr.toNat + 16) l (leBytes 4 sl.tail.toNat) else r.2).peek m 1)))

/-- The choice among candidates is one of the highest level, and there is one whenever there is a candidate. A record
taken from a slot moves its HEAD, and one from the store leaves it, once no idle cluster of lower number selects. A valid
record starts in user mode at CODE with FRAME, ARG, JOIN and word 0 in g1 to g4 and every other register zero; one that
is not valid is counted and not run. A candidate due a rise ages by one step. Of copies that agree the shadow retires,
and the primary once its stores have performed in program order, as far as they can at each move, and its join block
counts down; copies that differ run again once, and the second time raise the message. That a run of a DUAL record that
waits comes before every candidate is log 49, the model's inference; the order within a level is log 15, the level of an
unreadable record log 36.  (R246, R247, R249, R338) -/
def Obligations.SchedulerEvents : Prop :=
  (∀ (x : Die) (cs : List Cand), (∀ c ∈ cs, c.source ≤ 16) →
    (∀ ch, x.choose cs = some ch → ch ∈ cs ∧ ∀ c ∈ cs, c.level ≤ ch.level) ∧ (cs ≠ [] → ∃ ch, x.choose cs = some ch)) ∧
  (∀ (s : State) (c : CluIx),
    let d := dieOfClu c
    let x := s.die d
    ((s.cluster c).isIdle = true → (List.range (16 + x.store.length)).any x.ageDue = false → s.dualFor c = none →
      (∀ k ∈ clustersOn d, k.val < c.val → s.selects k = false) → ∀ ch, x.choose (s.cands c) = some ch →
      (∀ r, ch.source < 16 →
        let s1 := s.modDie d fun y => { y with lastSrc := vset y.lastSrc ch.level ch.source }
        s1.headRecord (x.slot ch.source) = (some r, s1) →
        ∃ t, exec (.recordSelect c) s = .next t ∧ ((t.die d).slot ch.source).head = (x.slot ch.source).head + 1 ∧
          ((t.die d).slot ch.source).tail = (x.slot ch.source).tail ∧ (t.die d).store = x.store ∧
          (∃ k, (t.cluster c).taken = some k ∧ k.record = r ∧ k.source = .slot ch.source ∧ k.readable = true ∧
            k.secure = (x.slot ch.source).secure) ∧ (∀ k, k ≠ c → t.cluster k = s.cluster k) ∧ s.SameMemory t) ∧
      (∀ r, ch.source = 16 → x.store[ch.place]? = some r →
        ∃ t, exec (.recordSelect c) s = .next t ∧ (t.die d).store = x.store.take ch.place ++ x.store.drop (ch.place + 1) ∧
          (t.die d).qslots = x.qslots ∧ (t.cluster c).taken = some ⟨r.record, .store, r.secure, true, 0⟩ ∧
          (∀ k, k ≠ c → t.cluster k = s.cluster k) ∧ s.SameMemory t)) ∧
    ((s.cluster c).isIdle = true → (List.range (16 + x.store.length)).any x.ageDue = false →
      (∀ k ∈ clustersOn d, k.val < c.val → s.selects k = false) → ∀ p, s.dualFor c = some p →
      ∃ t, exec (.recordSelect c) s = .next t ∧ t = s.setCluster c { s.cluster c with
        taken := some ⟨p.record, .shadow p.id, p.secure, true, 0⟩ }) ∧
    (∀ k id, (s.cluster c).taken = some k → k.source = .shadow id →
      (∀ p, x.duals.find? (fun p => p.id = id) = some p → p.fits c = true →
        ∃ t y, exec (.recordStart c) s = .next t ∧ c ∈ t.runq ∧ (∀ j, j ≠ c → t.cluster j = s.cluster j) ∧ s.SameMemory t ∧
          (t.cluster c).record = some k.record ∧ (t.cluster c).pc = k.record.w0.setWidth 18 ∧ (t.cluster c).taken = none ∧
          (t.die d).duals.find? (fun p => p.id = id) = some y ∧
          (if p.primary = none then y.primary = some c else y.shadow = some c)) ∧
      ((∀ p, x.duals.find? (fun p => p.id = id) = some p → p.fits c = false) →
        ∃ t, exec (.recordStart c) s = .next t ∧ t = s.setCluster c { s.cluster c with taken := none })) ∧
    (∀ k, (s.cluster c).taken = some k → (∀ id, k.source ≠ .shadow id) →
      (k.readable = true → s.recordOk (coreOf c) k.record = true → k.record.isDual = true →
        ∃ t p, exec (.recordStart c) s = .next t ∧ c ∈ t.runq ∧ (∀ j, j ≠ c → t.cluster j = s.cluster j) ∧ s.SameMemory t ∧
          (t.cluster c).record = some k.record ∧ (t.die d).duals = x.duals ++ [p] ∧ p.record = k.record ∧ p.attempt = 1 ∧
          p.primary = some c ∧ p.shadow = none) ∧
      (k.readable = true → s.recordOk (coreOf c) k.record = true → k.record.isDual = false →
        ∃ t, exec (.recordStart c) s = .next t ∧ c ∈ t.runq ∧ (∀ j, j ≠ c → t.cluster j = s.cluster j) ∧ s.SameMemory t ∧
          let y := t.cluster c
          y.mode = .user ∧ y.pc = k.record.w0.setWidth 18 ∧ y.record = some k.record ∧ y.taken = none ∧ y.fpflg = 0 ∧
          y.loops.depth = 0 ∧ y.g 1 = k.record.w1 ∧ y.g 2 = k.record.w3 ∧ y.g 3 = k.record.w2 ∧ y.g 4 = k.record.w0 ∧
          (∀ r : Reg, r ∉ ([1, 2, 3, 4] : List Reg) → y.g r = 0) ∧ y.thvec = (s.cluster c).thvec) ∧
      ((k.readable = false ∨ s.recordOk (coreOf c) k.record = false) → bit x.elbase 0 = false →
        ∃ t, exec (.recordStart c) s = .next t ∧ (t.cluster c).taken = none ∧ (t.cluster c).record = (s.cluster c).record ∧
          (t.die d).badrec = min (x.badrec + 1) (2 ^ 32 - 1) ∧ t.runq = s.runq ∧ s.SameMemory t))) ∧
  (∀ (s : State) (d : DieIx) (n : Nat), (s.die d).ageDue n = true →
    (n < 16 → ∃ t, exec (.recordAgeStep d n) s = .next t ∧ ((t.die d).slot n).aged = ((s.die d).slot n).aged + 1 ∧
      s.SameMemory t) ∧
    (∀ r, 16 ≤ n → (s.die d).store[n - 16]? = some r →
      ∃ t, exec (.recordAgeStep d n) s = .next t ∧ (t.die d).store[n - 16]? = some { r with aged := r.aged + 1 } ∧
        (t.die d).store.map Ready.record = (s.die d).store.map Ready.record ∧ s.SameMemory t)) ∧
  (∀ (s : State) (d : DieIx) (n : Nat) (p : DualPair) (a b : CluIx) (ra rb : DualRun),
    (s.die d).duals.find? (fun p => p.id = n) = some p → p.primary = some a → p.shadow = some b → a ≠ b →
    (s.cluster a).dual = some ra → (s.cluster b).dual = some rb → ra.ended = true → rb.ended = true → p.agreed = false →
    let idle (t : State) : Prop := (t.cluster a).record = none ∧ (t.cluster b).record = none ∧ a ∉ t.runq ∧ b ∉ t.runq
    let q : DualPair := { p with
      agreed := true
      shadow := none }
    let w : State := (s.modDie d fun x => { x with duals := updFirst (fun y => y.id == p.id) (fun _ => q) x.duals }).retireCluster b
    let z : State := { w with focus := a }
    (ra.trapped = false → rb.trapped = false → ra.signature = rb.signature →
      (∀ st rest u, z.dualPerform ra.stores = (st :: rest, u) →
        ∃ t, exec (.dualCompare d n) s = .next t ∧ (t.cluster b).record = none ∧ b ∉ t.runq ∧
          (t.die d).duals.find? (fun p => p.id = n) = some q ∧ (t.cluster a).dual = some { ra with stores := st :: rest } ∧
          (t.cluster a).record = (s.cluster a).record ∧ t.focus = s.focus ∧ ∀ l, t.peek l 1 = u.peek l 1) ∧
      (∀ u, z.dualPerform ra.stores = ([], u) → p.record.join = 0 →
        ∃ t, exec (.dualCompare d n) s = .next t ∧ idle t ∧ (t.die d).duals = (u.die d).duals.filter (fun q => q.id != n) ∧
          t.focus = s.focus ∧ ∀ l, t.peek l 1 = u.peek l 1) ∧
      (∀ (e : DieIx) (m : Nat), ra.stores = [] → (∀ f ∈ s.flits, f.ownOf a = false) → p.record.join ≠ 0 →
        (z.dropPair d p.id).joinErrs p.record.join = ([], .ok (.hub e m), z.dropPair d p.id) →
        (s.die e).hub.wf = true → (s.die e).hubBad = [] →
        let l : Loc := .hub e m
        let count := leNat (s.peek l 4)
        2 ≤ count → s.releaseWaits a l = false → ∃ t, exec (.dualCompare d n) s = .next t ∧ idle t ∧
          (t.die d).duals = (s.die d).duals.filter (fun q => q.id != n) ∧ s.Stored t l (leBytes 4 (count - 1)))) ∧
    (∀ (xs ys : List DualStore), z.dualPerform (xs ++ ys) = match z.dualPerform xs with
      | ([], u) => u.dualPerform ys
      | (left, u) => (left ++ ys, u)) ∧
    (∀ (va : Word) (bs : List Byte) (o : Cls) (rel : Bool), va.toNat + bs.length ≤ spadBytes (coreOf a) → bs ≠ [] →
      (rel = true → s.postedAt a false = false) →
      (∀ f ∈ s.flits, f.ownOf a = false) → (s.core (coreOf a)).secure = true →
      (s.core (coreOf a)).tiles = [] → (s.core (coreOf a)).spadBad = [] → (s.core (coreOf a)).spad.wf = true →
      ∃ u, z.dualPerform [⟨va, bs, o, rel⟩] = ([], u) ∧ s.Stored u (.spad (coreOf a) va.toNat) bs) ∧
    ((ra.trapped = true ∨ rb.trapped = true ∨ ra.signature ≠ rb.signature) → bit (s.die d).elbase 0 = false →
      (p.attempt = 1 → ∃ t, exec (.dualCompare d n) s = .next t ∧ idle t ∧ (t.die d).dualFirst = (s.die d).dualFirst + 1 ∧
        (t.die d).duals.find? (fun p => p.id = n) = some { p with
          attempt := 2
          primary := none
          shadow := none
          used := p.used ++ [coreOf a, coreOf b] } ∧ s.SameMemory t) ∧
      (p.attempt ≠ 1 → ∃ t, exec (.dualCompare d n) s = .next t ∧ idle t ∧
        (t.die d).dualSecond = (s.die d).dualSecond + 1 ∧ (t.die d).duals = (s.die d).duals.filter (fun q => q.id != n) ∧
        t.out = s.out ++ [.faultMessage d] ∧ s.SameMemory t))) ∧
  (∀ (s : State) (d : DieIx) (n : Nat) (p : DualPair) (a : CluIx) (ra : DualRun) (u : State),
    (s.die d).duals.find? (fun p => p.id = n) = some p → p.agreed = true → p.primary = some a → (s.cluster a).dual = some ra →
    ({ s with focus := a } : State).dualPerform ra.stores = ([], u) → p.record.join = 0 →
    ∃ t, exec (.dualCompare d n) s = .next t ∧ (t.cluster a).record = none ∧ a ∉ t.runq ∧
      (t.die d).duals = (u.die d).duals.filter (fun q => q.id != n) ∧ t.focus = s.focus ∧ ∀ l, t.peek l 1 = u.peek l 1)

/-- The first waiting miss begins its walk when fewer than 64 are in flight, or joins one on its page. A walk that finds
a leaf puts it into the TLB; one that meets a hole leaves a record in the fault queue when it has room; one that meets a
malformed entry stops the engine with XLT. While records remain unanswered the message is raised. An answer takes the
head record: FAIL = 0 makes the engine walk again, FAIL = 1 stops its command with XLT, once that stands at the head of
its queue, and leaves the record of a command that has stopped before it (R192). That misses join only under one PTROOT
and in one world, and that a malformed entry stops the engine as one that no answer could mend, are log 56; that a
command may fail behind one that is landing is log 11: the model's inferences.  (R171, R189, R300, R304, R305, R306) -/
def Obligations.TranslationEvents : Prop :=
  (∀ (s : State) (d : DieIx) (w : Walk) (rest : List Walk), (s.die d).walkWait = w :: rest  →
    ((s.die d).walks.length < 64 ∨ ∃ v ∈ (s.die d).walks, (s.core v.core).ptroot = (s.core w.core).ptroot ∧
      (s.core v.core).secure = (s.core w.core).secure ∧ v.va / 2 ^ 16 = w.va / 2 ^ 16) →
    ∃ t, exec (.walkStart d) s = .next t ∧ (t.die d).walkWait = rest ∧ (t.die d).walks = (s.die d).walks ++ [w] ∧
      s.SameMemory t ∧ ∀ c, t.cluster c = s.cluster c) ∧
  (∀ (s : State) (w : Walk), (s.die (dieOf w.core)).walks = [w] → w.eng < 20 →
    let d := dieOf w.core
    let sec := (s.core w.core).secure
    (∀ big e, s.walk w.core sec w.va = (.leaf big e, s) →
      ∃ t, exec (.walkComplete d 0) s = .next t ∧ (t.die d).walks = [] ∧ t.core w.core = (s.core w.core).tlbFill w.va big e ∧
        s.SameMemory t) ∧
    (∀ level, s.walk w.core sec w.va = (.hole level, s) → (s.core w.core).xfq.length < (s.core w.core).xfSize →
      (s.core w.core).xfWait = [] →
      ∃ t, exec (.walkComplete d 0) s = .next t ∧ (t.die d).walks = [] ∧ ((t.core w.core).engine w.eng).pause = true ∧
        (t.core w.core).xfq = (s.core w.core).xfq ++ [(w, level)] ∧ (t.core w.core).xfTail = (s.core w.core).xfTail + 1) ∧
    (s.walk w.core sec w.va = (.malformed, s) → ∀ c cs, ((s.core w.core).engine w.eng).queue = c :: cs → c.landing = false →
      ((s.core w.core).engine w.eng).hold = false →
      ∃ t, exec (.walkComplete d 0) s = .next t ∧ (t.die d).walks = [] ∧ ((t.core w.core).engine w.eng).hold = true ∧
        ((t.core w.core).engine w.eng).err = some .xlt ∧ ((t.core w.core).engine w.eng).fa = word w.va ∧ s.SameMemory t)) ∧
  (∀ (s : State) (k : CoreIx),
    let x := s.core k
    (x.xfq ≠ [] → (x.xfMsg = none ∨ ∃ n, x.xfMsg = some n ∧ 4096 ≤ n) →
      ∃ t, exec (.faultMessage k) s = .next t ∧ t.out = s.out ++ [.faultMessage (dieOf k)] ∧ (t.core k).xfMsg = some 0 ∧
        s.SameMemory t) ∧
    (∀ w l rest, x.xfq = (w, l) :: rest → x.xfWait = [] →
      (x.xfAns = some false → w.eng ≠ goneEng →
        ∃ t, exec (.xfrespRetry k) s = .next t ∧ (t.core k).xfq = rest ∧ (t.core k).xfHead = x.xfHead + 1 ∧
          (t.core k).xfAns = none ∧ (t.die (dieOf k)).walkWait = (s.die (dieOf k)).walkWait ++ [w] ∧ s.SameMemory t) ∧
      (x.xfAns = some true →
        (∀ c cs, w.core = k → w.eng < 20 → (x.engine w.eng).queue = c :: cs →
          (c.landing = false → (x.engine w.eng).hold = false →
            ∃ t, exec (.xfrespFail k) s = .next t ∧ (t.core k).xfq = rest ∧ (t.core k).xfHead = x.xfHead + 1 ∧
              (t.core k).xfAns = none ∧ ((t.core k).engine w.eng).hold = true ∧ ((t.core k).engine w.eng).err = some .xlt ∧
              ((t.core k).engine w.eng).fa = word w.va ∧ s.SameMemory t) ∧
          (∀ e, workOn [] (if (x.engine w.eng).hold then cs else c :: cs) = some e → e.seq ≠ c.seq →
            ∃ t, exec (.xfrespFail k) s = .next t ∧ (t.core k).xfq = rest ∧ (t.core k).xfHead = x.xfHead + 1 ∧
              (t.core k).xfAns = none ∧ ((t.core k).engine w.eng).stopAt = some (e.seq, w.va) ∧
              ((t.core k).engine w.eng).hold = (x.engine w.eng).hold ∧ ((t.core k).engine w.eng).err = (x.engine w.eng).err ∧
              ((t.core k).engine w.eng).fa = (x.engine w.eng).fa ∧ s.SameMemory t)) ∧
        (w.eng = mxEng → x.mx.run.isSome = true →
          ∃ t, exec (.xfrespFail k) s = .next t ∧ (t.core k).xfq = rest ∧ (t.core k).mx.frozen = true ∧
            (t.core k).mx.flt = true ∧ (t.core k).mx.fa = word w.va ∧ s.SameMemory t))))

/-- A refresh and a burst change no data. A level rises and falls by one. A column at level 3 begins to move to an unused
spare, or with none left runs at half duty. The switch puts the column in the CREMAP entry of the spare and clears the
entry it had, and the column takes the level of the spare. The duty is the largest from 1 to 64 under which the draw
stays within the cap, and every 16,000 cycles every die shows it. Which dies are active, the lines of R4 that count, the
cap of the module as the least of its dies' and the clock of H0 are log 22, and that refresh and bursts are only counted
is log 9: the model's choices.  (R276, R279, R282, R344, R352) -/
def Obligations.ThermalAndPowerEvents : Prop :=
  (∀ (s : State) (d : DieIx) (col : Nat), isHub d = false → (s.die d).hasColumn col = true →
    let x := s.die d
    (∀ bg, bg < 8 → 4 ≤ x.stage → ∃ t, exec (.refresh d col bg) s = .next t ∧
      t = s.modDie d fun y => { y with refreshes := x.refreshes + 1 }) ∧
    (∀ bg, bg < 8 → x.ready = true → ∃ t, exec (.normalBurstGrant d col bg) s = .next t ∧
      t = s.modDie d fun y => { y with bursts := x.bursts + 1, colUse := setKey col x.now x.colUse }) ∧
    (x.columnLevel col < 3 → ∃ t, exec (.levelRise d col) s = .next t ∧ (t.die d).columnLevel col = x.columnLevel col + 1 ∧
      (∀ c, c ≠ col → (t.die d).columnLevel c = x.columnLevel c) ∧ s.SameMemory t) ∧
    (0 < x.columnLevel col → ∃ t, exec (.levelFall d col) s = .next t ∧
      (t.die d).columnLevel col + 1 = x.columnLevel col ∧ col ∉ (t.die d).halfDuty ∧
      (∀ c, c ≠ col → (t.die d).columnLevel c = x.columnLevel c) ∧ s.SameMemory t) ∧
    (x.ready = true → col < x.lcol → x.columnLevel col = 3 → x.mig = none → col ∉ x.halfDuty →
      (∀ n rest, x.freeSpares = n :: rest → s.tensorWrites d = false →
        ∃ t, exec (.columnMigrate d col) s = .next t ∧ (t.die d).mig = some ⟨col, n, false⟩ ∧ s.SameMemory t) ∧
      (x.freeSpares = [] → bit x.elbase 0 = false →
        ∃ t, exec (.columnMigrate d col) s = .next t ∧ (t.die d).halfDuty = x.halfDuty ++ [col] ∧ (t.die d).mig = none ∧
          s.SameMemory t))) ∧
  (∀ (s : State) (d : DieIx) (m : Migration), (s.die d).mig = some m → m.spare < 4 → m.col < 128 → m.retire = false →
    bit (s.die d).elbase 0 = false →
    let x := s.die d
    let entry (y : Die) (n : Nat) : Nat := bits y.cremap (16 * n) 16
    ∃ t, exec (.migrationSwitch d) s = .next t ∧ (t.die d).mig = none ∧ entry (t.die d) m.spare = 0x8000 + m.col ∧
      (∀ n, n < 4 → n ≠ m.spare → entry (t.die d) n = if x.spareOf m.col = some n then 0 else entry x n) ∧
      (t.die d).columnLevel m.col = x.columnLevel (128 + m.spare) ∧ m.col ∉ (t.die d).halfDuty ∧ s.SameMemory t) ∧
  (∀ s : State,
    let cap := 64 * s.powerCap
    let n := s.duty
    1 ≤ n ∧ n ≤ 64 ∧ ((∃ k, 1 ≤ k ∧ k ≤ 64 ∧ s.draw64 k ≤ cap) → s.draw64 n ≤ cap) ∧
    (∀ k, n < k → k ≤ 64 → cap < s.draw64 k) ∧
    (16000 ≤ (s.die 4).powAge →
      ∃ t, exec .powerEstimate s = .next t ∧ s.SameMemory t ∧ ∀ d, (t.die d).pwrst = s.powerWord ∧ (t.die d).powAge = 0))

/-- An offer to the test engine of a column that has been idle for MINIDL x 64 cycles and that no request waits for
counts the faults it finds, and a pass over every column counts once. A write of VBTDRV asks for a beat, or with CONN
above 1,055, TECTL.EN set or a site without a bus runs none and sets ERR; every beat asked for names a connection up to
1,055. The beat of a good bus answers one connection, the one marked, and ends the wait of the SETC. A write of VBREP is
pending and comes into force on an idle bus. Service 0x20 fuses the fields of its site and answers 0. Service 0x21 begins
the move of a serving column with a spare, or lets it run on with bit 63; of an unused spare it answers bit 62 and loses
the spare. The switch of a retired column is fused, and the spare it leaves is lost. Model's inferences: when a pending
field comes into force is log 41, what an open or stuck connection answers log 51, the replies of service 0x21 and what
is fused log 50.  (R343, R344, R345, R346, R353, R354, R355) -/
def Obligations.BusEvents : Prop :=
  ∀ (s : State) (d : DieIx), isHub d = false →
    let x := s.die d
    (∀ site c, x.lcol ≤ 128 → s.columnAt d site = some c → x.ready = true → bit x.tectl 0 = true → x.lanes.columnIdle c = true → x.mig = none →
      64 * bits x.tectl 8 8 ≤ x.now - (lookupNat c x.colUse).getD 0 → s.columnWanted d c = false →
      bit x.elbase 0 = false →
      ∃ t, exec (.testEngineOffer d site) s = .next t ∧
        bits (t.die d).test 32 16 = min (bits x.test 32 16 + (x.faultsAt site).length) 65535 ∧
        ((insertNat c x.tested).length < x.lcol → (t.die d).tested = insertNat c x.tested ∧
          bits (t.die d).test 48 16 = bits x.test 48 16) ∧
        (x.lcol ≤ (insertNat c x.tested).length → (t.die d).tested = [] ∧
          bits (t.die d).test 48 16 = min (bits x.test 48 16 + 1) 65535) ∧ s.SameMemory t) ∧
    (∀ v : Word, outside v 0xFFF = false → x.beat = none →
      (bits v 0 11 ≤ 1055 → bit x.tectl 0 = false → siteOk d x.vbsel = true →
        ∃ t, exec (.vbtdrvWrite d v) s = .next t ∧ t = s.modDie d fun y => { y with
          vbtdrv := v
          beat := some (x.vbsel, v) }) ∧
      (1055 < bits v 0 11 ∨ bit x.tectl 0 = true ∨ siteOk d x.vbsel = false →
        ∃ t, exec (.vbtdrvWrite d v) s = .next t ∧ t = s.modDie d fun y => { y with
          vbtdrv := v
          vbtrcv := packWord [(63, 1), (16, 0x7FF), (0, 0x7FF)] })) ∧
    (∀ v t, exec (.vbtdrvWrite d v) s = .next t → (∀ site u, x.beat = some (site, u) → bits u 0 11 ≤ 1055) →
      ∀ site u, (t.die d).beat = some (site, u) → bits u 0 11 ≤ 1055) ∧
    (∀ site v, x.beat = some (site, v) → (∀ p u, x.beat = some (p, u) → bits u 0 11 ≤ 1055) →
      ∃ t, exec (.testBeatResult d) s = .next t ∧ (t.die d).beat = none ∧ s.SameMemory t ∧
        (∀ c, dieOfClu c ≠ d → t.cluster c = s.cluster c) ∧
        (∀ c ∈ clustersOn d, (s.cluster c).beatWait = true → (t.cluster c).beatWait = false ∧ (s.cluster c).Follows (t.cluster c) ∧
          (t.cluster c).regs = (s.cluster c).regs) ∧
        (∀ c, s.columnAt d site = some c → lookupNat c (t.die d).colUse = some x.now) ∧
        (x.vbopen = [] → x.vbstuck = [] → (t.die d).vbtrcv = packWord [(32, 1), (16, bits v 0 11), (0, bits v 0 11)])) ∧
    (∀ k v, k < 4 → siteOk d x.vbsel = true →
      ∃ t, exec (.vbrepWrite d k v) s = .next t ∧
        (∀ j, j < 4 → (t.die d).repair x.vbsel (4 * k + j) = BitVec.ofNat 16 (bits v (16 * j) 16)) ∧
        (∀ site g, (site ≠ x.vbsel ∨ g / 4 ≠ k) → (t.die d).repair site g = x.repair site g) ∧
        (t.die d).vbrep = x.vbrep ∧ s.SameMemory t) ∧
    (∀ r rest, x.vbpend = r :: rest → x.beat = none →
      ∃ t, exec (.vbrepApply d) s = .next t ∧ (t.die d).vbpend = [] ∧ (∀ site g, (t.die d).repair site g = x.repair site g) ∧
        s.SameMemory t) ∧
    (∀ site, s.wanted d 0x20 site = true →
      ∃ t, exec (.fuseRepairs d site) s = .next t ∧
        (t.die d).ws = updFirst (fun r => r.wants d 0x20 site) (fun r => { r with result := some 0 }) x.ws ∧
        (∀ g, g < 16 → x.repair site g ≠ 0 → (site, g, x.repair site g) ∈ (t.die d).vbfused) ∧
        (∀ r ∈ (t.die d).vbfused, r.1 ≠ site → r ∈ x.vbfused) ∧ s.SameMemory t) ∧
    (∀ m, x.mig = some m → m.retire = true → m.spare < 4 → m.col < 128 → bit x.elbase 0 = false →
      (∀ i j, i < 4 → j < 4 → bit x.cremap (16 * i + 15) = true → bit x.cremap (16 * j + 15) = true →
        bits x.cremap (16 * i) 7 = bits x.cremap (16 * j) 7 → i = j) →
      ∃ t, exec (.migrationSwitch d) s = .next t ∧ (t.die d).mig = none ∧
        bits (t.die d).cremapFused (16 * m.spare) 16 = 0x8000 + m.col ∧ (∀ o, x.spareOf m.col = some o → o ∈ (t.die d).lost) ∧
        s.SameMemory t) ∧
    (∀ site, s.wanted d 0x21 site = true → x.mig = none →
      let answers (t : State) (v : Word) : Prop :=
        (t.die d).ws = updFirst (fun r => r.wants d 0x21 site) (fun r => { r with result := some v }) x.ws
      (∀ c, s.columnAt d site = some c →
        (∀ n rest, x.freeSpares = n :: rest → s.tensorWrites d = false →
          ∃ t, exec (.retireBus d site) s = .next t ∧ (t.die d).mig = some ⟨c, n, true⟩ ∧ (t.die d).ws = x.ws ∧
            s.SameMemory t) ∧
        (x.freeSpares = [] →
          ∃ t, exec (.retireBus d site) s = .next t ∧ (t.die d).runOn = insertNat c x.runOn ∧ answers t (word (2 ^ 63 + 2 ^ 8 * c)) ∧
            s.SameMemory t)) ∧
      (∀ n, s.columnAt d site = none → siteAt (rotOf d) (site % 16) (site / 16) = some (.spare n) → n ∉ x.lost →
        bit x.elbase 0 = false →
        ∃ t, exec (.retireBus d site) s = .next t ∧ (t.die d).lost = insertNat n x.lost ∧ answers t (word (2 ^ 62 + n)) ∧
          (t.die d).spcol = (t.die d).freeSpares.length ∧ s.SameMemory t))

/-- A doorbell with a length from 60 to 9,216 asks the port to send; the frame sent is the bytes of its buffer. A
received frame with a bad check sequence or length is counted in BAD; one whose address the port does not keep is
dropped; with EN = 0 or a full ring it is counted in FULL, too long for a slot in BIG; any other is written to slot HEAD
mod N with its status word. The commit advances HEAD and writes it to HEADM. Enabling sets HEAD and TAIL to 0; a frame
whose commit a clear of EN left open is committed to the old ring before ERXCFG changes. TAIL moves ahead, up to HEAD.
(R301, R302, R303) -/
def Obligations.EthernetEvents : Prop :=
  ∀ (s : State) (d : DieIx) (q : Nat), isHub d = true → q < 3 →
    let x := s.die d
    let p := s.port d q
    let erx (pa : Nat) : Loc := .hub d pa
    (∀ v : Word, p.txLen = none → bits v 14 50 = 0 → 60 ≤ bits v 0 14 → bits v 0 14 ≤ 9216 →
      ∃ t, exec (.sendDoorbell d q v) s = .next t ∧ (t.port d q).txLen = some (bits v 0 14) ∧ s.SameMemory t) ∧
    (∀ n, p.txLen = some n → s.bufferPending d q = false →
      ∃ t, exec (.frameTransmit d q) s = .next t ∧ t.out = s.out ++ [.frame d q (p.buf.readN 0 n)] ∧ (t.port d q).txLen = none ∧
        s.SameMemory t) ∧
    (∀ (fr : List Byte) (ok : Bool), x.ready = true → p.rxLen = none →
      let got (t : State) (y : EthPort) : Prop := t.port d q = y ∧ s.SameMemory t
      let good := ok = true ∧ 60 ≤ fr.length ∧ fr.length ≤ 9216
      (¬ good → ∃ t, exec (.ethernetFrameReceive d q fr ok) s = .next t ∧ got t { p with bad := min (p.bad + 1) 65535 }) ∧
      (good → p.keeps fr = false → ∃ t, exec (.ethernetFrameReceive d q fr ok) s = .next t ∧ got t p) ∧
      (good → p.keeps fr = true →
        ((p.on = false ∨ (p.head - p.tail).toNat = 2 ^ erxLogn p.cfg) →
          ∃ t, exec (.ethernetFrameReceive d q fr ok) s = .next t ∧ got t { p with full := min (p.full + 1) (2 ^ 32 - 1) }) ∧
        (p.on = true → (p.head - p.tail).toNat ≠ 2 ^ erxLogn p.cfg →
          (erxSlot p.cfg < fr.length →
            ∃ t, exec (.ethernetFrameReceive d q fr ok) s = .next t ∧ got t { p with big := min (p.big + 1) 65535 }) ∧
          (fr.length ≤ erxSlot p.cfg → erxSecure p.cfg = true → x.hub.wf = true → x.hubBad = [] →
            let j := p.head.toNat % 2 ^ erxLogn p.cfg
            let slot := erxSlots p.cfg + erxSlot p.cfg * j
            let stat := erxBase p.cfg + 64 + 8 * j
            ∃ t, exec (.ethernetFrameReceive d q fr ok) s = .next t ∧ (t.port d q).rxLen = some fr.length ∧
              (t.port d q).head = p.head ∧ t.peek (erx slot) fr.length = fr ∧
              t.peek (erx stat) 8 = leBytes 8 (p.head.toNat * 2 ^ 32 + fr.length) ∧
              ∀ l, (∀ i, i < fr.length → l ≠ erx (slot + i)) → (∀ i, i < 8 → l ≠ erx (stat + i)) →
                t.peek l 1 = s.peek l 1)))) ∧
    (∀ n, p.rxLen = some n → erxSecure p.cfg = true → x.hub.wf = true → x.hubBad = [] →
      ∃ t, exec (.rxFrameCommit d q) s = .next t ∧ (t.port d q).head = p.head + 1 ∧ (t.port d q).rxLen = none ∧
        s.Stored t (erx (erxBase p.cfg)) (leBytes 8 (p.head + 1).toNat)) ∧
    (∀ v : Word, outside v erxMask = false → bit v 3 = true →
      (p.on = true → ∃ t, exec (.erxcfgWrite d q v true) s = .next t ∧
        (t.port d q).cfg = (if bit v 0 then p.cfg else p.cfg &&& ~~~1) ∧ s.SameMemory t) ∧
      (∀ n, p.on = false → bit v 0 = false → p.rxLen = some n → erxSecure p.cfg = true → x.hub.wf = true → x.hubBad = [] →
        ∃ t, exec (.erxcfgWrite d q v true) s = .next t ∧ (t.port d q).cfg = v ∧ (t.port d q).head = p.head + 1 ∧
          (t.port d q).rxLen = none ∧ s.Stored t (erx (erxBase p.cfg)) (leBytes 8 (p.head + 1).toNat)) ∧
      (p.on = false → bit v 0 = false → p.rxLen = none → ∃ t, exec (.erxcfgWrite d q v true) s = .next t ∧ (t.port d q).cfg = v ∧
        s.SameMemory t) ∧
      (p.on = false → bit v 0 = true → p.rxLen = none → erxEnd v ≤ Config.hubSramBytes → x.hub.wf = true → x.hubBad = [] →
        ∃ t, exec (.erxcfgWrite d q v true) s = .next t ∧ (t.port d q).cfg = v ∧ (t.port d q).head = 0 ∧
          (t.port d q).tail = 0 ∧ s.Stored t (erx (erxBase v)) (leBytes 8 0))) ∧
    (∀ v : Word, bits v 32 32 = 0 →
      let tl : W32 := v.setWidth 32
      ∃ t, exec (.erxtailRelease d q v) s = .next t ∧ s.SameMemory t ∧ (t.port d q).head = p.head ∧
        (t.port d q).tail = if aheadOf tl p.head = false ∧ aheadOf tl p.tail = true then tl else p.tail)

/-- With an empty agenda, when it is a cluster's turn and the word at its PC decodes to an instruction that issues alone,
step is exec of that instruction with that cluster in focus, the turn passed on (log 1: the order of turns is the choice
of the model). A turn of the agenda issues such a word too, and an event of the agenda is exec of it. A word with S = 1
on a hub core puts its cluster into sync wait; a word that decodes to nothing, or has S = 1 on a stack core, raises UDI.
(R26, R27, R30, R35) -/
def Obligations.StepRunsDecodedWord : Prop :=
  (∀ (s : State) (c : CluIx) (w : W32),
    let x := s.cluster c
    let k := s.core (coreOf c)
    w = k.wordAt x.pc → x.atWord = true → x.nextAsync = none → x.dual = none → x.stale = [] → k.imemBad = [] →
    let runs (s0 t0 : State) : Prop :=
      (∀ i, decode w = some ⟨false, i⟩ → step s0 = exec i { t0 with
        focus := c
        note := .done }) ∧
      (∀ i, decode w = some ⟨true, i⟩ → isHub (dieOfClu c) = true → x.solo = true → x.mode = .user →
        step s0 = exec i { t0 with
          focus := c
          note := .done }) ∧
      (∀ i, decode w = some ⟨true, i⟩ → isHub (dieOfClu c) = true → x.solo = false → x.continues i = false →
        ∃ t, step s0 = .next t ∧ (t.cluster c).syncWait = true ∧ (t.cluster c).regs = x.regs ∧ (t.cluster c).pc = x.pc ∧
          s.SameMemory t) ∧
      ((decode w = none ∨ ∃ i, decode w = some ⟨true, i⟩ ∧ isHub (dieOfClu c) = false) → x.mode = .user →
        ∃ t, step s0 = .next t ∧ x.TookTrap (t.cluster c) k.secure false s.bundling noPath .udi ∧ s.SameMemory t)
    (∀ cs, s.agenda = [] → s.runnable = c :: cs → s.engineTurn = false →
      runs s { s with
        runq := cs ++ [c]
        engineTurn := true }) ∧
    (∀ rest, s.agenda = .issue c :: rest → runs s { s with agenda := rest })) ∧
  (∀ (s : State) (i : Instr) (rest : List Turn), s.agenda = .event i :: rest → isEvent i = true →
    step s = exec i { s with agenda := rest })

/-- For a formed bundle of four ADDI words, each cluster writes its register, moves on (R26, R77) and leaves sync wait;
no byte of memory and no cluster of another core changes. When one of the four words is BRK in user mode, its cluster
takes the trap with BUND = 1, the other clusters stay as they were and no byte of memory changes. A cluster that stands
at a word that is no instruction takes UDI, and no other cluster and no byte of memory changes. The statement pins
registers, PC, loops, sync wait, traps, memory and the other clusters, and says nothing of the units of the core. That a
bundle is tried on the state before it is log 25.  (R27, R30, R31, R33, R326) -/
def Obligations.BundlesAndUnallocatedWords : Prop :=
  (∀ (s : State) (k : CoreIx) (d a : CluIx → Reg) (im : CluIx → BitVec 15), s.bundleFormed k = true → (s.core k).imemBad = [] →
    (∀ c ∈ clustersOf k, (s.cluster c).stale = [] ∧ (s.cluster c).solo = false ∧ (s.cluster c).dual = none) →
    let word_ (c : CluIx) : W32 := (s.core k).wordAt (s.cluster c).pc
    let addi (c : CluIx) : Prop := decode (word_ c) = some ⟨true, .addi (d c) (a c) (im c)⟩
    ((∀ c ∈ clustersOf k, addi c) →
      ∃ t, exec (.bundleIssue k) s = .next t ∧ s.SameMemory t ∧ (∀ c, c ∉ clustersOf k → t.cluster c = s.cluster c) ∧
        ∀ c ∈ clustersOf k,
          let x := s.cluster c
          x.Takes (t.cluster c) (d c) (x.g (a c) + (im c).signExtend 64) ∧ x.Follows (t.cluster c) ∧
            (t.cluster c).syncWait = false) ∧
    (∀ b ∈ clustersOf k, ∀ n, (s.cluster b).mode = .user → decode (word_ b) = some ⟨true, .brk n⟩ →
      (∀ c ∈ clustersOf k, c ≠ b → addi c) →
      ∃ t, exec (.bundleIssue k) s = .next t ∧ s.SameMemory t ∧ (∀ c, c ≠ b → t.cluster c = s.cluster c) ∧
        (s.cluster b).TookTrap (t.cluster b) (s.core k).secure false true noPath .dbg ∧
        (t.cluster b).tval = n.setWidth 64)) ∧
  (∀ (s : State) (c : CluIx),
    let x := s.cluster c
    let k := s.core (coreOf c)
    x.atWord = true → x.mode = .user → x.stale = [] → k.imemBad = [] →
    (decode (k.wordAt x.pc) = none ∨ ∃ i, decode (k.wordAt x.pc) = some ⟨true, i⟩ ∧ isHub (dieOfClu c) = false) →
    ∃ t, exec (.unallocatedWord c) s = .next t ∧ x.TookTrap (t.cluster c) k.secure false s.bundling noPath .udi ∧
      (∀ j, j ≠ c → t.cluster j = s.cluster j) ∧ s.SameMemory t)

/-- For every well-formed instruction word, with either sync bit and every operand at every value its encoding admits,
decoding its word gives the sync bit and the instruction back, and the opcode-table numbering agrees. For every word that
decodes, the instruction is well formed, is no event, and encodes to that very word: no word has two meanings and no bit
of it is ignored. The bytes of a word make up that word again.  (R24, R25, R27, R47) -/
def Obligations.EncodeDecodeRoundTrip : Prop :=
  (∀ (i : Instr) (sync : Bool), i.isWord = true → i.wf = true →
    decode (encode sync i) = some ⟨sync, i⟩ ∧ decodeTableWord 32 (encode sync i).toNat = some i) ∧
  (∀ (w : W32) (iw : IWord), decode w = some iw →
    iw.instr.isWord = true ∧ iw.instr.wf = true ∧ encode iw.sync iw.instr = w) ∧
  (∀ w : W32, bytesWord (wordBytes w) = w)

/-- Worked encodings of the manual, one or two of each group, decode to their instructions; MAJ 0x00, a reserved OP6, a
reserved type and a used Q where Q must be 0 decode to nothing.  (R24, R73, R87, R146, R180, R203, R258, R284, R295,
R316, R317) -/
def Obligations.SpecWordsDecode : Prop :=
  (∀ p ∈ ([(0x02308800, .add 3 1 2), (0x20511802, .ld 5 2 2 3), (0x34310009, .fence 3 .die 9),
      (0x1BFFFFFC, .call 0x1FFFFFC), (0x1C21FFFD, .bnez 2 0xFFFD), (0x70500801, .getc 5 0x801), (0x72018100, .setc 0x100 3),
      (0x40221401, .vadd false 2 4 5 .bf16), (0x48000030, .vfence 0), (0x4C140013, .hzpsh 3 8 1),
      (0x50008800, .mxcfg 1 2), (0x50000012, .mxgo 2)] : List (W32 × Instr)),
    decode p.1 = some ⟨false, p.2⟩) ∧
  (∀ p ∈ ([(0x5C321401, .cpy 3 4 5 1), (0x5C000040, .cpwait 0), (0x2C531C02, .aadd 5 6 7 .plain false 2),
      (0x2E442621, .vaadd 4 8 9 .rel .f32 1), (0x30042430, .redadd 8 9 .bf16 0), (0x3C000020, .exit 0),
      (0x3CA2A400, .spawn 10 5 9 0), (0x3C518040, .crec 5 3), (0x64321421, .ldot 3 4 5 1), (0x6E219000, .turn 2 3 4),
      (0x7403A070, .tlbinv 7 8), (0x74531C50, .wscall 5 6 7), (0x74500000, .brk 5), (0x74000010, .rett)] : List (W32 × Instr)),
    decode p.1 = some ⟨false, p.2⟩) ∧
  decode 0xA0511802 = some ⟨true, .ld 5 2 2 3⟩ ∧
  ∀ w ∈ ([0x00000000, 0x022883F0, 0x02308801, 0x7E000000, 0x1C660001, 0x4022140F] : List W32), decode w = none

/-- After power-on every cluster is idle in user mode with THVEC, FPFLG, FPXEN and LDEPTH zero; every core has SYNCWD
65,536, TAKE all ones, HLIM 64, no translation and an instruction memory of zeros; every die stands at stage 0, not
READY, with the reset values of its tables; every link has a = 8. Every memory is in canonical form and every PC is
aligned. Also R40, R79, R213, R325, R326, R348 and R352. Choices of the model, which no table gives: that PC is 0 and
memory reads zero (logs 3 and 4), and that CREMAP is 0, as the fuses of a KIS-1000 part without repairs leave it (log 5).
 (R26, R127, R252, R292, R306, R313, R320, R324, R329, R336, R339, R346) -/
def Obligations.ResetValues : Prop :=
  (∀ c, let x := State.reset.cluster c
    x.mode = .user ∧ x.record = none ∧ x.thvec = 0 ∧ x.fpflg = 0 ∧ x.fpxen = 0 ∧ x.loops.depth = 0 ∧ x.solo = false ∧
    x.pend = [] ∧ x.g 0 = 0 ∧ x.atag = 0) ∧
  (∀ k, let x := State.reset.core k
    x.syncwd = 65536 ∧ x.schen = 0xF ∧ x.hlim = 64 ∧ x.ptroot = 0 ∧ x.htcfg = 0 ∧ x.pitcfg = 0 ∧ x.xfqb = 0 ∧ x.owntag = 0 ∧
    x.tlb = [] ∧ x.vq = [] ∧ (∀ a, x.imem.read a = 0)) ∧
  (∀ d, let x := State.reset.die d
    x.stage = 0 ∧ x.ready = false ∧ x.bootErr = 0 ∧ x.svn = 0 ∧ x.cycle = 0 ∧ x.ete = false ∧ x.unc = 0 ∧ x.poisn = 0 ∧
    x.scrub = packWord [(48, 24), (32, 30), (16, 1000)] ∧ x.elbase = 0 ∧ x.ckcfg = 0 ∧ x.agel = 16 ∧ x.qtbase = 0 ∧ x.ndrop = 0 ∧
    x.badrec = 0 ∧ x.store = [] ∧ x.cremap = 0 ∧ x.test = 0 ∧ x.pwrcap = 1000 ∧ x.wmapb = 0 ∧
    ∀ i, i < 16 → (x.slot i).st = .free) ∧
  (∀ l, (State.reset.link l).share = 8 ∧ (State.reset.link l).age = 0 ∧ (State.reset.link l).queue = []) ∧
  State.reset.flits = [] ∧ State.reset.runq = [] ∧ State.reset.memOk = true ∧ State.reset.Aligned ∧
  ∀ l, State.reset.peek l 1 = [0]

/-- For every state in which each memory is a list of rising addresses with no byte that an unlisted address reads as
(log 4: scratchpads, instruction memories, accumulators (as they stand and as a step found them, log 11), command stores,
hub SRAM, DRAM, activation and frame buffers, checkpoints, host memory and the memory of other packages), the next state
of a step has that form too, whatever word, event, upset or passing of time the step is.  (R83, R296, R297, R318, R331,
R340) -/
def Obligations.MemoryFormKept : Prop :=
  ∀ s t : State, s.memOk = true → step s = .next t → t.memOk = true
end

