-- ==== Sys2Proof/Laws/State.lean ====
section
/-!
SUPPORT. State laws: reading an agent after writing it, and what each named update leaves alone.
-/

namespace Sys2Proof.Machine

/-! ### setCluster -/

@[simp] theorem State.setCluster_cores (s : State) (c : CluIx) (x : Cluster) : (s.setCluster c x).cores = s.cores := rfl
@[simp] theorem State.setCluster_dies (s : State) (c : CluIx) (x : Cluster) : (s.setCluster c x).dies = s.dies := rfl
@[simp] theorem State.setCluster_links (s : State) (c : CluIx) (x : Cluster) : (s.setCluster c x).links = s.links := rfl
@[simp] theorem State.setCluster_hostMem (s : State) (c : CluIx) (x : Cluster) : (s.setCluster c x).hostMem = s.hostMem := rfl
@[simp] theorem State.setCluster_spanMem (s : State) (c : CluIx) (x : Cluster) : (s.setCluster c x).spanMem = s.spanMem := rfl
@[simp] theorem State.setCluster_flits (s : State) (c : CluIx) (x : Cluster) : (s.setCluster c x).flits = s.flits := rfl
@[simp] theorem State.setCluster_merges (s : State) (c : CluIx) (x : Cluster) : (s.setCluster c x).merges = s.merges := rfl
@[simp] theorem State.setCluster_focus (s : State) (c : CluIx) (x : Cluster) : (s.setCluster c x).focus = s.focus := rfl
@[simp] theorem State.setCluster_note (s : State) (c : CluIx) (x : Cluster) : (s.setCluster c x).note = s.note := rfl
@[simp] theorem State.setCluster_bundling (s : State) (c : CluIx) (x : Cluster) : (s.setCluster c x).bundling = s.bundling := rfl
@[simp] theorem State.setCluster_agenda (s : State) (c : CluIx) (x : Cluster) : (s.setCluster c x).agenda = s.agenda := rfl
@[simp] theorem State.setCluster_runq (s : State) (c : CluIx) (x : Cluster) : (s.setCluster c x).runq = s.runq := rfl
@[simp] theorem State.setCluster_engineTurn (s : State) (c : CluIx) (x : Cluster) : (s.setCluster c x).engineTurn = s.engineTurn := rfl
@[simp] theorem State.setCluster_serial (s : State) (c : CluIx) (x : Cluster) : (s.setCluster c x).serial = s.serial := rfl
@[simp] theorem State.setCluster_freeCtr (s : State) (c : CluIx) (x : Cluster) : (s.setCluster c x).freeCtr = s.freeCtr := rfl
@[simp] theorem State.setCluster_out (s : State) (c : CluIx) (x : Cluster) : (s.setCluster c x).out = s.out := rfl

/-! ### modCluster -/

@[simp] theorem State.modCluster_cores (s : State) (c : CluIx) (f : Cluster → Cluster) : (s.modCluster c f).cores = s.cores := rfl
@[simp] theorem State.modCluster_dies (s : State) (c : CluIx) (f : Cluster → Cluster) : (s.modCluster c f).dies = s.dies := rfl
@[simp] theorem State.modCluster_links (s : State) (c : CluIx) (f : Cluster → Cluster) : (s.modCluster c f).links = s.links := rfl
@[simp] theorem State.modCluster_hostMem (s : State) (c : CluIx) (f : Cluster → Cluster) : (s.modCluster c f).hostMem = s.hostMem := rfl
@[simp] theorem State.modCluster_spanMem (s : State) (c : CluIx) (f : Cluster → Cluster) : (s.modCluster c f).spanMem = s.spanMem := rfl
@[simp] theorem State.modCluster_flits (s : State) (c : CluIx) (f : Cluster → Cluster) : (s.modCluster c f).flits = s.flits := rfl
@[simp] theorem State.modCluster_merges (s : State) (c : CluIx) (f : Cluster → Cluster) : (s.modCluster c f).merges = s.merges := rfl
@[simp] theorem State.modCluster_focus (s : State) (c : CluIx) (f : Cluster → Cluster) : (s.modCluster c f).focus = s.focus := rfl
@[simp] theorem State.modCluster_note (s : State) (c : CluIx) (f : Cluster → Cluster) : (s.modCluster c f).note = s.note := rfl
@[simp] theorem State.modCluster_bundling (s : State) (c : CluIx) (f : Cluster → Cluster) : (s.modCluster c f).bundling = s.bundling := rfl
@[simp] theorem State.modCluster_agenda (s : State) (c : CluIx) (f : Cluster → Cluster) : (s.modCluster c f).agenda = s.agenda := rfl
@[simp] theorem State.modCluster_runq (s : State) (c : CluIx) (f : Cluster → Cluster) : (s.modCluster c f).runq = s.runq := rfl
@[simp] theorem State.modCluster_engineTurn (s : State) (c : CluIx) (f : Cluster → Cluster) : (s.modCluster c f).engineTurn = s.engineTurn := rfl
@[simp] theorem State.modCluster_serial (s : State) (c : CluIx) (f : Cluster → Cluster) : (s.modCluster c f).serial = s.serial := rfl
@[simp] theorem State.modCluster_freeCtr (s : State) (c : CluIx) (f : Cluster → Cluster) : (s.modCluster c f).freeCtr = s.freeCtr := rfl
@[simp] theorem State.modCluster_out (s : State) (c : CluIx) (f : Cluster → Cluster) : (s.modCluster c f).out = s.out := rfl

/-! ### modMe -/

@[simp] theorem State.modMe_cores (s : State) (f : Cluster → Cluster) : (s.modMe f).cores = s.cores := rfl
@[simp] theorem State.modMe_dies (s : State) (f : Cluster → Cluster) : (s.modMe f).dies = s.dies := rfl
@[simp] theorem State.modMe_links (s : State) (f : Cluster → Cluster) : (s.modMe f).links = s.links := rfl
@[simp] theorem State.modMe_hostMem (s : State) (f : Cluster → Cluster) : (s.modMe f).hostMem = s.hostMem := rfl
@[simp] theorem State.modMe_spanMem (s : State) (f : Cluster → Cluster) : (s.modMe f).spanMem = s.spanMem := rfl
@[simp] theorem State.modMe_flits (s : State) (f : Cluster → Cluster) : (s.modMe f).flits = s.flits := rfl
@[simp] theorem State.modMe_merges (s : State) (f : Cluster → Cluster) : (s.modMe f).merges = s.merges := rfl
@[simp] theorem State.modMe_focus (s : State) (f : Cluster → Cluster) : (s.modMe f).focus = s.focus := rfl
@[simp] theorem State.modMe_note (s : State) (f : Cluster → Cluster) : (s.modMe f).note = s.note := rfl
@[simp] theorem State.modMe_bundling (s : State) (f : Cluster → Cluster) : (s.modMe f).bundling = s.bundling := rfl
@[simp] theorem State.modMe_agenda (s : State) (f : Cluster → Cluster) : (s.modMe f).agenda = s.agenda := rfl
@[simp] theorem State.modMe_runq (s : State) (f : Cluster → Cluster) : (s.modMe f).runq = s.runq := rfl
@[simp] theorem State.modMe_engineTurn (s : State) (f : Cluster → Cluster) : (s.modMe f).engineTurn = s.engineTurn := rfl
@[simp] theorem State.modMe_serial (s : State) (f : Cluster → Cluster) : (s.modMe f).serial = s.serial := rfl
@[simp] theorem State.modMe_freeCtr (s : State) (f : Cluster → Cluster) : (s.modMe f).freeCtr = s.freeCtr := rfl
@[simp] theorem State.modMe_out (s : State) (f : Cluster → Cluster) : (s.modMe f).out = s.out := rfl

/-! ### setCore -/

@[simp] theorem State.setCore_clusters (s : State) (k : CoreIx) (x : Core) : (s.setCore k x).clusters = s.clusters := rfl
@[simp] theorem State.setCore_dies (s : State) (k : CoreIx) (x : Core) : (s.setCore k x).dies = s.dies := rfl
@[simp] theorem State.setCore_links (s : State) (k : CoreIx) (x : Core) : (s.setCore k x).links = s.links := rfl
@[simp] theorem State.setCore_hostMem (s : State) (k : CoreIx) (x : Core) : (s.setCore k x).hostMem = s.hostMem := rfl
@[simp] theorem State.setCore_spanMem (s : State) (k : CoreIx) (x : Core) : (s.setCore k x).spanMem = s.spanMem := rfl
@[simp] theorem State.setCore_flits (s : State) (k : CoreIx) (x : Core) : (s.setCore k x).flits = s.flits := rfl
@[simp] theorem State.setCore_merges (s : State) (k : CoreIx) (x : Core) : (s.setCore k x).merges = s.merges := rfl
@[simp] theorem State.setCore_focus (s : State) (k : CoreIx) (x : Core) : (s.setCore k x).focus = s.focus := rfl
@[simp] theorem State.setCore_note (s : State) (k : CoreIx) (x : Core) : (s.setCore k x).note = s.note := rfl
@[simp] theorem State.setCore_bundling (s : State) (k : CoreIx) (x : Core) : (s.setCore k x).bundling = s.bundling := rfl
@[simp] theorem State.setCore_agenda (s : State) (k : CoreIx) (x : Core) : (s.setCore k x).agenda = s.agenda := rfl
@[simp] theorem State.setCore_runq (s : State) (k : CoreIx) (x : Core) : (s.setCore k x).runq = s.runq := rfl
@[simp] theorem State.setCore_engineTurn (s : State) (k : CoreIx) (x : Core) : (s.setCore k x).engineTurn = s.engineTurn := rfl
@[simp] theorem State.setCore_serial (s : State) (k : CoreIx) (x : Core) : (s.setCore k x).serial = s.serial := rfl
@[simp] theorem State.setCore_freeCtr (s : State) (k : CoreIx) (x : Core) : (s.setCore k x).freeCtr = s.freeCtr := rfl
@[simp] theorem State.setCore_out (s : State) (k : CoreIx) (x : Core) : (s.setCore k x).out = s.out := rfl

/-! ### modCore -/

@[simp] theorem State.modCore_clusters (s : State) (k : CoreIx) (f : Core → Core) : (s.modCore k f).clusters = s.clusters := rfl
@[simp] theorem State.modCore_dies (s : State) (k : CoreIx) (f : Core → Core) : (s.modCore k f).dies = s.dies := rfl
@[simp] theorem State.modCore_links (s : State) (k : CoreIx) (f : Core → Core) : (s.modCore k f).links = s.links := rfl
@[simp] theorem State.modCore_hostMem (s : State) (k : CoreIx) (f : Core → Core) : (s.modCore k f).hostMem = s.hostMem := rfl
@[simp] theorem State.modCore_spanMem (s : State) (k : CoreIx) (f : Core → Core) : (s.modCore k f).spanMem = s.spanMem := rfl
@[simp] theorem State.modCore_flits (s : State) (k : CoreIx) (f : Core → Core) : (s.modCore k f).flits = s.flits := rfl
@[simp] theorem State.modCore_merges (s : State) (k : CoreIx) (f : Core → Core) : (s.modCore k f).merges = s.merges := rfl
@[simp] theorem State.modCore_focus (s : State) (k : CoreIx) (f : Core → Core) : (s.modCore k f).focus = s.focus := rfl
@[simp] theorem State.modCore_note (s : State) (k : CoreIx) (f : Core → Core) : (s.modCore k f).note = s.note := rfl
@[simp] theorem State.modCore_bundling (s : State) (k : CoreIx) (f : Core → Core) : (s.modCore k f).bundling = s.bundling := rfl
@[simp] theorem State.modCore_agenda (s : State) (k : CoreIx) (f : Core → Core) : (s.modCore k f).agenda = s.agenda := rfl
@[simp] theorem State.modCore_runq (s : State) (k : CoreIx) (f : Core → Core) : (s.modCore k f).runq = s.runq := rfl
@[simp] theorem State.modCore_engineTurn (s : State) (k : CoreIx) (f : Core → Core) : (s.modCore k f).engineTurn = s.engineTurn := rfl
@[simp] theorem State.modCore_serial (s : State) (k : CoreIx) (f : Core → Core) : (s.modCore k f).serial = s.serial := rfl
@[simp] theorem State.modCore_freeCtr (s : State) (k : CoreIx) (f : Core → Core) : (s.modCore k f).freeCtr = s.freeCtr := rfl
@[simp] theorem State.modCore_out (s : State) (k : CoreIx) (f : Core → Core) : (s.modCore k f).out = s.out := rfl

/-! ### modMyCore -/

@[simp] theorem State.modMyCore_clusters (s : State) (f : Core → Core) : (s.modMyCore f).clusters = s.clusters := rfl
@[simp] theorem State.modMyCore_dies (s : State) (f : Core → Core) : (s.modMyCore f).dies = s.dies := rfl
@[simp] theorem State.modMyCore_links (s : State) (f : Core → Core) : (s.modMyCore f).links = s.links := rfl
@[simp] theorem State.modMyCore_hostMem (s : State) (f : Core → Core) : (s.modMyCore f).hostMem = s.hostMem := rfl
@[simp] theorem State.modMyCore_spanMem (s : State) (f : Core → Core) : (s.modMyCore f).spanMem = s.spanMem := rfl
@[simp] theorem State.modMyCore_flits (s : State) (f : Core → Core) : (s.modMyCore f).flits = s.flits := rfl
@[simp] theorem State.modMyCore_merges (s : State) (f : Core → Core) : (s.modMyCore f).merges = s.merges := rfl
@[simp] theorem State.modMyCore_focus (s : State) (f : Core → Core) : (s.modMyCore f).focus = s.focus := rfl
@[simp] theorem State.modMyCore_note (s : State) (f : Core → Core) : (s.modMyCore f).note = s.note := rfl
@[simp] theorem State.modMyCore_bundling (s : State) (f : Core → Core) : (s.modMyCore f).bundling = s.bundling := rfl
@[simp] theorem State.modMyCore_agenda (s : State) (f : Core → Core) : (s.modMyCore f).agenda = s.agenda := rfl
@[simp] theorem State.modMyCore_runq (s : State) (f : Core → Core) : (s.modMyCore f).runq = s.runq := rfl
@[simp] theorem State.modMyCore_engineTurn (s : State) (f : Core → Core) : (s.modMyCore f).engineTurn = s.engineTurn := rfl
@[simp] theorem State.modMyCore_serial (s : State) (f : Core → Core) : (s.modMyCore f).serial = s.serial := rfl
@[simp] theorem State.modMyCore_freeCtr (s : State) (f : Core → Core) : (s.modMyCore f).freeCtr = s.freeCtr := rfl
@[simp] theorem State.modMyCore_out (s : State) (f : Core → Core) : (s.modMyCore f).out = s.out := rfl

/-! ### setDie -/

@[simp] theorem State.setDie_clusters (s : State) (d : DieIx) (x : Die) : (s.setDie d x).clusters = s.clusters := rfl
@[simp] theorem State.setDie_cores (s : State) (d : DieIx) (x : Die) : (s.setDie d x).cores = s.cores := rfl
@[simp] theorem State.setDie_links (s : State) (d : DieIx) (x : Die) : (s.setDie d x).links = s.links := rfl
@[simp] theorem State.setDie_hostMem (s : State) (d : DieIx) (x : Die) : (s.setDie d x).hostMem = s.hostMem := rfl
@[simp] theorem State.setDie_spanMem (s : State) (d : DieIx) (x : Die) : (s.setDie d x).spanMem = s.spanMem := rfl
@[simp] theorem State.setDie_flits (s : State) (d : DieIx) (x : Die) : (s.setDie d x).flits = s.flits := rfl
@[simp] theorem State.setDie_merges (s : State) (d : DieIx) (x : Die) : (s.setDie d x).merges = s.merges := rfl
@[simp] theorem State.setDie_focus (s : State) (d : DieIx) (x : Die) : (s.setDie d x).focus = s.focus := rfl
@[simp] theorem State.setDie_note (s : State) (d : DieIx) (x : Die) : (s.setDie d x).note = s.note := rfl
@[simp] theorem State.setDie_bundling (s : State) (d : DieIx) (x : Die) : (s.setDie d x).bundling = s.bundling := rfl
@[simp] theorem State.setDie_agenda (s : State) (d : DieIx) (x : Die) : (s.setDie d x).agenda = s.agenda := rfl
@[simp] theorem State.setDie_runq (s : State) (d : DieIx) (x : Die) : (s.setDie d x).runq = s.runq := rfl
@[simp] theorem State.setDie_engineTurn (s : State) (d : DieIx) (x : Die) : (s.setDie d x).engineTurn = s.engineTurn := rfl
@[simp] theorem State.setDie_serial (s : State) (d : DieIx) (x : Die) : (s.setDie d x).serial = s.serial := rfl
@[simp] theorem State.setDie_freeCtr (s : State) (d : DieIx) (x : Die) : (s.setDie d x).freeCtr = s.freeCtr := rfl
@[simp] theorem State.setDie_out (s : State) (d : DieIx) (x : Die) : (s.setDie d x).out = s.out := rfl

/-! ### modDie -/

@[simp] theorem State.modDie_clusters (s : State) (d : DieIx) (f : Die → Die) : (s.modDie d f).clusters = s.clusters := rfl
@[simp] theorem State.modDie_cores (s : State) (d : DieIx) (f : Die → Die) : (s.modDie d f).cores = s.cores := rfl
@[simp] theorem State.modDie_links (s : State) (d : DieIx) (f : Die → Die) : (s.modDie d f).links = s.links := rfl
@[simp] theorem State.modDie_hostMem (s : State) (d : DieIx) (f : Die → Die) : (s.modDie d f).hostMem = s.hostMem := rfl
@[simp] theorem State.modDie_spanMem (s : State) (d : DieIx) (f : Die → Die) : (s.modDie d f).spanMem = s.spanMem := rfl
@[simp] theorem State.modDie_flits (s : State) (d : DieIx) (f : Die → Die) : (s.modDie d f).flits = s.flits := rfl
@[simp] theorem State.modDie_merges (s : State) (d : DieIx) (f : Die → Die) : (s.modDie d f).merges = s.merges := rfl
@[simp] theorem State.modDie_focus (s : State) (d : DieIx) (f : Die → Die) : (s.modDie d f).focus = s.focus := rfl
@[simp] theorem State.modDie_note (s : State) (d : DieIx) (f : Die → Die) : (s.modDie d f).note = s.note := rfl
@[simp] theorem State.modDie_bundling (s : State) (d : DieIx) (f : Die → Die) : (s.modDie d f).bundling = s.bundling := rfl
@[simp] theorem State.modDie_agenda (s : State) (d : DieIx) (f : Die → Die) : (s.modDie d f).agenda = s.agenda := rfl
@[simp] theorem State.modDie_runq (s : State) (d : DieIx) (f : Die → Die) : (s.modDie d f).runq = s.runq := rfl
@[simp] theorem State.modDie_engineTurn (s : State) (d : DieIx) (f : Die → Die) : (s.modDie d f).engineTurn = s.engineTurn := rfl
@[simp] theorem State.modDie_serial (s : State) (d : DieIx) (f : Die → Die) : (s.modDie d f).serial = s.serial := rfl
@[simp] theorem State.modDie_freeCtr (s : State) (d : DieIx) (f : Die → Die) : (s.modDie d f).freeCtr = s.freeCtr := rfl
@[simp] theorem State.modDie_out (s : State) (d : DieIx) (f : Die → Die) : (s.modDie d f).out = s.out := rfl

/-! ### modMyDie -/

@[simp] theorem State.modMyDie_clusters (s : State) (f : Die → Die) : (s.modMyDie f).clusters = s.clusters := rfl
@[simp] theorem State.modMyDie_cores (s : State) (f : Die → Die) : (s.modMyDie f).cores = s.cores := rfl
@[simp] theorem State.modMyDie_links (s : State) (f : Die → Die) : (s.modMyDie f).links = s.links := rfl
@[simp] theorem State.modMyDie_hostMem (s : State) (f : Die → Die) : (s.modMyDie f).hostMem = s.hostMem := rfl
@[simp] theorem State.modMyDie_spanMem (s : State) (f : Die → Die) : (s.modMyDie f).spanMem = s.spanMem := rfl
@[simp] theorem State.modMyDie_flits (s : State) (f : Die → Die) : (s.modMyDie f).flits = s.flits := rfl
@[simp] theorem State.modMyDie_merges (s : State) (f : Die → Die) : (s.modMyDie f).merges = s.merges := rfl
@[simp] theorem State.modMyDie_focus (s : State) (f : Die → Die) : (s.modMyDie f).focus = s.focus := rfl
@[simp] theorem State.modMyDie_note (s : State) (f : Die → Die) : (s.modMyDie f).note = s.note := rfl
@[simp] theorem State.modMyDie_bundling (s : State) (f : Die → Die) : (s.modMyDie f).bundling = s.bundling := rfl
@[simp] theorem State.modMyDie_agenda (s : State) (f : Die → Die) : (s.modMyDie f).agenda = s.agenda := rfl
@[simp] theorem State.modMyDie_runq (s : State) (f : Die → Die) : (s.modMyDie f).runq = s.runq := rfl
@[simp] theorem State.modMyDie_engineTurn (s : State) (f : Die → Die) : (s.modMyDie f).engineTurn = s.engineTurn := rfl
@[simp] theorem State.modMyDie_serial (s : State) (f : Die → Die) : (s.modMyDie f).serial = s.serial := rfl
@[simp] theorem State.modMyDie_freeCtr (s : State) (f : Die → Die) : (s.modMyDie f).freeCtr = s.freeCtr := rfl
@[simp] theorem State.modMyDie_out (s : State) (f : Die → Die) : (s.modMyDie f).out = s.out := rfl

/-! ### modLink -/

@[simp] theorem State.modLink_clusters (s : State) (l : LinkIx) (f : Link → Link) : (s.modLink l f).clusters = s.clusters := rfl
@[simp] theorem State.modLink_cores (s : State) (l : LinkIx) (f : Link → Link) : (s.modLink l f).cores = s.cores := rfl
@[simp] theorem State.modLink_dies (s : State) (l : LinkIx) (f : Link → Link) : (s.modLink l f).dies = s.dies := rfl
@[simp] theorem State.modLink_hostMem (s : State) (l : LinkIx) (f : Link → Link) : (s.modLink l f).hostMem = s.hostMem := rfl
@[simp] theorem State.modLink_spanMem (s : State) (l : LinkIx) (f : Link → Link) : (s.modLink l f).spanMem = s.spanMem := rfl
@[simp] theorem State.modLink_flits (s : State) (l : LinkIx) (f : Link → Link) : (s.modLink l f).flits = s.flits := rfl
@[simp] theorem State.modLink_merges (s : State) (l : LinkIx) (f : Link → Link) : (s.modLink l f).merges = s.merges := rfl
@[simp] theorem State.modLink_focus (s : State) (l : LinkIx) (f : Link → Link) : (s.modLink l f).focus = s.focus := rfl
@[simp] theorem State.modLink_note (s : State) (l : LinkIx) (f : Link → Link) : (s.modLink l f).note = s.note := rfl
@[simp] theorem State.modLink_bundling (s : State) (l : LinkIx) (f : Link → Link) : (s.modLink l f).bundling = s.bundling := rfl
@[simp] theorem State.modLink_agenda (s : State) (l : LinkIx) (f : Link → Link) : (s.modLink l f).agenda = s.agenda := rfl
@[simp] theorem State.modLink_runq (s : State) (l : LinkIx) (f : Link → Link) : (s.modLink l f).runq = s.runq := rfl
@[simp] theorem State.modLink_engineTurn (s : State) (l : LinkIx) (f : Link → Link) : (s.modLink l f).engineTurn = s.engineTurn := rfl
@[simp] theorem State.modLink_serial (s : State) (l : LinkIx) (f : Link → Link) : (s.modLink l f).serial = s.serial := rfl
@[simp] theorem State.modLink_freeCtr (s : State) (l : LinkIx) (f : Link → Link) : (s.modLink l f).freeCtr = s.freeCtr := rfl
@[simp] theorem State.modLink_out (s : State) (l : LinkIx) (f : Link → Link) : (s.modLink l f).out = s.out := rfl

/-! ### setG -/

@[simp] theorem State.setG_cores (s : State) (r : Reg) (v : Word) : (s.setG r v).cores = s.cores := rfl
@[simp] theorem State.setG_dies (s : State) (r : Reg) (v : Word) : (s.setG r v).dies = s.dies := rfl
@[simp] theorem State.setG_links (s : State) (r : Reg) (v : Word) : (s.setG r v).links = s.links := rfl
@[simp] theorem State.setG_hostMem (s : State) (r : Reg) (v : Word) : (s.setG r v).hostMem = s.hostMem := rfl
@[simp] theorem State.setG_spanMem (s : State) (r : Reg) (v : Word) : (s.setG r v).spanMem = s.spanMem := rfl
@[simp] theorem State.setG_flits (s : State) (r : Reg) (v : Word) : (s.setG r v).flits = s.flits := rfl
@[simp] theorem State.setG_merges (s : State) (r : Reg) (v : Word) : (s.setG r v).merges = s.merges := rfl
@[simp] theorem State.setG_focus (s : State) (r : Reg) (v : Word) : (s.setG r v).focus = s.focus := rfl
@[simp] theorem State.setG_note (s : State) (r : Reg) (v : Word) : (s.setG r v).note = s.note := rfl
@[simp] theorem State.setG_bundling (s : State) (r : Reg) (v : Word) : (s.setG r v).bundling = s.bundling := rfl
@[simp] theorem State.setG_agenda (s : State) (r : Reg) (v : Word) : (s.setG r v).agenda = s.agenda := rfl
@[simp] theorem State.setG_runq (s : State) (r : Reg) (v : Word) : (s.setG r v).runq = s.runq := rfl
@[simp] theorem State.setG_engineTurn (s : State) (r : Reg) (v : Word) : (s.setG r v).engineTurn = s.engineTurn := rfl
@[simp] theorem State.setG_serial (s : State) (r : Reg) (v : Word) : (s.setG r v).serial = s.serial := rfl
@[simp] theorem State.setG_freeCtr (s : State) (r : Reg) (v : Word) : (s.setG r v).freeCtr = s.freeCtr := rfl
@[simp] theorem State.setG_out (s : State) (r : Reg) (v : Word) : (s.setG r v).out = s.out := rfl

/-! ### tick -/

@[simp] theorem State.tick_clusters (s : State) : (s.tick).clusters = s.clusters := rfl
@[simp] theorem State.tick_cores (s : State) : (s.tick).cores = s.cores := rfl
@[simp] theorem State.tick_dies (s : State) : (s.tick).dies = s.dies := rfl
@[simp] theorem State.tick_links (s : State) : (s.tick).links = s.links := rfl
@[simp] theorem State.tick_hostMem (s : State) : (s.tick).hostMem = s.hostMem := rfl
@[simp] theorem State.tick_spanMem (s : State) : (s.tick).spanMem = s.spanMem := rfl
@[simp] theorem State.tick_flits (s : State) : (s.tick).flits = s.flits := rfl
@[simp] theorem State.tick_merges (s : State) : (s.tick).merges = s.merges := rfl
@[simp] theorem State.tick_focus (s : State) : (s.tick).focus = s.focus := rfl
@[simp] theorem State.tick_note (s : State) : (s.tick).note = s.note := rfl
@[simp] theorem State.tick_bundling (s : State) : (s.tick).bundling = s.bundling := rfl
@[simp] theorem State.tick_agenda (s : State) : (s.tick).agenda = s.agenda := rfl
@[simp] theorem State.tick_runq (s : State) : (s.tick).runq = s.runq := rfl
@[simp] theorem State.tick_engineTurn (s : State) : (s.tick).engineTurn = s.engineTurn := rfl
@[simp] theorem State.tick_freeCtr (s : State) : (s.tick).freeCtr = s.freeCtr := rfl
@[simp] theorem State.tick_out (s : State) : (s.tick).out = s.out := rfl

/-! ### advance, jump, stall, beginWait, finish -/

@[simp] theorem State.advance_cores (s : State) : (s.advance).cores = s.cores := rfl
@[simp] theorem State.advance_dies (s : State) : (s.advance).dies = s.dies := rfl
@[simp] theorem State.advance_links (s : State) : (s.advance).links = s.links := rfl
@[simp] theorem State.advance_hostMem (s : State) : (s.advance).hostMem = s.hostMem := rfl
@[simp] theorem State.advance_spanMem (s : State) : (s.advance).spanMem = s.spanMem := rfl
@[simp] theorem State.advance_flits (s : State) : (s.advance).flits = s.flits := rfl
@[simp] theorem State.advance_merges (s : State) : (s.advance).merges = s.merges := rfl
@[simp] theorem State.advance_focus (s : State) : (s.advance).focus = s.focus := rfl
@[simp] theorem State.advance_bundling (s : State) : (s.advance).bundling = s.bundling := rfl
@[simp] theorem State.advance_agenda (s : State) : (s.advance).agenda = s.agenda := rfl
@[simp] theorem State.advance_runq (s : State) : (s.advance).runq = s.runq := rfl
@[simp] theorem State.advance_engineTurn (s : State) : (s.advance).engineTurn = s.engineTurn := rfl
@[simp] theorem State.advance_serial (s : State) : (s.advance).serial = s.serial := rfl
@[simp] theorem State.advance_freeCtr (s : State) : (s.advance).freeCtr = s.freeCtr := rfl
@[simp] theorem State.advance_out (s : State) : (s.advance).out = s.out := rfl
@[simp] theorem State.advance_note (s : State) : (s.advance).note = .done := rfl

@[simp] theorem State.jump_cores (s : State) (pc : PC) : (s.jump pc).cores = s.cores := rfl
@[simp] theorem State.jump_dies (s : State) (pc : PC) : (s.jump pc).dies = s.dies := rfl
@[simp] theorem State.jump_links (s : State) (pc : PC) : (s.jump pc).links = s.links := rfl
@[simp] theorem State.jump_hostMem (s : State) (pc : PC) : (s.jump pc).hostMem = s.hostMem := rfl
@[simp] theorem State.jump_spanMem (s : State) (pc : PC) : (s.jump pc).spanMem = s.spanMem := rfl
@[simp] theorem State.jump_flits (s : State) (pc : PC) : (s.jump pc).flits = s.flits := rfl
@[simp] theorem State.jump_merges (s : State) (pc : PC) : (s.jump pc).merges = s.merges := rfl
@[simp] theorem State.jump_focus (s : State) (pc : PC) : (s.jump pc).focus = s.focus := rfl
@[simp] theorem State.jump_bundling (s : State) (pc : PC) : (s.jump pc).bundling = s.bundling := rfl
@[simp] theorem State.jump_agenda (s : State) (pc : PC) : (s.jump pc).agenda = s.agenda := rfl
@[simp] theorem State.jump_runq (s : State) (pc : PC) : (s.jump pc).runq = s.runq := rfl
@[simp] theorem State.jump_engineTurn (s : State) (pc : PC) : (s.jump pc).engineTurn = s.engineTurn := rfl
@[simp] theorem State.jump_serial (s : State) (pc : PC) : (s.jump pc).serial = s.serial := rfl
@[simp] theorem State.jump_freeCtr (s : State) (pc : PC) : (s.jump pc).freeCtr = s.freeCtr := rfl
@[simp] theorem State.jump_out (s : State) (pc : PC) : (s.jump pc).out = s.out := rfl
@[simp] theorem State.jump_note (s : State) (pc : PC) : (s.jump pc).note = .done := rfl

@[simp] theorem State.stall_cores (s : State) : (s.stall).cores = s.cores := rfl
@[simp] theorem State.stall_dies (s : State) : (s.stall).dies = s.dies := rfl
@[simp] theorem State.stall_links (s : State) : (s.stall).links = s.links := rfl
@[simp] theorem State.stall_hostMem (s : State) : (s.stall).hostMem = s.hostMem := rfl
@[simp] theorem State.stall_spanMem (s : State) : (s.stall).spanMem = s.spanMem := rfl
@[simp] theorem State.stall_flits (s : State) : (s.stall).flits = s.flits := rfl
@[simp] theorem State.stall_merges (s : State) : (s.stall).merges = s.merges := rfl
@[simp] theorem State.stall_focus (s : State) : (s.stall).focus = s.focus := rfl
@[simp] theorem State.stall_bundling (s : State) : (s.stall).bundling = s.bundling := rfl
@[simp] theorem State.stall_agenda (s : State) : (s.stall).agenda = s.agenda := rfl
@[simp] theorem State.stall_runq (s : State) : (s.stall).runq = s.runq := rfl
@[simp] theorem State.stall_engineTurn (s : State) : (s.stall).engineTurn = s.engineTurn := rfl
@[simp] theorem State.stall_serial (s : State) : (s.stall).serial = s.serial := rfl
@[simp] theorem State.stall_freeCtr (s : State) : (s.stall).freeCtr = s.freeCtr := rfl
@[simp] theorem State.stall_out (s : State) : (s.stall).out = s.out := rfl
@[simp] theorem State.stall_note (s : State) : (s.stall).note = .waited := rfl

@[simp] theorem State.beginWait_cores (s : State) : (s.beginWait).cores = s.cores := rfl
@[simp] theorem State.beginWait_dies (s : State) : (s.beginWait).dies = s.dies := rfl
@[simp] theorem State.beginWait_links (s : State) : (s.beginWait).links = s.links := rfl
@[simp] theorem State.beginWait_hostMem (s : State) : (s.beginWait).hostMem = s.hostMem := rfl
@[simp] theorem State.beginWait_spanMem (s : State) : (s.beginWait).spanMem = s.spanMem := rfl
@[simp] theorem State.beginWait_flits (s : State) : (s.beginWait).flits = s.flits := rfl
@[simp] theorem State.beginWait_merges (s : State) : (s.beginWait).merges = s.merges := rfl
@[simp] theorem State.beginWait_focus (s : State) : (s.beginWait).focus = s.focus := rfl
@[simp] theorem State.beginWait_bundling (s : State) : (s.beginWait).bundling = s.bundling := rfl
@[simp] theorem State.beginWait_agenda (s : State) : (s.beginWait).agenda = s.agenda := rfl
@[simp] theorem State.beginWait_runq (s : State) : (s.beginWait).runq = s.runq := rfl
@[simp] theorem State.beginWait_engineTurn (s : State) : (s.beginWait).engineTurn = s.engineTurn := rfl
@[simp] theorem State.beginWait_serial (s : State) : (s.beginWait).serial = s.serial := rfl
@[simp] theorem State.beginWait_freeCtr (s : State) : (s.beginWait).freeCtr = s.freeCtr := rfl
@[simp] theorem State.beginWait_out (s : State) : (s.beginWait).out = s.out := rfl
@[simp] theorem State.beginWait_note (s : State) : (s.beginWait).note = .done := rfl

@[simp] theorem State.finish_cores (s : State) (d : Reg) (v : Word) : (s.finish d v).cores = s.cores := rfl
@[simp] theorem State.finish_dies (s : State) (d : Reg) (v : Word) : (s.finish d v).dies = s.dies := rfl
@[simp] theorem State.finish_links (s : State) (d : Reg) (v : Word) : (s.finish d v).links = s.links := rfl
@[simp] theorem State.finish_hostMem (s : State) (d : Reg) (v : Word) : (s.finish d v).hostMem = s.hostMem := rfl
@[simp] theorem State.finish_spanMem (s : State) (d : Reg) (v : Word) : (s.finish d v).spanMem = s.spanMem := rfl
@[simp] theorem State.finish_flits (s : State) (d : Reg) (v : Word) : (s.finish d v).flits = s.flits := rfl
@[simp] theorem State.finish_merges (s : State) (d : Reg) (v : Word) : (s.finish d v).merges = s.merges := rfl
@[simp] theorem State.finish_focus (s : State) (d : Reg) (v : Word) : (s.finish d v).focus = s.focus := rfl
@[simp] theorem State.finish_bundling (s : State) (d : Reg) (v : Word) : (s.finish d v).bundling = s.bundling := rfl
@[simp] theorem State.finish_agenda (s : State) (d : Reg) (v : Word) : (s.finish d v).agenda = s.agenda := rfl
@[simp] theorem State.finish_runq (s : State) (d : Reg) (v : Word) : (s.finish d v).runq = s.runq := rfl
@[simp] theorem State.finish_engineTurn (s : State) (d : Reg) (v : Word) : (s.finish d v).engineTurn = s.engineTurn := rfl
@[simp] theorem State.finish_serial (s : State) (d : Reg) (v : Word) : (s.finish d v).serial = s.serial := rfl
@[simp] theorem State.finish_freeCtr (s : State) (d : Reg) (v : Word) : (s.finish d v).freeCtr = s.freeCtr := rfl
@[simp] theorem State.finish_out (s : State) (d : Reg) (v : Word) : (s.finish d v).out = s.out := rfl
@[simp] theorem State.finish_note (s : State) (d : Reg) (v : Word) : (s.finish d v).note = .done := rfl

/-! ### An agent read after a write -/

@[simp] theorem State.cluster_setCluster (s : State) (c : CluIx) (x : Cluster) : (s.setCluster c x).cluster c = x := by
  simp [State.cluster, State.setCluster, Vector.get_eq_getElem]

theorem State.cluster_setCluster_ne (s : State) {c e : CluIx} (x : Cluster) (h : e ≠ c) :
    (s.setCluster c x).cluster e = s.cluster e := by
  have : c.val ≠ e.val := fun q => h (Fin.ext q.symm)
  simp [State.cluster, State.setCluster, Vector.get_eq_getElem, this]

@[simp] theorem State.core_setCore (s : State) (k : CoreIx) (x : Core) : (s.setCore k x).core k = x := by
  simp [State.core, State.setCore, Vector.get_eq_getElem]

theorem State.core_setCore_ne (s : State) {k j : CoreIx} (x : Core) (h : j ≠ k) : (s.setCore k x).core j = s.core j := by
  have : k.val ≠ j.val := fun q => h (Fin.ext q.symm)
  simp [State.core, State.setCore, Vector.get_eq_getElem, this]

@[simp] theorem State.die_setDie (s : State) (d : DieIx) (x : Die) : (s.setDie d x).die d = x := by
  simp [State.die, State.setDie, Vector.get_eq_getElem]

theorem State.die_setDie_ne (s : State) {d e : DieIx} (x : Die) (h : e ≠ d) : (s.setDie d x).die e = s.die e := by
  have : d.val ≠ e.val := fun q => h (Fin.ext q.symm)
  simp [State.die, State.setDie, Vector.get_eq_getElem, this]

@[simp] theorem State.link_modLink (s : State) (l : LinkIx) (f : Link → Link) : (s.modLink l f).link l = f (s.link l) := by
  simp [State.link, State.modLink, Vector.get_eq_getElem]

theorem State.link_modLink_ne (s : State) {l m : LinkIx} (f : Link → Link) (h : m ≠ l) : (s.modLink l f).link m = s.link m := by
  have : l.val ≠ m.val := fun q => h (Fin.ext q.symm)
  simp [State.link, State.modLink, Vector.get_eq_getElem, this]

@[simp] theorem State.cluster_modCluster (s : State) (c : CluIx) (f : Cluster → Cluster) :
    (s.modCluster c f).cluster c = f (s.cluster c) := by simp [State.modCluster]

theorem State.cluster_modCluster_ne (s : State) {c e : CluIx} (f : Cluster → Cluster) (h : e ≠ c) :
    (s.modCluster c f).cluster e = s.cluster e := s.cluster_setCluster_ne _ h

@[simp] theorem State.core_modCore (s : State) (k : CoreIx) (f : Core → Core) : (s.modCore k f).core k = f (s.core k) := by
  simp [State.modCore]

theorem State.core_modCore_ne (s : State) {k j : CoreIx} (f : Core → Core) (h : j ≠ k) : (s.modCore k f).core j = s.core j :=
  s.core_setCore_ne _ h

@[simp] theorem State.die_modDie (s : State) (d : DieIx) (f : Die → Die) : (s.modDie d f).die d = f (s.die d) := by
  simp [State.modDie]

theorem State.die_modDie_ne (s : State) {d e : DieIx} (f : Die → Die) (h : e ≠ d) : (s.modDie d f).die e = s.die e :=
  s.die_setDie_ne _ h

@[simp] theorem State.cluster_setCore (s : State) (k : CoreIx) (x : Core) (c : CluIx) : (s.setCore k x).cluster c = s.cluster c := rfl
@[simp] theorem State.cluster_modCore (s : State) (k : CoreIx) (f : Core → Core) (c : CluIx) :
    (s.modCore k f).cluster c = s.cluster c := rfl
@[simp] theorem State.cluster_setDie (s : State) (d : DieIx) (x : Die) (c : CluIx) : (s.setDie d x).cluster c = s.cluster c := rfl
@[simp] theorem State.cluster_modDie (s : State) (d : DieIx) (f : Die → Die) (c : CluIx) : (s.modDie d f).cluster c = s.cluster c := rfl
@[simp] theorem State.cluster_modLink (s : State) (l : LinkIx) (f : Link → Link) (c : CluIx) :
    (s.modLink l f).cluster c = s.cluster c := rfl
@[simp] theorem State.core_setCluster (s : State) (c : CluIx) (x : Cluster) (k : CoreIx) : (s.setCluster c x).core k = s.core k := rfl
@[simp] theorem State.core_modCluster (s : State) (c : CluIx) (f : Cluster → Cluster) (k : CoreIx) :
    (s.modCluster c f).core k = s.core k := rfl
@[simp] theorem State.core_setDie (s : State) (d : DieIx) (x : Die) (k : CoreIx) : (s.setDie d x).core k = s.core k := rfl
@[simp] theorem State.core_modDie (s : State) (d : DieIx) (f : Die → Die) (k : CoreIx) : (s.modDie d f).core k = s.core k := rfl
@[simp] theorem State.core_modLink (s : State) (l : LinkIx) (f : Link → Link) (k : CoreIx) : (s.modLink l f).core k = s.core k := rfl
@[simp] theorem State.die_setCluster (s : State) (c : CluIx) (x : Cluster) (d : DieIx) : (s.setCluster c x).die d = s.die d := rfl
@[simp] theorem State.die_modCluster (s : State) (c : CluIx) (f : Cluster → Cluster) (d : DieIx) : (s.modCluster c f).die d = s.die d := rfl
@[simp] theorem State.die_setCore (s : State) (k : CoreIx) (x : Core) (d : DieIx) : (s.setCore k x).die d = s.die d := rfl
@[simp] theorem State.die_modCore (s : State) (k : CoreIx) (f : Core → Core) (d : DieIx) : (s.modCore k f).die d = s.die d := rfl
@[simp] theorem State.die_modLink (s : State) (l : LinkIx) (f : Link → Link) (d : DieIx) : (s.modLink l f).die d = s.die d := rfl
@[simp] theorem State.link_modCluster (s : State) (c : CluIx) (f : Cluster → Cluster) (l : LinkIx) :
    (s.modCluster c f).link l = s.link l := rfl
@[simp] theorem State.link_modCore (s : State) (k : CoreIx) (f : Core → Core) (l : LinkIx) : (s.modCore k f).link l = s.link l := rfl
@[simp] theorem State.link_modDie (s : State) (d : DieIx) (f : Die → Die) (l : LinkIx) : (s.modDie d f).link l = s.link l := rfl

/-! ### The cluster in focus -/

@[simp] theorem State.me_modMe (s : State) (f : Cluster → Cluster) : (s.modMe f).me = f s.me := s.cluster_modCluster _ _
@[simp] theorem State.me_setG (s : State) (r : Reg) (v : Word) : (s.setG r v).me = s.me.setG r v := s.me_modMe _
@[simp] theorem State.me_modCore (s : State) (k : CoreIx) (f : Core → Core) : (s.modCore k f).me = s.me := rfl
@[simp] theorem State.me_modMyCore (s : State) (f : Core → Core) : (s.modMyCore f).me = s.me := rfl
@[simp] theorem State.me_modDie (s : State) (d : DieIx) (f : Die → Die) : (s.modDie d f).me = s.me := rfl
@[simp] theorem State.me_tick (s : State) : s.tick.me = s.me := rfl
@[simp] theorem State.me_advance (s : State) : s.advance.me = s.me.advance := s.me_modMe _
@[simp] theorem State.me_jump (s : State) (pc : PC) : (s.jump pc).me = s.me.jump pc := s.me_modMe fun c => c.jump pc
@[simp] theorem State.me_finish (s : State) (d : Reg) (v : Word) : (s.finish d v).me = (s.me.setG d v).advance := by
  simp [State.finish]

/-! ### Registers (R36, R326) -/

@[simp] theorem Cluster.g_zero (c : Cluster) : c.g 0 = 0 := rfl

theorem Cluster.g_setG (c : Cluster) (d : Reg) (v : Word) (h : d ≠ 0) : (c.setG d v).g d = v := by
  unfold Cluster.setG Cluster.g
  rw [if_neg h, if_neg h]
  cases hm : c.mode <;> simp [Vector.get_eq_getElem]

theorem Cluster.g_setG_ne (c : Cluster) {d r : Reg} (v : Word) (h : r ≠ d) : (c.setG d v).g r = c.g r := by
  have hf : d.toFin.val ≠ r.toFin.val := fun q => h (BitVec.eq_of_toNat_eq q.symm)
  unfold Cluster.setG
  by_cases hd : d = 0
  · rw [if_pos hd]
  · rw [if_neg hd]
    unfold Cluster.g
    by_cases hr : r = 0
    · rw [if_pos hr, if_pos hr]
    · rw [if_neg hr, if_neg hr]
      cases hm : c.mode <;> simp only [Vector.get_eq_getElem, Vector.getElem_set, if_neg hf]

@[simp] theorem Cluster.setG_mode (c : Cluster) (d : Reg) (v : Word) : (c.setG d v).mode = c.mode := by
  unfold Cluster.setG; split <;> [rfl; (split <;> simp_all)]

@[simp] theorem Cluster.setG_pc (c : Cluster) (d : Reg) (v : Word) : (c.setG d v).pc = c.pc := by
  unfold Cluster.setG; split <;> [rfl; (split <;> rfl)]
@[simp] theorem Cluster.setG_solo (c : Cluster) (d : Reg) (v : Word) : (c.setG d v).solo = c.solo := by
  unfold Cluster.setG; split <;> [rfl; (split <;> rfl)]
@[simp] theorem Cluster.setG_pmode (c : Cluster) (d : Reg) (v : Word) : (c.setG d v).pmode = c.pmode := by
  unfold Cluster.setG; split <;> [rfl; (split <;> rfl)]
@[simp] theorem Cluster.setG_pworld (c : Cluster) (d : Reg) (v : Word) : (c.setG d v).pworld = c.pworld := by
  unfold Cluster.setG; split <;> [rfl; (split <;> rfl)]
@[simp] theorem Cluster.setG_tcause (c : Cluster) (d : Reg) (v : Word) : (c.setG d v).tcause = c.tcause := by
  unfold Cluster.setG; split <;> [rfl; (split <;> rfl)]
@[simp] theorem Cluster.setG_tepc (c : Cluster) (d : Reg) (v : Word) : (c.setG d v).tepc = c.tepc := by
  unfold Cluster.setG; split <;> [rfl; (split <;> rfl)]
@[simp] theorem Cluster.setG_tval (c : Cluster) (d : Reg) (v : Word) : (c.setG d v).tval = c.tval := by
  unfold Cluster.setG; split <;> [rfl; (split <;> rfl)]
@[simp] theorem Cluster.setG_thvec (c : Cluster) (d : Reg) (v : Word) : (c.setG d v).thvec = c.thvec := by
  unfold Cluster.setG; split <;> [rfl; (split <;> rfl)]
@[simp] theorem Cluster.setG_fpflg (c : Cluster) (d : Reg) (v : Word) : (c.setG d v).fpflg = c.fpflg := by
  unfold Cluster.setG; split <;> [rfl; (split <;> rfl)]
@[simp] theorem Cluster.setG_fpxen (c : Cluster) (d : Reg) (v : Word) : (c.setG d v).fpxen = c.fpxen := by
  unfold Cluster.setG; split <;> [rfl; (split <;> rfl)]
@[simp] theorem Cluster.setG_loops (c : Cluster) (d : Reg) (v : Word) : (c.setG d v).loops = c.loops := by
  unfold Cluster.setG; split <;> [rfl; (split <;> rfl)]
@[simp] theorem Cluster.setG_vlca (c : Cluster) (d : Reg) (v : Word) : (c.setG d v).vlca = c.vlca := by
  unfold Cluster.setG; split <;> [rfl; (split <;> rfl)]
@[simp] theorem Cluster.setG_vlcb (c : Cluster) (d : Reg) (v : Word) : (c.setG d v).vlcb = c.vlcb := by
  unfold Cluster.setG; split <;> [rfl; (split <;> rfl)]
@[simp] theorem Cluster.setG_record (c : Cluster) (d : Reg) (v : Word) : (c.setG d v).record = c.record := by
  unfold Cluster.setG; split <;> [rfl; (split <;> rfl)]
@[simp] theorem Cluster.setG_begun (c : Cluster) (d : Reg) (v : Word) : (c.setG d v).begun = c.begun := by
  unfold Cluster.setG; split <;> [rfl; (split <;> rfl)]
@[simp] theorem Cluster.setG_taken (c : Cluster) (d : Reg) (v : Word) : (c.setG d v).taken = c.taken := by
  unfold Cluster.setG; split <;> [rfl; (split <;> rfl)]
@[simp] theorem Cluster.setG_waiting (c : Cluster) (d : Reg) (v : Word) : (c.setG d v).waiting = c.waiting := by
  unfold Cluster.setG; split <;> [rfl; (split <;> rfl)]
@[simp] theorem Cluster.setG_since (c : Cluster) (d : Reg) (v : Word) : (c.setG d v).since = c.since := by
  unfold Cluster.setG; split <;> [rfl; (split <;> rfl)]
@[simp] theorem Cluster.setG_syncWait (c : Cluster) (d : Reg) (v : Word) : (c.setG d v).syncWait = c.syncWait := by
  unfold Cluster.setG; split <;> [rfl; (split <;> rfl)]
@[simp] theorem Cluster.setG_syncAge (c : Cluster) (d : Reg) (v : Word) : (c.setG d v).syncAge = c.syncAge := by
  unfold Cluster.setG; split <;> [rfl; (split <;> rfl)]
@[simp] theorem Cluster.setG_stopped (c : Cluster) (d : Reg) (v : Word) : (c.setG d v).stopped = c.stopped := by
  unfold Cluster.setG; split <;> [rfl; (split <;> rfl)]
@[simp] theorem Cluster.setG_held (c : Cluster) (d : Reg) (v : Word) : (c.setG d v).held = c.held := by
  unfold Cluster.setG; split <;> [rfl; (split <;> rfl)]
@[simp] theorem Cluster.setG_saver (c : Cluster) (d : Reg) (v : Word) : (c.setG d v).saver = c.saver := by
  unfold Cluster.setG; split <;> [rfl; (split <;> rfl)]
@[simp] theorem Cluster.setG_pend (c : Cluster) (d : Reg) (v : Word) : (c.setG d v).pend = c.pend := by
  unfold Cluster.setG; split <;> [rfl; (split <;> rfl)]
@[simp] theorem Cluster.setG_step (c : Cluster) (d : Reg) (v : Word) : (c.setG d v).step = c.step := by
  unfold Cluster.setG; split <;> [rfl; (split <;> rfl)]
@[simp] theorem Cluster.setG_fences (c : Cluster) (d : Reg) (v : Word) : (c.setG d v).fences = c.fences := by
  unfold Cluster.setG; split <;> [rfl; (split <;> rfl)]
@[simp] theorem Cluster.setG_barv (c : Cluster) (d : Reg) (v : Word) : (c.setG d v).barv = c.barv := by
  unfold Cluster.setG; split <;> [rfl; (split <;> rfl)]
@[simp] theorem Cluster.setG_hbarv (c : Cluster) (d : Reg) (v : Word) : (c.setG d v).hbarv = c.hbarv := by
  unfold Cluster.setG; split <;> [rfl; (split <;> rfl)]
@[simp] theorem Cluster.setG_idle (c : Cluster) (d : Reg) (v : Word) : (c.setG d v).idle = c.idle := by
  unfold Cluster.setG; split <;> [rfl; (split <;> rfl)]
@[simp] theorem Cluster.setG_wstag (c : Cluster) (d : Reg) (v : Word) : (c.setG d v).wstag = c.wstag := by
  unfold Cluster.setG; split <;> [rfl; (split <;> rfl)]
@[simp] theorem Cluster.setG_remote (c : Cluster) (d : Reg) (v : Word) : (c.setG d v).remote = c.remote := by
  unfold Cluster.setG; split <;> [rfl; (split <;> rfl)]
@[simp] theorem Cluster.setG_atag (c : Cluster) (d : Reg) (v : Word) : (c.setG d v).atag = c.atag := by
  unfold Cluster.setG; split <;> [rfl; (split <;> rfl)]
@[simp] theorem Cluster.setG_retag (c : Cluster) (d : Reg) (v : Word) : (c.setG d v).retag = c.retag := by
  unfold Cluster.setG; split <;> [rfl; (split <;> rfl)]
@[simp] theorem Cluster.setG_replays (c : Cluster) (d : Reg) (v : Word) : (c.setG d v).replays = c.replays := by
  unfold Cluster.setG; split <;> [rfl; (split <;> rfl)]
@[simp] theorem Cluster.setG_stale (c : Cluster) (d : Reg) (v : Word) : (c.setG d v).stale = c.stale := by
  unfold Cluster.setG; split <;> [rfl; (split <;> rfl)]
@[simp] theorem Cluster.setG_dual (c : Cluster) (d : Reg) (v : Word) : (c.setG d v).dual = c.dual := by
  unfold Cluster.setG; split <;> [rfl; (split <;> rfl)]
@[simp] theorem Cluster.setG_beatWait (c : Cluster) (d : Reg) (v : Word) : (c.setG d v).beatWait = c.beatWait := by
  unfold Cluster.setG; split <;> [rfl; (split <;> rfl)]
@[simp] theorem Cluster.setG_ckWait (c : Cluster) (d : Reg) (v : Word) : (c.setG d v).ckWait = c.ckWait := by
  unfold Cluster.setG; split <;> [rfl; (split <;> rfl)]

/-! ### What completing a word leaves alone -/

@[simp] theorem Cluster.settle_regs (c : Cluster) : c.settle.regs = c.regs := by
  cases hm : c.mode <;> cases hs : c.step <;> simp [Cluster.settle, Cluster.addPend, hm, hs]
@[simp] theorem Cluster.settle_bank (c : Cluster) : c.settle.bank = c.bank := by
  cases hm : c.mode <;> cases hs : c.step <;> simp [Cluster.settle, Cluster.addPend, hm, hs]
@[simp] theorem Cluster.settle_mode (c : Cluster) : c.settle.mode = c.mode := by
  cases hm : c.mode <;> cases hs : c.step <;> simp [Cluster.settle, Cluster.addPend, hm, hs]
@[simp] theorem Cluster.settle_pmode (c : Cluster) : c.settle.pmode = c.pmode := by
  cases hm : c.mode <;> cases hs : c.step <;> simp [Cluster.settle, Cluster.addPend, hm, hs]
@[simp] theorem Cluster.settle_pworld (c : Cluster) : c.settle.pworld = c.pworld := by
  cases hm : c.mode <;> cases hs : c.step <;> simp [Cluster.settle, Cluster.addPend, hm, hs]
@[simp] theorem Cluster.settle_tcause (c : Cluster) : c.settle.tcause = c.tcause := by
  cases hm : c.mode <;> cases hs : c.step <;> simp [Cluster.settle, Cluster.addPend, hm, hs]
@[simp] theorem Cluster.settle_tepc (c : Cluster) : c.settle.tepc = c.tepc := by
  cases hm : c.mode <;> cases hs : c.step <;> simp [Cluster.settle, Cluster.addPend, hm, hs]
@[simp] theorem Cluster.settle_tval (c : Cluster) : c.settle.tval = c.tval := by
  cases hm : c.mode <;> cases hs : c.step <;> simp [Cluster.settle, Cluster.addPend, hm, hs]
@[simp] theorem Cluster.settle_thvec (c : Cluster) : c.settle.thvec = c.thvec := by
  cases hm : c.mode <;> cases hs : c.step <;> simp [Cluster.settle, Cluster.addPend, hm, hs]
@[simp] theorem Cluster.settle_fpflg (c : Cluster) : c.settle.fpflg = c.fpflg := by
  cases hm : c.mode <;> cases hs : c.step <;> simp [Cluster.settle, Cluster.addPend, hm, hs]
@[simp] theorem Cluster.settle_fpxen (c : Cluster) : c.settle.fpxen = c.fpxen := by
  cases hm : c.mode <;> cases hs : c.step <;> simp [Cluster.settle, Cluster.addPend, hm, hs]
@[simp] theorem Cluster.settle_loops (c : Cluster) : c.settle.loops = c.loops := by
  cases hm : c.mode <;> cases hs : c.step <;> simp [Cluster.settle, Cluster.addPend, hm, hs]
@[simp] theorem Cluster.settle_vlca (c : Cluster) : c.settle.vlca = c.vlca := by
  cases hm : c.mode <;> cases hs : c.step <;> simp [Cluster.settle, Cluster.addPend, hm, hs]
@[simp] theorem Cluster.settle_vlcb (c : Cluster) : c.settle.vlcb = c.vlcb := by
  cases hm : c.mode <;> cases hs : c.step <;> simp [Cluster.settle, Cluster.addPend, hm, hs]
@[simp] theorem Cluster.settle_record (c : Cluster) : c.settle.record = c.record := by
  cases hm : c.mode <;> cases hs : c.step <;> simp [Cluster.settle, Cluster.addPend, hm, hs]
@[simp] theorem Cluster.settle_begun (c : Cluster) : c.settle.begun = c.begun := by
  cases hm : c.mode <;> cases hs : c.step <;> simp [Cluster.settle, Cluster.addPend, hm, hs]
@[simp] theorem Cluster.settle_taken (c : Cluster) : c.settle.taken = c.taken := by
  cases hm : c.mode <;> cases hs : c.step <;> simp [Cluster.settle, Cluster.addPend, hm, hs]
@[simp] theorem Cluster.settle_stopped (c : Cluster) : c.settle.stopped = c.stopped := by
  cases hm : c.mode <;> cases hs : c.step <;> simp [Cluster.settle, Cluster.addPend, hm, hs]
@[simp] theorem Cluster.settle_held (c : Cluster) : c.settle.held = c.held := by
  cases hm : c.mode <;> cases hs : c.step <;> simp [Cluster.settle, Cluster.addPend, hm, hs]
@[simp] theorem Cluster.settle_saver (c : Cluster) : c.settle.saver = c.saver := by
  cases hm : c.mode <;> cases hs : c.step <;> simp [Cluster.settle, Cluster.addPend, hm, hs]
@[simp] theorem Cluster.settle_wstag (c : Cluster) : c.settle.wstag = c.wstag := by
  cases hm : c.mode <;> cases hs : c.step <;> simp [Cluster.settle, Cluster.addPend, hm, hs]
@[simp] theorem Cluster.settle_remote (c : Cluster) : c.settle.remote = c.remote := by
  cases hm : c.mode <;> cases hs : c.step <;> simp [Cluster.settle, Cluster.addPend, hm, hs]
@[simp] theorem Cluster.settle_atag (c : Cluster) : c.settle.atag = c.atag := by
  cases hm : c.mode <;> cases hs : c.step <;> simp [Cluster.settle, Cluster.addPend, hm, hs]
@[simp] theorem Cluster.settle_stale (c : Cluster) : c.settle.stale = c.stale := by
  cases hm : c.mode <;> cases hs : c.step <;> simp [Cluster.settle, Cluster.addPend, hm, hs]
@[simp] theorem Cluster.settle_dual (c : Cluster) : c.settle.dual = c.dual := by
  cases hm : c.mode <;> cases hs : c.step <;> simp [Cluster.settle, Cluster.addPend, hm, hs]
@[simp] theorem Cluster.settle_beatWait (c : Cluster) : c.settle.beatWait = c.beatWait := by
  cases hm : c.mode <;> cases hs : c.step <;> simp [Cluster.settle, Cluster.addPend, hm, hs]
@[simp] theorem Cluster.settle_ckWait (c : Cluster) : c.settle.ckWait = c.ckWait := by
  cases hm : c.mode <;> cases hs : c.step <;> simp [Cluster.settle, Cluster.addPend, hm, hs]
@[simp] theorem Cluster.settle_pc (c : Cluster) : c.settle.pc = c.pc := by
  cases hm : c.mode <;> cases hs : c.step <;> simp [Cluster.settle, Cluster.addPend, hm, hs]
@[simp] theorem Cluster.advance_regs (c : Cluster) : c.advance.regs = c.regs := by
  unfold Cluster.advance; split <;> simp
@[simp] theorem Cluster.advance_bank (c : Cluster) : c.advance.bank = c.bank := by
  unfold Cluster.advance; split <;> simp
@[simp] theorem Cluster.advance_mode (c : Cluster) : c.advance.mode = c.mode := by
  unfold Cluster.advance; split <;> simp
@[simp] theorem Cluster.advance_pmode (c : Cluster) : c.advance.pmode = c.pmode := by
  unfold Cluster.advance; split <;> simp
@[simp] theorem Cluster.advance_pworld (c : Cluster) : c.advance.pworld = c.pworld := by
  unfold Cluster.advance; split <;> simp
@[simp] theorem Cluster.advance_tcause (c : Cluster) : c.advance.tcause = c.tcause := by
  unfold Cluster.advance; split <;> simp
@[simp] theorem Cluster.advance_tepc (c : Cluster) : c.advance.tepc = c.tepc := by
  unfold Cluster.advance; split <;> simp
@[simp] theorem Cluster.advance_tval (c : Cluster) : c.advance.tval = c.tval := by
  unfold Cluster.advance; split <;> simp
@[simp] theorem Cluster.advance_thvec (c : Cluster) : c.advance.thvec = c.thvec := by
  unfold Cluster.advance; split <;> simp
@[simp] theorem Cluster.advance_fpflg (c : Cluster) : c.advance.fpflg = c.fpflg := by
  unfold Cluster.advance; split <;> simp
@[simp] theorem Cluster.advance_fpxen (c : Cluster) : c.advance.fpxen = c.fpxen := by
  unfold Cluster.advance; split <;> simp
@[simp] theorem Cluster.advance_vlca (c : Cluster) : c.advance.vlca = c.vlca := by
  unfold Cluster.advance; split <;> simp
@[simp] theorem Cluster.advance_vlcb (c : Cluster) : c.advance.vlcb = c.vlcb := by
  unfold Cluster.advance; split <;> simp
@[simp] theorem Cluster.advance_record (c : Cluster) : c.advance.record = c.record := by
  unfold Cluster.advance; split <;> simp
@[simp] theorem Cluster.advance_begun (c : Cluster) : c.advance.begun = c.begun := by
  unfold Cluster.advance; split <;> simp
@[simp] theorem Cluster.advance_taken (c : Cluster) : c.advance.taken = c.taken := by
  unfold Cluster.advance; split <;> simp
@[simp] theorem Cluster.advance_stopped (c : Cluster) : c.advance.stopped = c.stopped := by
  unfold Cluster.advance; split <;> simp
@[simp] theorem Cluster.advance_held (c : Cluster) : c.advance.held = c.held := by
  unfold Cluster.advance; split <;> simp
@[simp] theorem Cluster.advance_saver (c : Cluster) : c.advance.saver = c.saver := by
  unfold Cluster.advance; split <;> simp
@[simp] theorem Cluster.advance_wstag (c : Cluster) : c.advance.wstag = c.wstag := by
  unfold Cluster.advance; split <;> simp
@[simp] theorem Cluster.advance_remote (c : Cluster) : c.advance.remote = c.remote := by
  unfold Cluster.advance; split <;> simp
@[simp] theorem Cluster.advance_atag (c : Cluster) : c.advance.atag = c.atag := by
  unfold Cluster.advance; split <;> simp
@[simp] theorem Cluster.advance_stale (c : Cluster) : c.advance.stale = c.stale := by
  unfold Cluster.advance; split <;> simp
@[simp] theorem Cluster.advance_dual (c : Cluster) : c.advance.dual = c.dual := by
  unfold Cluster.advance; split <;> simp
@[simp] theorem Cluster.advance_beatWait (c : Cluster) : c.advance.beatWait = c.beatWait := by
  unfold Cluster.advance; split <;> simp
@[simp] theorem Cluster.advance_ckWait (c : Cluster) : c.advance.ckWait = c.ckWait := by
  unfold Cluster.advance; split <;> simp
@[simp] theorem Cluster.jump_regs (c : Cluster) (pc : PC) : (c.jump pc).regs = c.regs := by
  simp [Cluster.jump]
@[simp] theorem Cluster.jump_bank (c : Cluster) (pc : PC) : (c.jump pc).bank = c.bank := by
  simp [Cluster.jump]
@[simp] theorem Cluster.jump_mode (c : Cluster) (pc : PC) : (c.jump pc).mode = c.mode := by
  simp [Cluster.jump]
@[simp] theorem Cluster.jump_pmode (c : Cluster) (pc : PC) : (c.jump pc).pmode = c.pmode := by
  simp [Cluster.jump]
@[simp] theorem Cluster.jump_pworld (c : Cluster) (pc : PC) : (c.jump pc).pworld = c.pworld := by
  simp [Cluster.jump]
@[simp] theorem Cluster.jump_tcause (c : Cluster) (pc : PC) : (c.jump pc).tcause = c.tcause := by
  simp [Cluster.jump]
@[simp] theorem Cluster.jump_tepc (c : Cluster) (pc : PC) : (c.jump pc).tepc = c.tepc := by
  simp [Cluster.jump]
@[simp] theorem Cluster.jump_tval (c : Cluster) (pc : PC) : (c.jump pc).tval = c.tval := by
  simp [Cluster.jump]
@[simp] theorem Cluster.jump_thvec (c : Cluster) (pc : PC) : (c.jump pc).thvec = c.thvec := by
  simp [Cluster.jump]
@[simp] theorem Cluster.jump_fpflg (c : Cluster) (pc : PC) : (c.jump pc).fpflg = c.fpflg := by
  simp [Cluster.jump]
@[simp] theorem Cluster.jump_fpxen (c : Cluster) (pc : PC) : (c.jump pc).fpxen = c.fpxen := by
  simp [Cluster.jump]
@[simp] theorem Cluster.jump_loops (c : Cluster) (pc : PC) : (c.jump pc).loops = c.loops := by
  simp [Cluster.jump]
@[simp] theorem Cluster.jump_vlca (c : Cluster) (pc : PC) : (c.jump pc).vlca = c.vlca := by
  simp [Cluster.jump]
@[simp] theorem Cluster.jump_vlcb (c : Cluster) (pc : PC) : (c.jump pc).vlcb = c.vlcb := by
  simp [Cluster.jump]
@[simp] theorem Cluster.jump_record (c : Cluster) (pc : PC) : (c.jump pc).record = c.record := by
  simp [Cluster.jump]
@[simp] theorem Cluster.jump_begun (c : Cluster) (pc : PC) : (c.jump pc).begun = c.begun := by
  simp [Cluster.jump]
@[simp] theorem Cluster.jump_taken (c : Cluster) (pc : PC) : (c.jump pc).taken = c.taken := by
  simp [Cluster.jump]
@[simp] theorem Cluster.jump_stopped (c : Cluster) (pc : PC) : (c.jump pc).stopped = c.stopped := by
  simp [Cluster.jump]
@[simp] theorem Cluster.jump_held (c : Cluster) (pc : PC) : (c.jump pc).held = c.held := by
  simp [Cluster.jump]
@[simp] theorem Cluster.jump_saver (c : Cluster) (pc : PC) : (c.jump pc).saver = c.saver := by
  simp [Cluster.jump]
@[simp] theorem Cluster.jump_wstag (c : Cluster) (pc : PC) : (c.jump pc).wstag = c.wstag := by
  simp [Cluster.jump]
@[simp] theorem Cluster.jump_remote (c : Cluster) (pc : PC) : (c.jump pc).remote = c.remote := by
  simp [Cluster.jump]
@[simp] theorem Cluster.jump_atag (c : Cluster) (pc : PC) : (c.jump pc).atag = c.atag := by
  simp [Cluster.jump]
@[simp] theorem Cluster.jump_stale (c : Cluster) (pc : PC) : (c.jump pc).stale = c.stale := by
  simp [Cluster.jump]
@[simp] theorem Cluster.jump_dual (c : Cluster) (pc : PC) : (c.jump pc).dual = c.dual := by
  simp [Cluster.jump]
@[simp] theorem Cluster.jump_beatWait (c : Cluster) (pc : PC) : (c.jump pc).beatWait = c.beatWait := by
  simp [Cluster.jump]
@[simp] theorem Cluster.jump_ckWait (c : Cluster) (pc : PC) : (c.jump pc).ckWait = c.ckWait := by
  simp [Cluster.jump]
@[simp] theorem Cluster.jump_pc (c : Cluster) (pc : PC) : (c.jump pc).pc = pc := rfl

theorem Cluster.advance_g (c : Cluster) (r : Reg) : c.advance.g r = c.g r := by simp [Cluster.g]
theorem Cluster.jump_g (c : Cluster) (pc : PC) (r : Reg) : (c.jump pc).g r = c.g r := by simp [Cluster.g]

/-! ### Memory is read through the cores, the dies and the outside -/

theorem State.peek_congr {s t : State} (hc : t.cores = s.cores) (hd : t.dies = s.dies) (hh : t.hostMem = s.hostMem)
    (hp : t.spanMem = s.spanMem) (l : Loc) (n : Nat) : t.peek l n = s.peek l n := by
  cases l <;> simp [State.peek, State.core, State.die, hc, hd, hh, hp]

end Sys2Proof.Machine
end

