-- ==== Sys2Proof/Laws/Access.lean ====
section
/-!
SUPPORT. Access laws: an access of the cluster that issues to its own scratchpad, where nothing holds it back: what its translation
answers, and what a load of it does.
-/

namespace Sys2Proof.Machine

/-- While the world map is off, no byte is secure, and no entry of it is read (R312). -/
theorem State.secureRange_off (s : State) (d : DieIx) (lo hi : Nat) (h : bit (s.die d).wmapb 0 = false) :
    s.secureRange d lo hi = (false, s) := by
  have key : ∀ us : List Nat, us.foldl (fun (acc : Bool × State) r =>
      let q := acc.2.secureRegion d r; (acc.1 || q.1, q.2)) (false, s) = (false, s) := by
    intro us
    induction us with
    | nil => rfl
    | cons u us ih =>
      have e : s.secureRegion d u = (false, s) := by simp [State.secureRegion, h]
      rw [List.foldl_cons]; simp only [e, Bool.or_self]; exact ih
  exact key _

/-- The world of a requester permits bytes while the world map is off, or when the requester is secure (R300, R312). -/
theorem State.worldOk_free (s : State) (d : DieIx) (secure : Bool) (pa n : Nat) (h : secure = true ∨ bit (s.die d).wmapb 0 = false) :
    s.worldOk d secure pa n = (true, s) := by
  unfold State.worldOk
  rcases h with h | h
  · simp [h]
  · cases secure with
    | true => simp
    | false => simp [s.secureRange_off d pa (pa + n) h]

/-- What `nearOk` says, part by part. -/
theorem State.nearOk_parts {s : State} {va : Word} {n : Nat} (h : s.nearOk va n = true) :
    va.toNat % n = 0 ∧ va.toNat + n ≤ spadBytes s.myCoreIx ∧ (s.myCore.secure = true ∨ bit s.myDie.wmapb 0 = false) ∧
    s.myCore.spadBad = [] ∧ s.myCore.tiles = [] ∧ s.me.fences = [] ∧ s.flits = [] ∧ s.merges = [] ∧ s.me.dual = none := by
  simp only [State.nearOk, Bool.and_eq_true, decide_eq_true_eq, beq_iff_eq, List.isEmpty_iff, Option.isNone_iff_eq_none,
    Bool.or_eq_true, Bool.not_eq_true'] at h
  obtain ⟨⟨⟨⟨⟨⟨⟨⟨h1, h2⟩, h3⟩, h4⟩, h5⟩, h6⟩, h7⟩, h8⟩, h9⟩ := h
  exact ⟨h1, h2, h3, h4, h5, h6, h7, h8, h9⟩

/-- The translation of an address of the own scratchpad: that place, at once (R84, R296). -/
theorem State.myXlate_near (s : State) (va : Word) (n : Nat) (acc : Acc) (hn : 0 < n) (h : s.nearOk va n = true) :
    s.myXlate acc va.toNat = (.ok (s.own va), s) := by
  obtain ⟨-, h2, h3, -⟩ := State.nearOk_parts h
  have hcap : spadBytes s.myCoreIx ≤ 0xC00000 := by unfold spadBytes; split <;> decide
  have hr : rangeOf (dieOf s.myCoreIx) va.toNat = .window := by
    unfold rangeOf; rw [if_neg (by omega), if_pos (by omega)]
  unfold State.myXlate State.xlate
  rw [hr]
  simp only
  rw [if_neg (by omega), s.worldOk_free (dieOf s.myCoreIx) _ _ _ h3]
  rfl

/-- No fence, posted access, tile transfer or uncorrectable word holds such an access back. -/
theorem State.near_free {s : State} {va : Word} {n : Nat} (h : s.nearOk va n = true) :
    (∀ p o, s.me.gated p o = false) ∧ (∀ p o, s.ownPending s.focus p o (s.own va) n = false) ∧
    s.bankWait (s.own va) n = false ∧ s.badUnits (s.own va) n = [] := by
  obtain ⟨-, -, -, h4, h5, h6, h7, h8, -⟩ := State.nearOk_parts h
  refine ⟨fun p o => by simp [Cluster.gated, h6], fun p o => by simp [State.ownPending, h7, h8], ?_, ?_⟩
  · have e : (s.core s.myCoreIx).tiles = [] := h5
    simp [State.own, State.bankWait, Core.locked, e]
  · have e : (s.core s.myCoreIx).spadBad = [] := h4
    simp [State.badUnits, State.badWords, State.own, e]

/-- An access to the own scratchpad needs no link, so that no send log holds it back (R340). -/
theorem State.near_logFull (s : State) (va : Word) : s.logFull s.focus (s.own va) = false := by
  simp [State.logFull, State.own, Loc.gate, Loc.homeDie, State.myCoreIx, dieOfClu, route, State.wayFull]

/-- A load from the own scratchpad: gD takes the bytes there, extended (R83). -/
theorem State.load_near (s : State) (d : Reg) (va : Word) (n : Nat) (sg : Bool) (o : Cls)
    (hn : n = 1 ∨ n = 2 ∨ n = 4 ∨ n = 8) (h : s.nearOk va n = true) :
    s.load d va n sg o = .next (s.finish d (extend sg n (leNat (s.peek (s.own va) n)))) := by
  have hx := s.myXlate_near va n .read (by omega) h
  obtain ⟨h1, -, -, -, -, -, -, -, h9⟩ := State.nearOk_parts h
  obtain ⟨g, w, b, u⟩ := State.near_free h
  have f : s.logFull s.focus (s.own va) = false := s.near_logFull va
  unfold State.load
  simp only [hx]
  rw [if_neg (by omega)]
  simp only [State.own] at w b u f ⊢
  simp [g, w, b, u, f, Loc.isRemote, Cluster.overlay, h9, State.readDram]

/-- A store to the own scratchpad: its bytes are stored there at once (R83, R86). -/
theorem State.storeWord_near (s : State) (v va : Word) (n : Nat) (o : Cls) (rel : Bool) (hn : n = 1 ∨ n = 2 ∨ n = 4 ∨ n = 8)
    (h : s.nearOk va n = true) :
    s.storeWord v va n o rel = .next ((s.store (s.own va) (leBytes n v.toNat) s.me.lid).advance) := by
  have hx := s.myXlate_near va n .write (by omega) h
  obtain ⟨h1, -, -, -, -, -, h7, h8, h9⟩ := State.nearOk_parts h
  obtain ⟨g, w, b, -⟩ := State.near_free h
  unfold State.storeWord
  simp only [hx]
  rw [if_neg (by omega)]
  have e : s.me.buffers = false := by simp [Cluster.buffers, h9]
  have f : s.logFull s.focus (s.own va) = false := s.near_logFull va
  have q : s.sendWait (s.own va) n = false := by simp [State.sendWait, State.own]
  have p : s.releaseWaits s.focus (s.own va) = false := by simp [State.releaseWaits, State.postedAt, h7, h8, State.own]
  have r : (s.own va).isRemote = false := rfl
  have z : s.reductionOpen s.focus (s.own va) n = false := by simp [State.reductionOpen, r]
  simp only [State.own] at w b f p q r z ⊢
  simp [e, f, q, p, g, w, b, r, z, State.storeAt, State.perform]

end Sys2Proof.Machine
end

