-- ==== Sys2Proof/Laws/Coding.lean ====
section
/-!
SUPPORT. Coding: what the pieces of an encoded word decode to, one lemma per format and per major opcode.
-/

namespace Sys2Proof.Laws

open Sys2Proof

/-! ### Fields put together and taken apart -/

theorem hi_append {m n : Nat} (x : BitVec m) (y : BitVec n) : (x ++ y).extractLsb' n m = x := by
  ext i hi; simp [BitVec.getLsbD_append, hi]

theorem lo_append {m n : Nat} (x : BitVec m) (y : BitVec n) : (x ++ y).extractLsb' 0 n = y := by
  ext i hi; simp [BitVec.getLsbD_append, hi]

theorem join_append {m n : Nat} (x : BitVec (m + n)) : x.extractLsb' n m ++ x.extractLsb' 0 n = x := by
  ext i hi; simp

theorem join_append3 {l m n : Nat} (x : BitVec (l + m + n)) :
    x.extractLsb' (m + n) l ++ x.extractLsb' n m ++ x.extractLsb' 0 n = x := by
  ext i hi
  simp only [BitVec.getElem_append, BitVec.getElem_extractLsb']
  split
  · rw [← BitVec.getLsbD_eq_getElem]; congr 1; omega
  · split <;> (rw [← BitVec.getLsbD_eq_getElem]; congr 1; omega)

theorem join_append4 {k l m n : Nat} (x : BitVec (k + l + m + n)) :
    x.extractLsb' (l + m + n) k ++ x.extractLsb' (m + n) l ++ x.extractLsb' n m ++ x.extractLsb' 0 n = x := by
  ext i hi
  simp only [BitVec.getElem_append, BitVec.getElem_extractLsb']
  split
  · rw [← BitVec.getLsbD_eq_getElem]; congr 1; omega
  · split
    · rw [← BitVec.getLsbD_eq_getElem]; congr 1; omega
    · split <;> (rw [← BitVec.getLsbD_eq_getElem]; congr 1; omega)

/-! ### The fields of R24 -/

theorem opq_op (m d a b) (op : BitVec 6) (q : BitVec 4) : (Fields.mk m d a b (opq op q)).op = op.toNat :=
  congrArg BitVec.toNat (hi_append op q)

theorem opq_q (m d a b) (op : BitVec 6) (q : BitVec 4) : (Fields.mk m d a b (opq op q)).q = q := lo_append op q

theorem imm15_eq (m d a) (i : BitVec 15) : (Fields.mk m d a (immB i) (immF i)).imm15 = i := join_append (m := 5) (n := 10) i

theorem f4_eq (m d b f) (f4 : BitVec 4) (i : BitVec 16) : (Fields.mk m d (f4A f4 i) b f).f4 = f4 := hi_append (m := 4) (n := 1) f4 _

theorem imm16_eq (m d f4) (i : BitVec 16) : (Fields.mk m d (f4A f4 i) (half16B i) (half16F i)).imm16 = i := by
  unfold Fields.imm16 f4A half16B half16F
  rw [lo_append (m := 4) (n := 1)]
  exact join_append3 (l := 1) (m := 5) (n := 10) i

theorem off25_eq (m) (i : BitVec 25) : (Fields.mk m (offD i) (offA i) (offB i) (offF i)).off25 = i :=
  join_append4 (k := 5) (l := 5) (m := 5) (n := 10) i

theorem o_eq (m d a f) (o : BitVec 4) (i : BitVec 11) : (Fields.mk m d a (memB o i) f).o = o := hi_append (m := 4) (n := 1) o _

theorem imm11_eq (m d a o) (i : BitVec 11) : (Fields.mk m d a (memB o i) (memF i)).imm11 = i := by
  unfold Fields.imm11 memB memF
  rw [lo_append (m := 4) (n := 1)]
  exact join_append (m := 1) (n := 10) i

theorem creg_hi (c : BitVec 12) : (cregB c).extractLsb' 2 3 = 0 := hi_append (m := 3) (n := 2) 0 _

theorem creg_eq (c : BitVec 12) : (cregB c).extractLsb' 0 2 ++ cregF c = c := by
  unfold cregB cregF
  rw [lo_append (m := 3) (n := 2)]
  exact join_append (m := 2) (n := 10) c

/-! ### The codes of R48 to R50 -/

theorem Sem.of_to (x : Sem) : Sem.ofBits x.toBits = x := by cases x <;> rfl
theorem AtomType.of_to (x : AtomType) : AtomType.ofBits x.toBits = x := by cases x <;> rfl
theorem Scope.of_to (x : Scope) : Scope.ofBits x.toBits = some x := by cases x <;> rfl
theorem ElemType.of_to (x : ElemType) : ElemType.ofBits x.toBits = some x := by cases x <;> rfl
theorem CmpCond.of_to (x : CmpCond) : CmpCond.ofBits x.toBits = some x := by cases x <;> rfl
theorem CvtOp.of_to (x : CvtOp) : CvtOp.ofBits x.toBits = x := by
  obtain ⟨k, z⟩ := x; cases k <;> cases z <;> rfl

end Sys2Proof.Laws
end

