-- ==== Sys2Proof/Laws/Effect.lean ====
section
/-!
SUPPORT. Effect: what each way in which a word ends does, once and whole: advance, finish, jump, floating-point finish,
delivery and trap.
-/

namespace Sys2Proof.Machine

theorem Cluster.endCheck_follows (n : Nat) (x : Loops) (a : PC) (h : x.depth = 0 ∨ a ≠ x.stop[0]) :
    Loops.endCheck n x a = (x, a + 4) := by
  cases n with
  | zero => rfl
  | succ n => unfold Loops.endCheck; rw [if_pos h]

theorem Cluster.advance_follows (c : Cluster) : c.Follows c.advance := by
  intro h
  cases hm : c.mode with
  | handler => constructor <;> simp [Cluster.advance, hm]
  | user =>
    have h' : c.loops.depth = 0 ∨ c.pc ≠ c.loops.stop[0] := by
      rcases h with h | h | h
      · simp [hm] at h
      · exact .inl h
      · exact .inr h
    constructor <;> simp [Cluster.advance, hm, Cluster.endCheck_follows _ _ _ h']

theorem Cluster.settle_pend (c : Cluster) (h : c.mode = .handler ∨ c.step = false) : c.settle.pend = c.pend := by
  unfold Cluster.settle
  cases hm : c.mode with
  | handler => rfl
  | user =>
    have hs : c.step = false := by simpa [hm] using h
    simp [hs]

theorem Cluster.settle_fences (c : Cluster) : c.settle.fences = c.fences.map fun (f : Fence) => { f with passed := true } := by
  unfold Cluster.settle
  cases c.mode with
  | handler => rfl
  | user => simp only; split <;> rfl

theorem Cluster.settle_keeps (c : Cluster) : c.Keeps c.settle where
  mode := by simp
  pmode := by simp
  pworld := by simp
  tcause := by simp
  tepc := by simp
  tval := by simp
  thvec := by simp
  fpxen := by simp
  vlca := by simp
  vlcb := by simp
  record := by simp
  begun := by simp
  taken := by simp
  stopped := by simp
  held := by simp
  saver := by simp
  wstag := by simp
  remote := by simp
  atag := by simp
  stale := by simp
  dual := by simp
  beatWait := by simp
  ckWait := by simp
  fences := by rw [c.settle_fences, List.map_map]; rfl
  bank := fun _ => by simp
  regs := fun _ => by simp
  pend := fun h => c.settle_pend h

/-- Moving the PC and the loops keeps what `Keeps` names. -/
theorem Cluster.Keeps.move {c x : Cluster} (h : c.Keeps x) (l : Loops) (pc : PC) : c.Keeps { x with loops := l, pc := pc } :=
  ⟨h.mode, h.pmode, h.pworld, h.tcause, h.tepc, h.tval, h.thvec, h.fpxen, h.vlca, h.vlcb, h.record, h.begun, h.taken, h.stopped,
    h.held, h.saver, h.wstag, h.remote, h.atag, h.stale, h.dual, h.beatWait, h.ckWait, h.fences, h.bank, h.regs, h.pend⟩

theorem Cluster.advance_keeps (c : Cluster) : c.Keeps c.advance := by
  unfold Cluster.advance
  cases c.mode with
  | user => exact c.settle_keeps.move _ _
  | handler => exact c.settle_keeps.move _ _

theorem Cluster.jump_keeps (c : Cluster) (pc : PC) : c.Keeps (c.jump pc) := c.settle_keeps.move _ _

/-- A register write and `Keeps` compose. -/
theorem Cluster.Keeps.ofSetG {c x : Cluster} {d : Reg} {v : Word} (h : (c.setG d v).Keeps x) : c.Keeps x where
  mode := by simpa using h.mode
  pmode := by simpa using h.pmode
  pworld := by simpa using h.pworld
  tcause := by simpa using h.tcause
  tepc := by simpa using h.tepc
  tval := by simpa using h.tval
  thvec := by simpa using h.thvec
  fpxen := by simpa using h.fpxen
  vlca := by simpa using h.vlca
  vlcb := by simpa using h.vlcb
  record := by simpa using h.record
  begun := by simpa using h.begun
  taken := by simpa using h.taken
  stopped := by simpa using h.stopped
  held := by simpa using h.held
  saver := by simpa using h.saver
  wstag := by simpa using h.wstag
  remote := by simpa using h.remote
  atag := by simpa using h.atag
  stale := by simpa using h.stale
  dual := by simpa using h.dual
  beatWait := by simpa using h.beatWait
  ckWait := by simpa using h.ckWait
  fences := by simpa using h.fences
  bank := fun hm => by
    have := h.bank (by simpa using hm)
    rw [this]
    unfold Cluster.setG
    split
    · rfl
    · simp [hm]
  regs := fun hm => by
    have := h.regs (by simpa using hm)
    rw [this]
    unfold Cluster.setG
    split
    · rfl
    · simp [hm]
  pend := fun hm => by
    have := h.pend (by simpa [Cluster.setG_step] using hm)
    simpa using this

theorem Cluster.setG_takes (c : Cluster) (d : Reg) (v : Word) : c.Takes (c.setG d v) d v :=
  ⟨fun h => c.g_setG d v h, rfl, fun _ h => c.g_setG_ne v h⟩

/-- `Takes` looks at the registers alone. -/
theorem Cluster.Takes.congr {c x y : Cluster} {d : Reg} {v : Word} (h : c.Takes x d v) (e : ∀ r, y.g r = x.g r) : c.Takes y d v :=
  ⟨fun hd => (e d).trans (h.result hd), rfl, fun r hr => (e r).trans (h.others r hr)⟩

theorem Cluster.takes_none (c : Cluster) {x : Cluster} (e : ∀ r, x.g r = c.g r) : c.Takes x 0 0 :=
  ⟨fun h => absurd rfl h, rfl, fun r _ => e r⟩

/-- A change of the cluster that issues, with its note, changes nothing else. -/
theorem State.onlyMe_modMe (s : State) (f : Cluster → Cluster) : s.OnlyMe { s.modMe f with note := .done } := by
  unfold State.OnlyMe
  have h : ({ s.modMe f with note := .done } : State).me = f s.me := s.me_modMe f
  rw [h]; rfl

theorem State.sameMemory_modMe (s : State) (f : Cluster → Cluster) : s.SameMemory { s.modMe f with note := .done } :=
  fun l => State.peek_congr rfl rfl rfl rfl l 1

theorem State.setCluster_setCluster (s : State) (c : CluIx) (x y : Cluster) :
    (s.setCluster c x).setCluster c y = s.setCluster c y := by
  simp [State.setCluster]

/-- Two changes of the cluster that issues are one. -/
theorem State.modMe_modMe (s : State) (f g : Cluster → Cluster) : (s.modMe f).modMe g = s.modMe fun c => g (f c) := by
  have h : (s.modMe f).cluster s.focus = f (s.cluster s.focus) := s.cluster_modCluster _ _
  show (s.modMe f).setCluster s.focus (g ((s.modMe f).cluster s.focus)) = _
  rw [h]; exact s.setCluster_setCluster _ _ _

/-- A word that writes gD and completes (R65, R77). -/
theorem State.finish_wrote (s : State) (d : Reg) (v : Word) : s.Wrote (s.finish d v) d v := by
  have e : s.finish d v = { s.modMe (fun c => (c.setG d v).advance) with note := .done } := by
    unfold State.finish State.advance State.setG
    rw [State.modMe_modMe]
  have hm : (s.finish d v).me = (s.me.setG d v).advance := s.me_finish d v
  refine ⟨?_, ?_, ?_, ?_, e ▸ s.onlyMe_modMe _, e ▸ s.sameMemory_modMe _⟩
  · rw [hm]; exact (s.me.setG_takes d v).congr fun r => Cluster.advance_g _ r
  · rw [hm]; exact (Cluster.advance_keeps _).ofSetG
  · rw [hm]; simp
  · rw [hm]; simpa [Cluster.Follows] using (s.me.setG d v).advance_follows

/-- A word that completes with no other effect (R77). -/
theorem State.advance_passed (s : State) : s.Passed s.advance := by
  have hm : s.advance.me = s.me.advance := s.me_advance
  refine ⟨?_, ?_, ?_, ?_, s.onlyMe_modMe _, s.sameMemory_modMe _⟩
  · rw [hm]; exact s.me.takes_none fun r => s.me.advance_g r
  · rw [hm]; exact s.me.advance_keeps
  · rw [hm]; simp
  · rw [hm]; exact s.me.advance_follows

/-- A word that transfers control (R26, R77). -/
theorem State.jump_went (s : State) (pc : PC) : s.Went (s.jump pc) 0 0 pc := by
  have hm : (s.jump pc).me = s.me.jump pc := s.me_jump pc
  refine ⟨?_, ?_, ?_, ?_, ?_, s.onlyMe_modMe _, s.sameMemory_modMe _⟩
  · rw [hm]; exact s.me.takes_none fun r => s.me.jump_g pc r
  · rw [hm]; exact s.me.jump_keeps pc
  · rw [hm]; simp
  · rw [hm]; rfl
  · rw [hm]; simp

/-- A word that writes a link and transfers control (R26). -/
theorem State.link_went (s : State) (d : Reg) (v : Word) (pc : PC) : s.Went ((s.setG d v).jump pc) d v pc := by
  have e : (s.setG d v).jump pc = { s.modMe (fun c => (c.setG d v).jump pc) with note := .done } := by
    unfold State.jump State.setG
    rw [State.modMe_modMe]
  have hm : ((s.setG d v).jump pc).me = (s.me.setG d v).jump pc := by rw [State.me_jump, State.me_setG]
  refine ⟨?_, ?_, ?_, ?_, ?_, e ▸ s.onlyMe_modMe _, e ▸ s.sameMemory_modMe _⟩
  · rw [hm]; exact (s.me.setG_takes d v).congr fun r => Cluster.jump_g _ pc r
  · rw [hm]; exact (Cluster.jump_keeps _ pc).ofSetG
  · rw [hm]; simp
  · rw [hm]; rfl
  · rw [hm]; simp

end Sys2Proof.Machine
end

