-- ==== Sys2Proof/Laws/Issue.lean ====
section
/-!
SUPPORT. Issue laws: what a cluster fetches where no copy and no error has touched its words, what its turn then does, and which turn a
step takes.
-/

namespace Sys2Proof.Machine

/-- With no word overwritten unsettled and none uncorrectable, a cluster fetches what its instruction memory holds (R26, R29). -/
theorem State.fetch_plain (s : State) (c : CluIx) (h1 : (s.cluster c).stale = []) (h2 : (s.core (coreOf c)).imemBad = []) :
    s.fetch c = ((s.core (coreOf c)).wordAt (s.cluster c).pc, s) := by
  simp [State.fetch, h1, h2]

/-- The turn of a cluster that stands at a word with no cause to take first, outside DUAL records: the word runs, or its cluster enters
sync wait, or UDI is taken (R27, R30). -/
theorem State.issueBy_plain (run : Instr → State → Result) (s : State) (c : CluIx) (ha : (s.cluster c).atWord = true)
    (hn : (s.cluster c).nextAsync = none) (hd : (s.cluster c).dual = none) (hs : (s.cluster c).stale = [])
    (hi : (s.core (coreOf c)).imemBad = []) :
    State.issueBy run s c = match decodeFor c ((s.core (coreOf c)).wordAt (s.cluster c).pc) with
      | none => .next (s.unallocated c)
      | some iw =>
        if (s.cluster c).issuesAlone iw then run iw.instr { s with focus := c, note := .done }
        else .next (s.enterSync c) := by
  unfold State.issueBy
  simp only [ha, hn, s.fetch_plain c hs hi, Cluster.dualRuns, hd]
  cases decodeFor c ((s.core (coreOf c)).wordAt (s.cluster c).pc) <;> simp

/-- With an empty agenda, a lone runnable cluster whose turn it is issues. -/
theorem step_lone (s : State) (c : CluIx) (cs : List CluIx) (hg : s.agenda = []) (hr : s.runnable = c :: cs)
    (he : s.engineTurn = false) :
    step s = State.issueBy exec { s with runq := cs ++ [c], engineTurn := true } c := by
  simp [step, hg, State.defaultMove, hr, he]

/-- A turn of the agenda is taken first. -/
theorem step_agenda (s : State) (t : Turn) (rest : List Turn) (hg : s.agenda = t :: rest) :
    step s = State.turn { s with agenda := rest } t := by
  simp [step, hg]

/-- An event that the agenda names runs. -/
theorem step_event (s : State) (i : Instr) (rest : List Turn) (hg : s.agenda = .event i :: rest) (hi : isEvent i = true) :
    step s = exec i { s with agenda := rest } := by
  simp [step, hg, State.turn, hi]

end Sys2Proof.Machine
end

