-- ==== Sys2Proof/Laws/Memory.lean ====
section
/-!
SUPPORT. Memory laws: every operation on a memory keeps its canonical form, and what a byte reads as after a write.
-/

namespace Sys2Proof.Machine

/-! ### The canonical form is kept -/

theorem Mem.wfFrom_mono {lo hi : Nat} {m : Mem} (h : Mem.wfFrom hi m = true) (hl : lo ≤ hi) : Mem.wfFrom lo m = true := by
  cases m with
  | nil => rfl
  | cons c m =>
    obtain ⟨a, b⟩ := c
    simp only [Mem.wfFrom, Bool.and_eq_true, decide_eq_true_eq] at h ⊢
    exact ⟨⟨by omega, h.1.2⟩, h.2⟩

theorem Mem.wfFrom_write (m : Mem) (lo i : Nat) (v : Byte) (h : Mem.wfFrom lo m = true) (hi : lo ≤ i) :
    Mem.wfFrom lo (m.write i v) = true := by
  induction m generalizing lo with
  | nil =>
    simp only [Mem.write]
    split
    · rfl
    · next hv => simp_all [Mem.wfFrom, Mem.blank]
  | cons c m ih =>
    obtain ⟨a, b⟩ := c
    simp only [Mem.wfFrom, Bool.and_eq_true, decide_eq_true_eq, bne_iff_ne, ne_eq] at h
    obtain ⟨⟨h1, h2⟩, h3⟩ := h
    simp only [Mem.write]
    split
    · next hlt =>
      split
      · simp only [Mem.wfFrom, Bool.and_eq_true, decide_eq_true_eq, bne_iff_ne, ne_eq]
        exact ⟨⟨h1, h2⟩, h3⟩
      · next hv =>
        simp only [Mem.wfFrom, Bool.and_eq_true, decide_eq_true_eq, bne_iff_ne, ne_eq]
        exact ⟨⟨hi, hv⟩, ⟨by omega, h2⟩, h3⟩
    · split
      · next he =>
        split
        · exact Mem.wfFrom_mono h3 (by omega)
        · next hv =>
          simp only [Mem.wfFrom, Bool.and_eq_true, decide_eq_true_eq, bne_iff_ne, ne_eq]
          exact ⟨⟨hi, hv⟩, he ▸ h3⟩
      · simp only [Mem.wfFrom, Bool.and_eq_true, decide_eq_true_eq, bne_iff_ne, ne_eq]
        exact ⟨⟨h1, h2⟩, ih (a + 1) h3 (by omega)⟩

theorem Mem.wf_write (m : Mem) (i : Nat) (v : Byte) (h : m.wf = true) : (m.write i v).wf = true :=
  Mem.wfFrom_write m 0 i v h (Nat.zero_le _)

theorem Mem.wfFrom_filter (p : Host.Cell → Bool) (m : Mem) (lo : Nat) (h : Mem.wfFrom lo m = true) :
    Mem.wfFrom lo (m.filter p) = true := by
  induction m generalizing lo with
  | nil => rfl
  | cons c m ih =>
    obtain ⟨a, b⟩ := c
    simp only [Mem.wfFrom, Bool.and_eq_true, decide_eq_true_eq, bne_iff_ne, ne_eq] at h
    simp only [List.filter_cons]
    split
    · simp only [Mem.wfFrom, Bool.and_eq_true, decide_eq_true_eq, bne_iff_ne, ne_eq]
      exact ⟨h.1, ih _ h.2⟩
    · exact ih _ (Mem.wfFrom_mono h.2 (by omega))

theorem Mem.wf_clear (m : Mem) (lo hi : Nat) (h : m.wf = true) : (m.clear lo hi).wf = true :=
  Mem.wfFrom_filter _ m 0 h

theorem Mem.ofDense_wf (bs : List Byte) (p : Nat) : Mem.wfFrom p (Mem.ofDense p bs) = true := by
  induction bs generalizing p with
  | nil => rfl
  | cons b bs ih =>
    unfold Mem.ofDense
    split
    · exact Mem.wfFrom_mono (ih (p + 1)) (Nat.le_succ p)
    · simp only [Mem.wfFrom, Bool.and_eq_true, bne_iff_ne, decide_eq_true_eq]
      exact ⟨⟨Nat.le_refl p, ‹_›⟩, ih (p + 1)⟩

theorem Mem.wfFrom_append (m n : Mem) (lo hi : Nat) (hl : lo ≤ hi) (hm : Mem.wfFrom lo m = true) (hn : Mem.wfFrom hi n = true)
    (hb : ∀ c ∈ m, c.1 < hi) : Mem.wfFrom lo (m ++ n) = true := by
  induction m generalizing lo with
  | nil => exact Mem.wfFrom_mono hn hl
  | cons c m ih =>
    obtain ⟨a, b⟩ := c
    simp only [List.cons_append, Mem.wfFrom, Bool.and_eq_true, decide_eq_true_eq] at hm ⊢
    exact ⟨hm.1, ih _ (hb (a, b) (List.mem_cons_self ..)) hm.2 fun c hc => hb c (List.mem_cons_of_mem _ hc)⟩

theorem Mem.wfFrom_above (m : Mem) (lo a : Nat) (h : Mem.wfFrom lo m = true) (hb : ∀ c ∈ m, a ≤ c.1) : Mem.wfFrom a m = true := by
  cases m with
  | nil => rfl
  | cons c m =>
    obtain ⟨i, b⟩ := c
    simp only [Mem.wfFrom, Bool.and_eq_true, decide_eq_true_eq] at h ⊢
    exact ⟨⟨hb (i, b) (List.mem_cons_self ..), h.1.2⟩, h.2⟩

theorem Mem.mem_ofDense (bs : List Byte) (p : Nat) : ∀ c ∈ Mem.ofDense p bs, c.1 < p + bs.length := by
  induction bs generalizing p with
  | nil => simp [Mem.ofDense]
  | cons b bs ih =>
    intro c hc
    have := ih (p + 1) c
    simp only [Mem.ofDense] at hc
    simp only [List.length_cons]
    split at hc
    · have := this hc; omega
    · rcases List.mem_cons.1 hc with rfl | h
      · simp
      · have := this h; omega

theorem Mem.wf_splice (bs : List Byte) (m : Mem) (a : Nat) (h : m.wf = true) :
    Mem.wfFrom a (Mem.ofDense a bs ++ m.filter fun c => a + bs.length ≤ c.1) = true :=
  Mem.wfFrom_append _ _ a (a + bs.length) (by omega) (Mem.ofDense_wf _ _)
    (Mem.wfFrom_above _ 0 _ (Mem.wfFrom_filter _ _ _ h) fun c hc => by simpa using (List.mem_filter.1 hc).2) (Mem.mem_ofDense bs a)

theorem Mem.wf_writeN (bs : List Byte) (m : Mem) (a : Nat) (h : m.wf = true) : (m.writeN a bs).wf = true := by
  rw [Mem.writeN, List.append_assoc]
  exact Mem.wfFrom_append _ _ 0 a (Nat.zero_le _) (Mem.wfFrom_filter _ _ _ h) (m.wf_splice bs a h)
    fun c hc => by simpa using (List.mem_filter.1 hc).2

theorem Mem.wf_foldWrite (cs : List (Nat × Byte)) (lost : List Nat) (u : Nat) (m : Mem) (h : m.wf = true) :
    (cs.foldl (fun acc c => if lost.contains (c.1 / u) then acc else acc.write c.1 c.2) m).wf = true := by
  induction cs generalizing m with
  | nil => exact h
  | cons c cs ih =>
    simp only [List.foldl_cons]
    apply ih
    split
    · exact h
    · exact m.wf_write _ _ h

theorem Mem.wf_put (u : Nat) (m : Mem) (bad : List Nat) (a : Nat) (bs : List Byte) (h : m.wf = true) :
    (Mem.put u m bad a bs).1.wf = true := by
  simp only [Mem.put]
  split
  · exact m.wf_writeN bs a h
  · exact Mem.wf_foldWrite _ _ _ m h

/-! ### A byte read after a write -/

theorem Mem.read_below (m : Mem) (lo i : Nat) (h : Mem.wfFrom lo m = true) (hi : i < lo) : m.read i = Mem.blank := by
  cases m with
  | nil => rfl
  | cons c m =>
    obtain ⟨a, b⟩ := c
    simp only [Mem.wfFrom, Bool.and_eq_true, decide_eq_true_eq] at h
    simp only [Mem.read]
    rw [if_neg (by omega), if_pos (by omega)]

theorem Mem.read_write_from (m : Mem) (lo i j : Nat) (v : Byte) (h : Mem.wfFrom lo m = true) :
    (m.write i v).read j = if j = i then v else m.read j := by
  induction m generalizing lo with
  | nil =>
    simp only [Mem.write]
    by_cases hv : v = Mem.blank
    · by_cases hj : j = i <;> simp [hv, hj, Mem.read]
    · by_cases hj : j = i <;> simp [hv, hj, Mem.read]
  | cons c m ih =>
    obtain ⟨a, b⟩ := c
    simp only [Mem.wfFrom, Bool.and_eq_true, decide_eq_true_eq] at h
    have hb := Mem.read_below m (a + 1)
    simp only [Mem.write]
    by_cases h1 : i < a
    · rw [if_pos h1]
      by_cases hv : v = Mem.blank
      · rw [if_pos hv]
        by_cases hj : j = i
        · subst hj; rw [if_pos rfl, hv]; simp only [Mem.read]; rw [if_neg (by omega), if_pos h1]
        · rw [if_neg hj]
      · rw [if_neg hv]
        by_cases hj : j = i
        · simp [hj, Mem.read]
        · rw [if_neg hj]
          simp only [Mem.read]
          rw [if_neg hj]
          by_cases h2 : j < i
          · rw [if_pos h2, if_neg (by omega), if_pos (by omega)]
          · rw [if_neg h2]
    · rw [if_neg h1]
      by_cases h2 : i = a
      · subst h2
        rw [if_pos rfl]
        by_cases hv : v = Mem.blank
        · rw [if_pos hv]
          by_cases hj : j = i
          · subst hj; rw [if_pos rfl, hv]; exact hb j h.2 (by omega)
          · rw [if_neg hj]
            simp only [Mem.read]
            rw [if_neg hj]
            by_cases h3 : j < i
            · rw [if_pos h3]; exact hb j h.2 (by omega)
            · rw [if_neg h3]
        · rw [if_neg hv]
          by_cases hj : j = i <;> simp [Mem.read, hj]
      · rw [if_neg h2]
        simp only [Mem.read]
        rw [ih (a + 1) h.2]
        by_cases hj : j = i
        · subst hj; simp [h2, h1]
        · simp [hj]

theorem Mem.read_write (m : Mem) (i j : Nat) (v : Byte) (h : m.wf = true) :
    (m.write i v).read j = if j = i then v else m.read j := Mem.read_write_from m 0 i j v h

theorem Mem.read_filter (p : Nat → Bool) (m : Mem) (lo j : Nat) (h : Mem.wfFrom lo m = true) :
    Mem.read (m.filter fun c => p c.1) j = if p j then m.read j else Mem.blank := by
  induction m generalizing lo with
  | nil => simp [Mem.read]
  | cons c m ih =>
    obtain ⟨a, b⟩ := c
    simp only [Mem.wfFrom, Bool.and_eq_true, decide_eq_true_eq] at h
    have hb := Mem.read_below m (a + 1)
    by_cases ha : p a
    · rw [List.filter_cons_of_pos (by simpa using ha)]
      simp only [Mem.read, ih _ h.2]
      by_cases hj : j = a
      · subst hj; simp [ha]
      · simp only [if_neg hj]; split <;> simp
    · rw [List.filter_cons_of_neg (by simpa using ha), ih _ h.2]
      simp only [Mem.read]
      by_cases hj : j = a
      · subst hj; simp [ha]
      · rw [if_neg hj]
        by_cases hl : j < a
        · rw [if_pos hl, hb j h.2 (by omega)]
        · rw [if_neg hl]

theorem Mem.read_append (m n : Mem) (lo hi j : Nat) (hm : Mem.wfFrom lo m = true) (hn : Mem.wfFrom hi n = true)
    (hb : ∀ c ∈ m, c.1 < hi) : Mem.read (m ++ n) j = if j < hi then m.read j else n.read j := by
  induction m generalizing lo with
  | nil =>
    simp only [List.nil_append]
    split
    · exact n.read_below hi j hn ‹_›
    · rfl
  | cons c m ih =>
    obtain ⟨a, b⟩ := c
    simp only [Mem.wfFrom, Bool.and_eq_true, decide_eq_true_eq] at hm
    have ha : a < hi := hb (a, b) (List.mem_cons_self ..)
    simp only [List.cons_append, Mem.read, ih _ hm.2 fun c hc => hb c (List.mem_cons_of_mem _ hc)]
    by_cases hj : j < hi
    · rw [if_pos hj, if_pos hj]
    · rw [if_neg hj, if_neg hj, if_neg (by omega), if_neg (by omega)]

theorem Mem.read_ofDense (bs : List Byte) (p j : Nat) :
    (Mem.ofDense p bs).read j = if p ≤ j then bs.getD (j - p) Mem.blank else Mem.blank := by
  induction bs generalizing p with
  | nil => simp [Mem.ofDense, Mem.read]
  | cons b bs ih =>
    simp only [Mem.ofDense]
    by_cases hj : p = j
    · subst hj
      by_cases hb : b = Mem.blank
      · rw [if_pos hb, ih, if_neg (by omega)]; simp [hb]
      · rw [if_neg hb]; simp [Mem.read]
    · have hr : (if p + 1 ≤ j then bs.getD (j - (p + 1)) Mem.blank else Mem.blank) =
          if p ≤ j then (b :: bs).getD (j - p) Mem.blank else Mem.blank := by
        by_cases h : p + 1 ≤ j
        · rw [if_pos h, if_pos (by omega), show j - p = j - (p + 1) + 1 by omega]; simp
        · rw [if_neg h, if_neg (by omega)]
      by_cases hb : b = Mem.blank
      · rw [if_pos hb, ih, hr]
      · rw [if_neg hb]
        simp only [Mem.read]
        rw [if_neg (Ne.symm hj), ih, hr]
        by_cases h : j < p
        · rw [if_pos h, if_neg (by omega)]
        · rw [if_neg h]

theorem Mem.read_writeN (bs : List Byte) (m : Mem) (a j : Nat) (h : m.wf = true) :
    (m.writeN a bs).read j = if a ≤ j ∧ j < a + bs.length then bs.getD (j - a) 0 else m.read j := by
  rw [Mem.writeN, List.append_assoc,
    Mem.read_append _ _ 0 a j (Mem.wfFrom_filter _ _ _ h) (m.wf_splice bs a h) fun c hc => by simpa using (List.mem_filter.1 hc).2,
    Mem.read_append _ _ a (a + bs.length) j (Mem.ofDense_wf _ _)
      (Mem.wfFrom_above _ 0 _ (Mem.wfFrom_filter _ _ _ h) fun c hc => by simpa using (List.mem_filter.1 hc).2) (Mem.mem_ofDense bs a),
    Mem.read_filter (fun i => decide (i < a)) m 0 j h, Mem.read_filter (fun i => decide (a + bs.length ≤ i)) m 0 j h, Mem.read_ofDense]
  by_cases h1 : j < a
  · rw [if_pos h1, if_pos (by simpa using h1), if_neg (by omega)]
  · rw [if_neg h1]
    by_cases h2 : j < a + bs.length
    · rw [if_pos h2, if_pos (by omega), if_pos (by omega)]; rfl
    · rw [if_neg h2, if_pos (by simpa using h2), if_neg (by omega)]

/-! ### Bytes read together -/

theorem Mem.read_above (m : Mem) {a j : Nat} (h : a ≤ j) : (m.above a).read j = m.read j := by
  induction m with
  | nil => rfl
  | cons c m ih =>
    obtain ⟨i, b⟩ := c
    simp only [Mem.above, Mem.read]
    by_cases hi : i < a
    · rw [if_pos hi, ih, if_neg (by omega), if_neg (by omega)]
    · rw [if_neg hi]; rfl

theorem Mem.readAt_eq (as : List Nat) (m : Mem) (h : as.Pairwise (· ≤ ·)) : m.readAt as = as.map m.read := by
  induction as generalizing m with
  | nil => rfl
  | cons a as ih =>
    obtain ⟨h1, h2⟩ := List.pairwise_cons.1 h
    simp only [Mem.readAt, List.map_cons, m.read_above (Nat.le_refl a), ih _ h2]
    congr 1
    exact List.map_congr_left fun j hj => m.read_above (h1 j hj)

theorem iota_sorted (a n : Nat) : (iota a n).Pairwise (· ≤ ·) := by
  rw [iota, List.pairwise_map]
  exact (List.pairwise_lt_range (n := n)).imp fun h => by omega

theorem Mem.readN_eq (m : Mem) (a n : Nat) : m.readN a n = (iota a n).map m.read := m.readAt_eq _ (iota_sorted a n)

end Sys2Proof.Machine
end

