-- ==== Sys2Proof/Laws/Kept.lean ====
section
/-!
SUPPORT. Kept: the shared operations keep every memory in canonical form.
-/

namespace Sys2Proof.Machine

/-- `memOk`, agent by agent. -/
theorem State.memOk_iff (s : State) : s.memOk = true ↔
    (∀ k, (s.core k).memOk = true) ∧ (∀ d, (s.die d).memOk = true) ∧ s.hostMem.wf = true ∧ s.spanMem.wf = true := by
  have hc : (s.cores.toList.all Core.memOk = true) ↔ ∀ k, (s.core k).memOk = true := by
    rw [List.all_eq_true]
    constructor
    · intro h k; exact h _ (by simp [State.core, Vector.get])
    · intro h x hx
      obtain ⟨i, hi, rfl⟩ := List.getElem_of_mem hx
      have hi' : i < 52 := by simpa using hi
      simpa [State.core, Vector.get] using h ⟨i, hi'⟩
  have hd : (s.dies.toList.all Die.memOk = true) ↔ ∀ d, (s.die d).memOk = true := by
    rw [List.all_eq_true]
    constructor
    · intro h k; exact h _ (by simp [State.die, Vector.get])
    · intro h x hx
      obtain ⟨i, hi, rfl⟩ := List.getElem_of_mem hx
      have hi' : i < 6 := by simpa using hi
      simpa [State.die, Vector.get] using h ⟨i, hi'⟩
  simp only [State.memOk, Bool.and_eq_true, hc, hd, and_assoc]

/-- A state with the same memories keeps the form. -/
theorem State.memOk_congr {s t : State} (hc : t.cores = s.cores) (hd : t.dies = s.dies) (hh : t.hostMem = s.hostMem)
    (hp : t.spanMem = s.spanMem) : t.memOk = s.memOk := by
  simp only [State.memOk, hc, hd, hh, hp]

/-- A core with the same memories keeps the form. -/
theorem Core.memOk_congr {x y : Core} (hs : y.spad = x.spad) (hi : y.imem = x.imem) (hm : y.mx.acc = x.mx.acc)
    (ht : y.mx.stepAcc = x.mx.stepAcc) (he : y.ce = x.ce) : y.memOk = x.memOk := by
  simp only [Core.memOk, Matrix.memOk, hs, hi, hm, ht, he]

/-- A step that is undone leaves a kept accumulator in its place (R171). -/
theorem Matrix.memOk_rewind {m : Matrix} (h : m.memOk = true) : m.rewind.memOk = true := by
  unfold Matrix.rewind
  split
  · exact h
  · simp only [Matrix.memOk, Bool.and_eq_true] at h ⊢
    exact ⟨h.2, h.2⟩

/-- A step keeps the accumulator that it begins with. -/
theorem Matrix.memOk_keepStep {m : Matrix} (h : m.memOk = true) : m.keepStep.memOk = true := by
  unfold Matrix.keepStep
  split
  · simp only [Matrix.memOk, Bool.and_eq_true] at h ⊢
    exact ⟨h.1, h.1⟩
  · exact h

/-- A die with the same memories keeps the form. -/
theorem Die.memOk_congr {x y : Die} (hh : y.hub = x.hub) (hd : y.dram = x.dram) (hl : y.lanes.abuf = x.lanes.abuf)
    (he : y.eth = x.eth) (hc : y.ckSlots = x.ckSlots) : y.memOk = x.memOk := by
  simp only [Die.memOk, hh, hd, hl, he, hc]

@[simp] theorem State.memOk_setCluster (s : State) (c : CluIx) (x : Cluster) : (s.setCluster c x).memOk = s.memOk := rfl
@[simp] theorem State.memOk_modCluster (s : State) (c : CluIx) (f : Cluster → Cluster) : (s.modCluster c f).memOk = s.memOk := rfl
@[simp] theorem State.memOk_modMe (s : State) (f : Cluster → Cluster) : (s.modMe f).memOk = s.memOk := rfl
@[simp] theorem State.memOk_modLink (s : State) (l : LinkIx) (f : Link → Link) : (s.modLink l f).memOk = s.memOk := rfl
@[simp] theorem State.memOk_setG (s : State) (r : Reg) (v : Word) : (s.setG r v).memOk = s.memOk := rfl
@[simp] theorem State.memOk_tick (s : State) : s.tick.memOk = s.memOk := rfl
@[simp] theorem State.memOk_advance (s : State) : s.advance.memOk = s.memOk := rfl
@[simp] theorem State.memOk_jump (s : State) (pc : PC) : (s.jump pc).memOk = s.memOk := rfl
@[simp] theorem State.memOk_stall (s : State) : s.stall.memOk = s.memOk := rfl
@[simp] theorem State.memOk_beginWait (s : State) : s.beginWait.memOk = s.memOk := rfl
@[simp] theorem State.memOk_finish (s : State) (d : Reg) (v : Word) : (s.finish d v).memOk = s.memOk := rfl
@[simp] theorem State.memOk_free (s : State) : s.free.2.memOk = s.memOk := rfl

theorem State.memOk_setCore {s : State} (h : s.memOk = true) (k : CoreIx) {x : Core} (hx : x.memOk = true) :
    (s.setCore k x).memOk = true := by
  rw [State.memOk_iff] at h ⊢
  obtain ⟨h1, h2, h3, h4⟩ := h
  refine ⟨fun j => ?_, h2, h3, h4⟩
  by_cases e : j = k
  · subst e; simpa using hx
  · rw [State.core_setCore_ne _ _ e]; exact h1 j

theorem State.memOk_modCore {s : State} (h : s.memOk = true) (k : CoreIx) {f : Core → Core}
    (hf : (s.core k).memOk = true → (f (s.core k)).memOk = true) : (s.modCore k f).memOk = true :=
  State.memOk_setCore h k (hf (((State.memOk_iff s).1 h).1 k))

theorem State.memOk_setDie {s : State} (h : s.memOk = true) (d : DieIx) {x : Die} (hx : x.memOk = true) :
    (s.setDie d x).memOk = true := by
  rw [State.memOk_iff] at h ⊢
  obtain ⟨h1, h2, h3, h4⟩ := h
  refine ⟨h1, fun j => ?_, h3, h4⟩
  by_cases e : j = d
  · subst e; simpa using hx
  · rw [State.die_setDie_ne _ _ e]; exact h2 j

theorem State.memOk_modDie {s : State} (h : s.memOk = true) (d : DieIx) {f : Die → Die}
    (hf : (s.die d).memOk = true → (f (s.die d)).memOk = true) : (s.modDie d f).memOk = true :=
  State.memOk_setDie h d (hf (((State.memOk_iff s).1 h).2.1 d))

/-- A step folded over a list keeps what each step keeps. -/
theorem State.memOk_foldl {α : Type} (f : State → α → State) (hf : ∀ s a, s.memOk = true → (f s a).memOk = true) (xs : List α)
    (s : State) (h : s.memOk = true) : (xs.foldl f s).memOk = true := by
  induction xs generalizing s with
  | nil => exact h
  | cons x xs ih => exact ih _ (hf _ _ h)

/-- The shadows hold no data of their own (R277). -/
theorem State.memOk_touchRow (s : State) (d : DieIx) (f : Nat) : (s.touchRow d f).memOk = (s.die d).memOk :=
  Die.memOk_congr (by simp [State.touchRow]) (by simp [State.touchRow]) (by simp [State.touchRow]) (by simp [State.touchRow])
    (by simp [State.touchRow])

theorem State.memOk_touchRows {s : State} (h : s.memOk = true) (d : DieIx) (a n : Nat) : (s.touchRows d a n).memOk = true :=
  State.memOk_foldl _ (fun a f ha => State.memOk_setDie ha d
    ((State.memOk_touchRow a d f).trans (((State.memOk_iff a).1 ha).2.1 d))) _ _ h

theorem State.memOk_poke {s : State} (h : s.memOk = true) (l : Loc) (bs : List Byte) : (s.poke l bs).1.memOk = true := by
  have hs := (State.memOk_iff s).1 h
  cases l with
  | spad k a =>
    refine State.memOk_setCore h k ?_
    have hk := hs.1 k
    simp only [Core.memOk, Bool.and_eq_true] at hk ⊢
    exact ⟨⟨⟨Mem.wf_put _ _ _ _ _ hk.1.1.1, hk.1.1.2⟩, hk.1.2⟩, hk.2⟩
  | hub d a =>
    refine State.memOk_setDie h d ?_
    have hk := hs.2.1 d
    simp only [Die.memOk, Bool.and_eq_true] at hk ⊢
    exact ⟨⟨⟨⟨Mem.wf_put _ _ _ _ _ hk.1.1.1.1, hk.1.1.1.2⟩, hk.1.1.2⟩, hk.1.2⟩, hk.2⟩
  | dram d a =>
    refine State.memOk_touchRows (State.memOk_setDie h d ?_) _ _ _
    have hk := hs.2.1 d
    simp only [Die.memOk, Bool.and_eq_true] at hk ⊢
    exact ⟨⟨⟨⟨hk.1.1.1.1, Mem.wf_put _ _ _ _ _ hk.1.1.1.2⟩, hk.1.1.2⟩, hk.1.2⟩, hk.2⟩
  | host d a => exact (State.memOk_iff _).2 ⟨hs.1, hs.2.1, Mem.wf_writeN _ _ _ hs.2.2.1, hs.2.2.2⟩
  | send d p a => exact h
  | peer d r a => exact h
  | tensor d r a => exact h
  | span p d r a => exact (State.memOk_iff _).2 ⟨hs.1, hs.2.1, hs.2.2.1, Mem.wf_writeN _ _ _ hs.2.2.2⟩

theorem State.memOk_pokePhys {s : State} (h : s.memOk = true) (d : DieIx) (pa : Nat) (w : Word) : (s.pokePhys d pa w).memOk = true := by
  unfold State.pokePhys
  split
  · exact State.memOk_modDie (State.memOk_poke h _ _) d (Die.memOk_congr rfl rfl rfl rfl rfl).trans
  · exact h

theorem State.memOk_logNew {s : State} (h : s.memOk = true) (d : DieIx) (kind detail : Nat) (at_ : Word) (lid synd : Nat) :
    (s.logNew d kind detail at_ lid synd).memOk = true := by
  have hd := ((State.memOk_iff s).1 h).2.1 d
  unfold State.logNew
  simp only
  split
  · exact State.memOk_setDie h d ((Die.memOk_congr rfl rfl rfl rfl rfl).trans hd)
  · iterate 4 apply State.memOk_pokePhys
    exact State.memOk_setDie h d ((Die.memOk_congr rfl rfl rfl rfl rfl).trans hd)

/-- The error log writes only whole words of memory. -/
theorem State.memOk_log {s : State} (h : s.memOk = true) (d : DieIx) (kind detail : Nat) (at_ : Word) (lid synd : Nat) :
    (s.log d kind detail at_ lid synd).memOk = true := by
  have hd := ((State.memOk_iff s).1 h).2.1 d
  unfold State.log
  simp only
  split
  · exact h
  split
  · split
    · apply State.memOk_pokePhys
      exact State.memOk_setDie h d ((Die.memOk_congr rfl rfl rfl rfl rfl).trans hd)
    · exact State.memOk_logNew h _ _ _ _ _ _
  · exact State.memOk_logNew h _ _ _ _ _ _

theorem State.memOk_countUnc {s : State} (h : s.memOk = true) (d : DieIx) (n : Nat) : (s.countUnc d n).memOk = true :=
  State.memOk_modDie h d (Die.memOk_congr rfl rfl rfl rfl rfl).trans

theorem State.memOk_countPoison {s : State} (h : s.memOk = true) (d : DieIx) (n : Nat) : (s.countPoison d n).memOk = true :=
  State.memOk_modDie h d (Die.memOk_congr rfl rfl rfl rfl rfl).trans

/-- Counting and logging what a read meets. -/
theorem State.memOk_noteUnc {s : State} (h : s.memOk = true) (l : Loc) (n lid : Nat) : (s.noteUnc l n lid).memOk = true := by
  unfold State.noteUnc
  split
  · exact State.memOk_foldl _ (fun a w ha => State.memOk_log (State.memOk_countUnc ha _ _) _ _ _ _ _ _) _ _ h
  · exact h

theorem State.memOk_correctBeat {s : State} (h : s.memOk = true) (d : DieIx) (b conn : Nat) : (s.correctBeat d b conn).memOk = true :=
  State.memOk_log (State.memOk_modDie h d (Die.memOk_congr rfl rfl rfl rfl rfl).trans) _ _ _ _ _ _

theorem State.memOk_correctBeats {s : State} (h : s.memOk = true) (d : DieIx) (bs : List Nat) :
    (s.correctBeats d bs).memOk = true := by
  refine State.memOk_foldl _ (fun a w ha => ?_) _ _ h
  split
  · exact ha
  · split
    · exact ha
    · exact State.memOk_correctBeat ha _ _ _

/-- What a read of lane memory does beside its data (R277, R319). -/
theorem State.memOk_readDram {s : State} (h : s.memOk = true) (l : Loc) (n : Nat) : (s.readDram l n).memOk = true := by
  unfold State.readDram
  split
  · exact State.memOk_touchRows (State.memOk_correctBeats h _ _) _ _ _
  · exact h

/-- What a write of lane memory reads and corrects before it merges (R319). -/
theorem State.memOk_mergeBeats {s : State} (h : s.memOk = true) (l : Loc) (n : Nat) : (s.mergeBeats l n).memOk = true := by
  unfold State.mergeBeats
  split
  · exact State.memOk_correctBeats h _ _
  · exact h

/-- A store, with its entries for the units it loses. -/
theorem State.memOk_store {s : State} (h : s.memOk = true) (l : Loc) (bs : List Byte) (lid : Nat) : (s.store l bs lid).memOk = true := by
  unfold State.store
  have hp := State.memOk_poke (State.memOk_mergeBeats h l bs.length) l bs
  split
  rename_i s' lost e
  have hs' : s'.memOk = true := by rw [e] at hp; exact hp
  split
  · exact State.memOk_foldl _ (fun a w ha => State.memOk_log (State.memOk_countUnc ha _ _) _ _ _ _ _ _) _ _ hs'
  · exact hs'

theorem State.memOk_storeAll {s : State} (h : s.memOk = true) (ws : List (Loc × List Byte)) (lid : Nat) :
    (s.storeAll ws lid).memOk = true := State.memOk_foldl _ (fun _ _ ha => State.memOk_store ha _ _ _) _ _ h

/-- Taking a trap writes no memory but the error log. -/
theorem State.memOk_takeTrap {s : State} (h : s.memOk = true) (c : CluIx) (async bund late : Bool) (path : Nat) (cause : Cause)
    (tval : Word) : (s.takeTrap c async bund late path cause tval).memOk = true := by
  unfold State.takeTrap
  simp only
  split
  · exact State.memOk_log (s := s.setCluster c _) h _ _ _ _ _ _
  · exact h

theorem State.memOk_trap {s : State} (h : s.memOk = true) (cause : Cause) (tval : Word) (path : Nat) :
    (s.trap cause tval path).memOk = true := State.memOk_takeTrap h _ _ _ _ _ _ _

theorem State.memOk_trapFree {s : State} (h : s.memOk = true) (cause : Cause) (path : Nat) :
    (s.trapFree cause path).memOk = true := State.memOk_trap (s := s.free.2) h _ _ _

theorem State.memOk_pendOn {s : State} (h : s.memOk = true) (c : CluIx) (cause : Cause) (tval : Word) :
    (s.pendOn c cause tval).memOk = true := h

end Sys2Proof.Machine
end

