-- ==== Sys2Proof/Laws/Layout.lean ====
section
/-!
SUPPORT. Layout laws: what a layout of Machine/Layout.lean puts, it gets back.
-/

namespace Sys2Proof.Machine

/-- What a layout puts for a value of P it gets back, whatever words follow. -/
def Codec.Lawful {α : Type} (c : Codec α) (P : α → Prop) : Prop := ∀ x, P x → ∀ ws, c.get (c.put x ++ ws) = some (x, ws)

theorem Codec.Lawful.mono {α : Type} {c : Codec α} {P Q : α → Prop} (h : c.Lawful Q) (hp : ∀ x, P x → Q x) : c.Lawful P :=
  fun x hx => h x (hp x hx)

theorem Codec.Lawful.map {α β : Type} {c : Codec α} {P : α → Prop} {Q : β → Prop} {out : β → α} {back : α → Option β} (h : c.Lawful P)
    (hq : ∀ y, Q y → P (out y) ∧ back (out y) = some y) : (c.map out back).Lawful Q := fun y hy ws => by
  simp [Codec.map, h _ (hq y hy).1 ws, (hq y hy).2]

theorem Codec.Lawful.pair {α β : Type} {c : Codec α} {d : Codec β} {P : α → Prop} {Q : β → Prop} (hc : c.Lawful P) (hd : d.Lawful Q) :
    (c.pair d).Lawful fun x => P x.1 ∧ Q x.2 := fun x hx ws => by
  simp [Codec.pair, hc _ hx.1, hd _ hx.2]

theorem wordC_lawful : wordC.Lawful fun _ => True := fun _ _ _ => rfl

theorem natGet_words (fuel n : Nat) (h : n < 2 ^ (63 * (fuel + 1))) (ws : List Word) :
    natGet (natWords fuel n ++ ws) = some (n, ws) := by
  have one : ∀ m, m < 2 ^ 63 → natGet (word m :: ws) = some (m, ws) := fun m hm => by
    have : bit (word m) 63 = false := by
      simp only [bit, word, BitVec.getLsbD_ofNat]
      simp [Nat.testBit_lt_two_pow hm]
    rw [natGet, this]
    have : (word m).toNat = m := Nat.mod_eq_of_lt (by omega)
    simp [this]
  induction fuel generalizing n with
  | zero => exact one n (by simpa using h)
  | succ fuel ih =>
    unfold natWords
    split
    · exact one n ‹_›
    · have hb : 2 ^ 63 + n % 2 ^ 63 < 2 ^ 64 := by omega
      have h63 : bit (word (2 ^ 63 + n % 2 ^ 63)) 63 = true := by
        simp only [bit, word, BitVec.getLsbD_ofNat, Nat.testBit_two_pow_add_eq]
        simp [Nat.testBit_lt_two_pow (Nat.mod_lt n (by decide : 0 < 2 ^ 63))]
      have hlo : bits (word (2 ^ 63 + n % 2 ^ 63)) 0 63 = n % 2 ^ 63 := by
        simp only [bits, nbits, word, BitVec.toNat_ofNat, Nat.shiftRight_zero]
        omega
      have hd : n / 2 ^ 63 < 2 ^ (63 * (fuel + 1)) := by
        rw [Nat.div_lt_iff_lt_mul (by decide), ← Nat.pow_add]
        exact lt_of_lt_of_le h (Nat.pow_le_pow_right (by decide) (by omega))
      simp only [List.cons_append, natGet, h63, if_true, ih _ hd, hlo, Option.map_some]
      rw [Nat.mod_add_div]

theorem natC_lawful : natC.Lawful fun _ => True := fun n _ ws => by
  refine natGet_words _ n ?_ ws
  have := Nat.lt_log2_self (n := n)
  exact lt_of_lt_of_le this (Nat.pow_le_pow_right (by decide) (by omega))

theorem boolC_lawful : boolC.Lawful fun _ => True :=
  natC_lawful.map fun b _ => ⟨trivial, by cases b <;> rfl⟩

theorem bitsC_lawful {w : Nat} : (bitsC (w := w)).Lawful fun _ => True :=
  natC_lawful.map fun x _ => ⟨trivial, by simp [x.isLt]⟩

theorem finC_lawful {n : Nat} : (finC (n := n)).Lawful fun _ => True :=
  natC_lawful.map fun i _ => ⟨trivial, by simp [i.isLt]⟩

theorem intC_lawful : intC.Lawful fun _ => True :=
  (natC_lawful.pair boolC_lawful).map fun i _ => ⟨⟨trivial, trivial⟩, by
    by_cases h : i < 0 <;> simp only [h, decide_true, decide_false, if_true, if_false, Bool.false_eq_true, Option.some.injEq] <;> omega⟩

theorem Codec.Lawful.getN {α : Type} {c : Codec α} {P : α → Prop} (h : c.Lawful P) (ws : List Word) :
    ∀ xs : List α, (∀ x ∈ xs, P x) → c.getN xs.length (xs.flatMap c.put ++ ws) = some (xs, ws)
  | [], _ => rfl
  | x :: xs, hx => by
    have ih := h.getN ws xs fun y hy => hx y (List.mem_cons_of_mem _ hy)
    simp [Codec.getN, h x (hx x List.mem_cons_self), ih]

theorem Codec.Lawful.list {α : Type} {c : Codec α} {P : α → Prop} (h : c.Lawful P) : c.list.Lawful fun xs => ∀ x ∈ xs, P x :=
  fun xs hx ws => by simp [Codec.list, natC_lawful xs.length trivial, h.getN ws xs hx]

theorem Codec.Lawful.option {α : Type} {c : Codec α} {P : α → Prop} (h : c.Lawful P) : c.option.Lawful fun x => ∀ y ∈ x, P y :=
  h.list.map fun x hx => ⟨by simpa using hx, by cases x <;> rfl⟩

theorem Codec.Lawful.vector {α : Type} {c : Codec α} {P : α → Prop} (h : c.Lawful P) (n : Nat) :
    (c.vector n).Lawful fun v => ∀ x ∈ v.toList, P x := fun v hv ws => by
  have hl : v.toList.length = n := by simp
  have := h.getN ws v.toList hv
  rw [hl] at this
  simp [Codec.vector, this, Vector.toArray_toList]

/-- Memory read back from its bytes: canonical memory is unchanged. -/
theorem Mem.ofDense_replicate (n p : Nat) (bs : List Byte) :
    Mem.ofDense p (List.replicate n Mem.blank ++ bs) = Mem.ofDense (p + n) bs := by
  induction n generalizing p with
  | zero => rfl
  | succ n ih => simp only [List.replicate_succ, List.cons_append, Mem.ofDense, if_true, ih]; congr 1; omega

theorem Mem.ofDense_denseFrom (m : Mem) (p : Nat) (h : Mem.wfFrom p m = true) : Mem.ofDense p (Mem.denseFrom p m) = m := by
  induction m generalizing p with
  | nil => rfl
  | cons x m ih =>
    obtain ⟨a, b⟩ := x
    simp only [Mem.wfFrom, Bool.and_eq_true, bne_iff_ne, decide_eq_true_eq] at h
    rw [Mem.denseFrom, Mem.ofDense_replicate, Nat.add_sub_cancel' h.1.1, Mem.ofDense, if_neg (show ¬b = Mem.blank from h.1.2), ih _ h.2]

end Sys2Proof.Machine
end

