-- ==== Sys2Proof/Laws/PerInstr.lean ====
section
/-!
SUPPORT. PerInstr: for each instruction word, its fields decode to it (R24, R25, R47); an event has no word.
-/

namespace Sys2Proof.Laws.Coding

open Sys2Proof Sys2Proof.Laws

/-- The fields of an instruction word decode to that instruction. -/
def Statement (i : Instr) : Prop := i.isWord = true → dec i.fields = some i

/-! ### One lemma per major opcode -/

theorem dec_0x01 (d a b) (op : BitVec 6) : dec ⟨0x01, d, a, b, opq op 0⟩ = decInt 0x01 op.toNat d a b := by
  simp only [dec, opq_op, opq_q]; rfl

theorem dec_0x02 (d a b) (op : BitVec 6) : dec ⟨0x02, d, a, b, opq op 0⟩ = decInt 0x02 op.toNat d a b := by
  simp only [dec, opq_op, opq_q]; rfl

theorem dec_0x03 (d a b) (op : BitVec 6) : dec ⟨0x03, d, a, b, opq op 0⟩ = decInt 0x03 op.toNat d a b := by
  simp only [dec, opq_op, opq_q]; rfl

theorem dec_0x04 (d a b) (op : BitVec 6) : dec ⟨0x04, d, a, b, opq op 0⟩ = decInt 0x04 op.toNat d a b := by
  simp only [dec, opq_op, opq_q]; rfl

theorem dec_0x0a (d a b) (op : BitVec 6) : dec ⟨0x0a, d, a, b, opq op 0⟩ = decInt 0x0A op.toNat d a b := by
  simp only [dec, opq_op, opq_q]; rfl

theorem dec_0x0f (d a b) (op : BitVec 6) : dec ⟨0x0f, d, a, b, opq op 0⟩ = decJump op.toNat d a b := by
  simp only [dec, opq_op, opq_q]; rfl

theorem dec_0x3a (d a b) (op : BitVec 6) : dec ⟨0x3a, d, a, b, opq op 0⟩ = decSys op.toNat d a b := by
  simp only [dec, opq_op, opq_q]; rfl

theorem dec_0x14 (d a b) (op : BitVec 6) (q : BitVec 4) : dec ⟨0x14, d, a, b, opq op q⟩ = decMem 0x14 op.toNat d a b q := by
  simp only [dec, opq_op, opq_q]; rfl

theorem dec_0x15 (d a b) (op : BitVec 6) (q : BitVec 4) : dec ⟨0x15, d, a, b, opq op q⟩ = decMem 0x15 op.toNat d a b q := by
  simp only [dec, opq_op, opq_q]; rfl

theorem dec_0x1e (d a b) (op : BitVec 6) (q : BitVec 4) : dec ⟨0x1e, d, a, b, opq op q⟩ = decCont op.toNat d a b q := by
  simp only [dec, opq_op, opq_q]; rfl

theorem dec_0x26 (d a b) (op : BitVec 6) (q : BitVec 4) : dec ⟨0x26, d, a, b, opq op q⟩ = decHz op.toNat d a b q := by
  simp only [dec, opq_op, opq_q]; rfl

theorem dec_0x28 (d a b) (op : BitVec 6) (q : BitVec 4) : dec ⟨0x28, d, a, b, opq op q⟩ = decMx op.toNat d a b q := by
  simp only [dec, opq_op, opq_q]; rfl

theorem dec_0x2e (d a b) (op : BitVec 6) (q : BitVec 4) : dec ⟨0x2e, d, a, b, opq op q⟩ = decCopy op.toNat d a b q := by
  simp only [dec, opq_op, opq_q]; rfl

theorem dec_0x32 (d a b) (op : BitVec 6) (q : BitVec 4) : dec ⟨0x32, d, a, b, opq op q⟩ = decLane op.toNat d a b q := by
  simp only [dec, opq_op, opq_q]; rfl

theorem dec_0x3c (d a b) (op : BitVec 6) (q : BitVec 4) : dec ⟨0x3c, d, a, b, opq op q⟩ = decFp op.toNat d a b q := by
  simp only [dec, opq_op, opq_q]; rfl

theorem dec_0x20 (d a b) (op : BitVec 6) (t : ElemType) :
    dec ⟨0x20, d, a, b, opq op t.toBits⟩ = decVecT 0x20 op.toNat (d.getLsbD 4) (d.extractLsb' 0 4) a b t := by
  have h1 : dec ⟨0x20, d, a, b, opq op t.toBits⟩ = decVec 0x20 ⟨0x20, d, a, b, opq op t.toBits⟩ := rfl
  rw [h1]
  simp only [decVec, opq_op, opq_q, ElemType.of_to]
  split
  · simp_all
  · split
    · simp_all
    · rfl

theorem dec_0x21 (d a b) (op : BitVec 6) (t : ElemType) :
    dec ⟨0x21, d, a, b, opq op t.toBits⟩ = decVecT 0x21 op.toNat (d.getLsbD 4) (d.extractLsb' 0 4) a b t := by
  have h1 : dec ⟨0x21, d, a, b, opq op t.toBits⟩ = decVec 0x21 ⟨0x21, d, a, b, opq op t.toBits⟩ := rfl
  rw [h1]
  simp only [decVec, opq_op, opq_q, ElemType.of_to]
  split
  · simp_all
  · split
    · simp_all
    · rfl

theorem dec_0x22 (d a b) (op : BitVec 6) (t : ElemType) :
    dec ⟨0x22, d, a, b, opq op t.toBits⟩ = decVecT 0x22 op.toNat (d.getLsbD 4) (d.extractLsb' 0 4) a b t := by
  have h1 : dec ⟨0x22, d, a, b, opq op t.toBits⟩ = decVec 0x22 ⟨0x22, d, a, b, opq op t.toBits⟩ := rfl
  rw [h1]
  simp only [decVec, opq_op, opq_q, ElemType.of_to]
  split
  · simp_all
  · split
    · simp_all
    · rfl

theorem dec_0x23 (d a b) (op : BitVec 6) (t : ElemType) :
    dec ⟨0x23, d, a, b, opq op t.toBits⟩ = decVecT 0x23 op.toNat (d.getLsbD 4) (d.extractLsb' 0 4) a b t := by
  have h1 : dec ⟨0x23, d, a, b, opq op t.toBits⟩ = decVec 0x23 ⟨0x23, d, a, b, opq op t.toBits⟩ := rfl
  rw [h1]
  simp only [decVec, opq_op, opq_q, ElemType.of_to]
  split
  · simp_all
  · split
    · simp_all
    · rfl

theorem dec_0x24 (d a b) (op : BitVec 6) (t : ElemType) (h : op.toNat ≠ 3 ∧ op.toNat ≠ 4) :
    dec ⟨0x24, d, a, b, opq op t.toBits⟩ = decVecT 0x24 op.toNat (d.getLsbD 4) (d.extractLsb' 0 4) a b t := by
  have h1 : dec ⟨0x24, d, a, b, opq op t.toBits⟩ = decVec 0x24 ⟨0x24, d, a, b, opq op t.toBits⟩ := rfl
  rw [h1]
  simp only [decVec, opq_op, opq_q, ElemType.of_to]
  split
  · simp_all
  · split
    · simp_all
    · rfl


theorem top_ofBool (i : Bool) (o : BitVec 4) : (BitVec.ofBool i ++ o : BitVec 5).getLsbD 4 = i := by revert i o; decide
theorem low_ofBool (i : Bool) (o : BitVec 4) : (BitVec.ofBool i ++ o : BitVec 5).extractLsb' 0 4 = o := lo_append (m := 1) (n := 4) _ o
theorem top_0 (o : BitVec 4) : (0#1 ++ o : BitVec 5).getLsbD 4 = false := by revert o; decide
theorem low_0 (o : BitVec 4) : (0#1 ++ o : BitVec 5).extractLsb' 0 4 = o := lo_append (m := 1) (n := 4) _ o
theorem top_1 (o : BitVec 4) : (1#1 ++ o : BitVec 5).getLsbD 4 = true := by revert o; decide
theorem low_1 (o : BitVec 4) : (1#1 ++ o : BitVec 5).extractLsb' 0 4 = o := lo_append (m := 1) (n := 4) _ o

/-- Major 0x08 from its parts. -/
theorem dec_mov (d) (f4 : BitVec 4) (i : BitVec 16) : dec ⟨0x08, d, f4A f4 i, half16B i, half16F i⟩ =
    match (f4.extractLsb' 2 2).toNat with
    | 0 => some (.movz d i (f4.extractLsb' 0 2))
    | 1 => some (.movk d i (f4.extractLsb' 0 2))
    | 2 => some (.movn d i (f4.extractLsb' 0 2))
    | _ => none := by
  show decMov _ = _
  simp only [decMov, f4_eq, imm16_eq] <;> rfl

/-- Major 0x0E from its parts. -/
theorem dec_branch (d) (f4 : BitVec 4) (i : BitVec 16) : dec ⟨0x0e, d, f4A f4 i, half16B i, half16F i⟩ =
    match f4.toNat with
    | 0 => some (.beqz d i)
    | 1 => some (.bnez d i)
    | 2 => some (.bltz d i)
    | 3 => some (.bgez d i)
    | 4 => some (.bgtz d i)
    | 5 => some (.blez d i)
    | _ => none := by
  show decBranch _ = _
  simp only [decBranch, f4_eq, imm16_eq] <;> rfl

/-- Major 0x1A from its parts. -/
theorem dec_fence (p : BitVec 6) (sc : Scope) (i : BitVec 16) :
    dec ⟨0x1a, p.extractLsb' 0 5, f4A (p.extractLsb' 5 1 ++ sc.toBits) i, half16B i, half16F i⟩ = some (.fence p sc i) := by
  show decFence _ = _
  simp only [decFence, f4_eq, imm16_eq, lo_append (m := 1) (n := 3), Scope.of_to, Option.map_some,
    hi_append (m := 1) (n := 3), join_append (m := 1) (n := 5) p]

/-- Major 0x16 from its parts. -/
theorem dec_atom (d a b) (sem : Sem) (w : Bool) (k : BitVec 3) (o : BitVec 4) :
    dec ⟨0x16, d, a, b, sem.toBits ++ BitVec.ofBool w ++ k ++ o⟩ = match k.toNat with
    | 0 => some (.aadd d a b sem w o)
    | 1 => some (.aand d a b sem w o)
    | 2 => some (.aor d a b sem w o)
    | 3 => some (.axor d a b sem w o)
    | 4 => some (.amin d a b sem w o)
    | 5 => some (.amax d a b sem w o)
    | 6 => some (.aswp d a b sem w o)
    | _ => some (.acas d a b sem w o) := by
  have h : ∀ (m : BitVec 2) (w : Bool) (k : BitVec 3) (o : BitVec 4),
      (m ++ BitVec.ofBool w ++ k ++ o : BitVec 10).extractLsb' 8 2 = m ∧
      (m ++ BitVec.ofBool w ++ k ++ o : BitVec 10).getLsbD 7 = w ∧
      (m ++ BitVec.ofBool w ++ k ++ o : BitVec 10).extractLsb' 4 3 = k ∧
      (m ++ BitVec.ofBool w ++ k ++ o : BitVec 10).extractLsb' 0 4 = o := by decide +kernel
  obtain ⟨h1, h2, h3, h4⟩ := h sem.toBits w k o
  show decAtom _ = _
  simp only [decAtom, Fields.q, h1, h2, h3, h4, Sem.of_to] <;> rfl

/-- Major 0x17 from its parts. -/
theorem dec_vatom (d a b) (sem : Sem) (k : BitVec 2) (t : AtomType) (o : BitVec 4) :
    dec ⟨0x17, d, a, b, sem.toBits ++ k ++ t.toBits ++ o⟩ = match k.toNat with
    | 0 => some (.vaadd d a b sem t o)
    | 1 => some (.vamin d a b sem t o)
    | 2 => some (.vamax d a b sem t o)
    | _ => none := by
  have h : ∀ (m k t : BitVec 2) (o : BitVec 4),
      (m ++ k ++ t ++ o : BitVec 10).extractLsb' 8 2 = m ∧ (m ++ k ++ t ++ o : BitVec 10).extractLsb' 6 2 = k ∧
      (m ++ k ++ t ++ o : BitVec 10).extractLsb' 4 2 = t ∧ (m ++ k ++ t ++ o : BitVec 10).extractLsb' 0 4 = o := by
    decide +kernel
  obtain ⟨h1, h2, h3, h4⟩ := h sem.toBits k t.toBits o
  show decVatom _ = _
  simp only [decVatom, Fields.q, h1, h2, h3, h4, Sem.of_to, AtomType.of_to] <;> rfl

/-- Major 0x18 from its parts. -/
theorem dec_red (a b) (k : BitVec 2) (t : AtomType) (o : BitVec 4) :
    dec ⟨0x18, 0, a, b, 0#2 ++ k ++ t.toBits ++ o⟩ = match k.toNat with
    | 0 => some (.redadd a b t o)
    | 1 => some (.redmin a b t o)
    | 2 => some (.redmax a b t o)
    | _ => none := by
  have h : ∀ (m k t : BitVec 2) (o : BitVec 4),
      (m ++ k ++ t ++ o : BitVec 10).extractLsb' 8 2 = m ∧ (m ++ k ++ t ++ o : BitVec 10).extractLsb' 6 2 = k ∧
      (m ++ k ++ t ++ o : BitVec 10).extractLsb' 4 2 = t ∧ (m ++ k ++ t ++ o : BitVec 10).extractLsb' 0 4 = o := by
    decide +kernel
  obtain ⟨h1, h2, h3, h4⟩ := h 0#2 k t.toBits o
  show decRed _ = _
  simp only [decRed, Fields.q, h1, h2, h3, h4, AtomType.of_to]; rfl

/-- Major 0x1B from its parts. -/
theorem dec_bar (d a b) (op : BitVec 3) (k : BitVec 7) : dec ⟨0x1b, d, a, b, op ++ k⟩ = match op.toNat with
    | 0 => only (d == 0 && b == 0) (.bjoin k a)
    | 1 => only (d == 0 && b == 0) (.bleave k a)
    | 2 => only (b == 0) (.barv d k a)
    | 3 => only (b == 0) (.bara d k a)
    | 4 => only (d == 0) (.bwait k a b)
    | _ => none := by
  show decBar _ = _
  simp only [decBar, hi_append (m := 3) (n := 7), lo_append (m := 3) (n := 7)] <;> rfl

/-- Major 0x1C from its parts. -/
theorem dec_0x1c (d a b) (op : BitVec 4) (k : BitVec 6) : dec ⟨0x1c, d, a, b, op ++ k⟩ = match op.toNat with
    | 0 => only (a == 0 && b == 0) (.rclaim d k)
    | 1 => only (a == 0 && b == 0) (.rclaimt d k)
    | 2 => only (d == 0 && b == 0) (.rfill k a)
    | 3 => only (b == 0) (.rawait d k a)
    | 4 => only (b == 0) (.rawaitt d k a)
    | 5 => only (d == 0 && b == 0) (.rrel k a)
    | _ => none := by
  show decRing 0x1C _ = _
  simp only [decRing, hi_append (m := 4) (n := 6), lo_append (m := 4) (n := 6)]
  generalize op.toNat = n
  match n with
  | 0 | 1 | 2 | 3 | 4 | 5 | _ + 6 => rfl

/-- Major 0x1D from its parts. -/
theorem dec_0x1d (d a b) (op : BitVec 4) (k : BitVec 6) : dec ⟨0x1d, d, a, b, op ++ k⟩ = match op.toNat with
    | 0 => only (d == 0 && b == 0) (.rcfg k a)
    | 1 => only (a == 0 && b == 0) (.rstat d k)
    | _ => none := by
  show decRing 0x1D _ = _
  simp only [decRing, hi_append (m := 4) (n := 6), lo_append (m := 4) (n := 6)]
  generalize op.toNat = n
  match n with
  | 0 | 1 | _ + 2 => rfl

/-- Major 0x37 from its parts. -/
theorem dec_link (d a b) (op : BitVec 6) : dec ⟨0x37, d, a, b, opq op 0⟩ = match op.toNat with
    | 0x00 => some (.turn d a b)
    | 0x01 => some (.lnkq d a b)
    | _ => none := by
  simp only [dec, opq_op, opq_q]; rfl

/-! ### One lemma per constructor -/

theorem add (d : Reg) (a : Reg) (b : Reg) : Statement (.add d a b) := fun _ => (dec_0x01 d a b 0x00).trans rfl
theorem sub (d : Reg) (a : Reg) (b : Reg) : Statement (.sub d a b) := fun _ => (dec_0x01 d a b 0x01).trans rfl
theorem and (d : Reg) (a : Reg) (b : Reg) : Statement (.and d a b) := fun _ => (dec_0x01 d a b 0x02).trans rfl
theorem or (d : Reg) (a : Reg) (b : Reg) : Statement (.or d a b) := fun _ => (dec_0x01 d a b 0x03).trans rfl
theorem xor (d : Reg) (a : Reg) (b : Reg) : Statement (.xor d a b) := fun _ => (dec_0x01 d a b 0x04).trans rfl
theorem andn (d : Reg) (a : Reg) (b : Reg) : Statement (.andn d a b) := fun _ => (dec_0x01 d a b 0x05).trans rfl
theorem min (d : Reg) (a : Reg) (b : Reg) : Statement (.min d a b) := fun _ => (dec_0x01 d a b 0x06).trans rfl
theorem max (d : Reg) (a : Reg) (b : Reg) : Statement (.max d a b) := fun _ => (dec_0x01 d a b 0x07).trans rfl
theorem minn (d : Reg) (a : Reg) (b : Reg) : Statement (.minn d a b) := fun _ => (dec_0x01 d a b 0x08).trans rfl
theorem maxn (d : Reg) (a : Reg) (b : Reg) : Statement (.maxn d a b) := fun _ => (dec_0x01 d a b 0x09).trans rfl
theorem addw (d : Reg) (a : Reg) (b : Reg) : Statement (.addw d a b) := fun _ => (dec_0x01 d a b 0x0a).trans rfl
theorem subw (d : Reg) (a : Reg) (b : Reg) : Statement (.subw d a b) := fun _ => (dec_0x01 d a b 0x0b).trans rfl
theorem shl (d : Reg) (a : Reg) (b : Reg) : Statement (.shl d a b) := fun _ => (dec_0x02 d a b 0x00).trans rfl
theorem shr (d : Reg) (a : Reg) (b : Reg) : Statement (.shr d a b) := fun _ => (dec_0x02 d a b 0x01).trans rfl
theorem sha (d : Reg) (a : Reg) (b : Reg) : Statement (.sha d a b) := fun _ => (dec_0x02 d a b 0x02).trans rfl
theorem rol (d : Reg) (a : Reg) (b : Reg) : Statement (.rol d a b) := fun _ => (dec_0x02 d a b 0x03).trans rfl
theorem clz (d : Reg) (a : Reg) : Statement (.clz d a) := fun _ => (dec_0x02 d a 0 0x04).trans rfl
theorem ctz (d : Reg) (a : Reg) : Statement (.ctz d a) := fun _ => (dec_0x02 d a 0 0x05).trans rfl
theorem popc (d : Reg) (a : Reg) : Statement (.popc d a) := fun _ => (dec_0x02 d a 0 0x06).trans rfl
theorem mul (d : Reg) (a : Reg) (b : Reg) : Statement (.mul d a b) := fun _ => (dec_0x03 d a b 0x00).trans rfl
theorem mulh (d : Reg) (a : Reg) (b : Reg) : Statement (.mulh d a b) := fun _ => (dec_0x03 d a b 0x01).trans rfl
theorem mulhn (d : Reg) (a : Reg) (b : Reg) : Statement (.mulhn d a b) := fun _ => (dec_0x03 d a b 0x02).trans rfl
theorem div (d : Reg) (a : Reg) (b : Reg) : Statement (.div d a b) := fun _ => (dec_0x03 d a b 0x03).trans rfl
theorem divn (d : Reg) (a : Reg) (b : Reg) : Statement (.divn d a b) := fun _ => (dec_0x03 d a b 0x04).trans rfl
theorem rem (d : Reg) (a : Reg) (b : Reg) : Statement (.rem d a b) := fun _ => (dec_0x03 d a b 0x05).trans rfl
theorem remn (d : Reg) (a : Reg) (b : Reg) : Statement (.remn d a b) := fun _ => (dec_0x03 d a b 0x06).trans rfl
theorem seq (d : Reg) (a : Reg) (b : Reg) : Statement (.seq d a b) := fun _ => (dec_0x04 d a b 0x00).trans rfl
theorem sne (d : Reg) (a : Reg) (b : Reg) : Statement (.sne d a b) := fun _ => (dec_0x04 d a b 0x01).trans rfl
theorem slt (d : Reg) (a : Reg) (b : Reg) : Statement (.slt d a b) := fun _ => (dec_0x04 d a b 0x02).trans rfl
theorem sltn (d : Reg) (a : Reg) (b : Reg) : Statement (.sltn d a b) := fun _ => (dec_0x04 d a b 0x03).trans rfl
theorem sle (d : Reg) (a : Reg) (b : Reg) : Statement (.sle d a b) := fun _ => (dec_0x04 d a b 0x04).trans rfl
theorem slen (d : Reg) (a : Reg) (b : Reg) : Statement (.slen d a b) := fun _ => (dec_0x04 d a b 0x05).trans rfl
theorem addi (d : Reg) (a : Reg) (imm : BitVec 15) : Statement (.addi d a imm) := fun _ => congrArg (fun x => some (Instr.addi d a x)) (imm15_eq _ _ _ imm)
theorem ori (d : Reg) (a : Reg) (imm : BitVec 15) : Statement (.ori d a imm) := fun _ => congrArg (fun x => some (Instr.ori d a x)) (imm15_eq _ _ _ imm)
theorem xori (d : Reg) (a : Reg) (imm : BitVec 15) : Statement (.xori d a imm) := fun _ => congrArg (fun x => some (Instr.xori d a x)) (imm15_eq _ _ _ imm)
theorem slti (d : Reg) (a : Reg) (imm : BitVec 15) : Statement (.slti d a imm) := fun _ => congrArg (fun x => some (Instr.slti d a x)) (imm15_eq _ _ _ imm)
theorem movz (d : Reg) (imm : BitVec 16) (q : BitVec 2) : Statement (.movz d imm q) := by
  intro _; refine (dec_mov d _ imm).trans ?_
  rw [hi_append (m := 2) (n := 2), lo_append (m := 2) (n := 2)]; rfl
theorem movk (d : Reg) (imm : BitVec 16) (q : BitVec 2) : Statement (.movk d imm q) := by
  intro _; refine (dec_mov d _ imm).trans ?_
  rw [hi_append (m := 2) (n := 2), lo_append (m := 2) (n := 2)]; rfl
theorem movn (d : Reg) (imm : BitVec 16) (q : BitVec 2) : Statement (.movn d imm q) := by
  intro _; refine (dec_mov d _ imm).trans ?_
  rw [hi_append (m := 2) (n := 2), lo_append (m := 2) (n := 2)]; rfl
theorem addpc (d : Reg) (imm : BitVec 15) : Statement (.addpc d imm) := fun _ => congrArg (fun x => some (Instr.addpc d x)) (imm15_eq _ _ _ imm)
theorem shadd1 (d : Reg) (a : Reg) (b : Reg) : Statement (.shadd1 d a b) := fun _ => (dec_0x0a d a b 0x00).trans rfl
theorem shadd2 (d : Reg) (a : Reg) (b : Reg) : Statement (.shadd2 d a b) := fun _ => (dec_0x0a d a b 0x01).trans rfl
theorem shadd3 (d : Reg) (a : Reg) (b : Reg) : Statement (.shadd3 d a b) := fun _ => (dec_0x0a d a b 0x02).trans rfl
theorem shadd4 (d : Reg) (a : Reg) (b : Reg) : Statement (.shadd4 d a b) := fun _ => (dec_0x0a d a b 0x03).trans rfl
theorem j (off : BitVec 25) : Statement (.j off) := fun _ => congrArg (fun x => some (Instr.j x)) (off25_eq _ off)
theorem call (off : BitVec 25) : Statement (.call off) := fun _ => congrArg (fun x => some (Instr.call x)) (off25_eq _ off)
theorem beqz (d : Reg) (off : BitVec 16) : Statement (.beqz d off) := fun _ => (dec_branch d 0 off).trans rfl
theorem bnez (d : Reg) (off : BitVec 16) : Statement (.bnez d off) := fun _ => (dec_branch d 1 off).trans rfl
theorem bltz (d : Reg) (off : BitVec 16) : Statement (.bltz d off) := fun _ => (dec_branch d 2 off).trans rfl
theorem bgez (d : Reg) (off : BitVec 16) : Statement (.bgez d off) := fun _ => (dec_branch d 3 off).trans rfl
theorem bgtz (d : Reg) (off : BitVec 16) : Statement (.bgtz d off) := fun _ => (dec_branch d 4 off).trans rfl
theorem blez (d : Reg) (off : BitVec 16) : Statement (.blez d off) := fun _ => (dec_branch d 5 off).trans rfl
theorem jr (a : Reg) : Statement (.jr a) := fun _ => (dec_0x0f 0 a 0 0x00).trans rfl
theorem callr (d : Reg) (a : Reg) : Statement (.callr d a) := fun _ => (dec_0x0f d a 0 0x01).trans rfl
theorem loops (a : Reg) (b : Reg) : Statement (.loops a b) := fun _ => (dec_0x0f 0 a b 0x02).trans rfl
theorem loopx : Statement (.loopx) := fun _ => (dec_0x0f 0 0 0 0x03).trans rfl
theorem ld (d : Reg) (a : Reg) (imm : BitVec 11) (o : Cls) : Statement (.ld d a imm o) := fun _ => congrArg₂ (fun x y => some (Instr.ld d a x y)) (imm11_eq _ _ _ _ _) (o_eq _ _ _ _ _ _)
theorem ldS32 (d : Reg) (a : Reg) (imm : BitVec 11) (o : Cls) : Statement (.ldS32 d a imm o) := fun _ => congrArg₂ (fun x y => some (Instr.ldS32 d a x y)) (imm11_eq _ _ _ _ _) (o_eq _ _ _ _ _ _)
theorem st (d : Reg) (a : Reg) (imm : BitVec 11) (o : Cls) : Statement (.st d a imm o) := fun _ => congrArg₂ (fun x y => some (Instr.st d a x y)) (imm11_eq _ _ _ _ _) (o_eq _ _ _ _ _ _)
theorem stN32 (d : Reg) (a : Reg) (imm : BitVec 11) (o : Cls) : Statement (.stN32 d a imm o) := fun _ => congrArg₂ (fun x y => some (Instr.stN32 d a x y)) (imm11_eq _ _ _ _ _) (o_eq _ _ _ _ _ _)
theorem ldS8 (d : Reg) (a : Reg) (b : Reg) (o : Cls) : Statement (.ldS8 d a b o) := fun _ => (dec_0x14 d a b 0x00 o).trans rfl
theorem ldN8 (d : Reg) (a : Reg) (b : Reg) (o : Cls) : Statement (.ldN8 d a b o) := fun _ => (dec_0x14 d a b 0x01 o).trans rfl
theorem ldS16 (d : Reg) (a : Reg) (b : Reg) (o : Cls) : Statement (.ldS16 d a b o) := fun _ => (dec_0x14 d a b 0x02 o).trans rfl
theorem ldN16 (d : Reg) (a : Reg) (b : Reg) (o : Cls) : Statement (.ldN16 d a b o) := fun _ => (dec_0x14 d a b 0x03 o).trans rfl
theorem ldN32 (d : Reg) (a : Reg) (b : Reg) (o : Cls) : Statement (.ldN32 d a b o) := fun _ => (dec_0x14 d a b 0x04 o).trans rfl
theorem ldx (d : Reg) (a : Reg) (b : Reg) (o : Cls) : Statement (.ldx d a b o) := fun _ => (dec_0x14 d a b 0x05 o).trans rfl
theorem stN8 (d : Reg) (a : Reg) (b : Reg) (o : Cls) : Statement (.stN8 d a b o) := fun _ => (dec_0x15 d a b 0x00 o).trans rfl
theorem stN16 (d : Reg) (a : Reg) (b : Reg) (o : Cls) : Statement (.stN16 d a b o) := fun _ => (dec_0x15 d a b 0x01 o).trans rfl
theorem stx (d : Reg) (a : Reg) (b : Reg) (o : Cls) : Statement (.stx d a b o) := fun _ => (dec_0x15 d a b 0x02 o).trans rfl
theorem ldAcq (d : Reg) (a : Reg) (o : Cls) : Statement (.ldAcq d a o) := fun _ => (dec_0x15 d a 0 0x03 o).trans rfl
theorem stRel (d : Reg) (a : Reg) (o : Cls) : Statement (.stRel d a o) := fun _ => (dec_0x15 d a 0 0x04 o).trans rfl
theorem aadd (d : Reg) (a : Reg) (b : Reg) (sem : Sem) (w : Bool) (o : Cls) : Statement (.aadd d a b sem w o) := fun _ => (dec_atom d a b sem w 0 o).trans rfl
theorem aand (d : Reg) (a : Reg) (b : Reg) (sem : Sem) (w : Bool) (o : Cls) : Statement (.aand d a b sem w o) := fun _ => (dec_atom d a b sem w 1 o).trans rfl
theorem aor (d : Reg) (a : Reg) (b : Reg) (sem : Sem) (w : Bool) (o : Cls) : Statement (.aor d a b sem w o) := fun _ => (dec_atom d a b sem w 2 o).trans rfl
theorem axor (d : Reg) (a : Reg) (b : Reg) (sem : Sem) (w : Bool) (o : Cls) : Statement (.axor d a b sem w o) := fun _ => (dec_atom d a b sem w 3 o).trans rfl
theorem amin (d : Reg) (a : Reg) (b : Reg) (sem : Sem) (w : Bool) (o : Cls) : Statement (.amin d a b sem w o) := fun _ => (dec_atom d a b sem w 4 o).trans rfl
theorem amax (d : Reg) (a : Reg) (b : Reg) (sem : Sem) (w : Bool) (o : Cls) : Statement (.amax d a b sem w o) := fun _ => (dec_atom d a b sem w 5 o).trans rfl
theorem aswp (d : Reg) (a : Reg) (b : Reg) (sem : Sem) (w : Bool) (o : Cls) : Statement (.aswp d a b sem w o) := fun _ => (dec_atom d a b sem w 6 o).trans rfl
theorem acas (d : Reg) (a : Reg) (b : Reg) (sem : Sem) (w : Bool) (o : Cls) : Statement (.acas d a b sem w o) := fun _ => (dec_atom d a b sem w 7 o).trans rfl
theorem vaadd (d : Reg) (a : Reg) (b : Reg) (sem : Sem) (t : AtomType) (o : Cls) : Statement (.vaadd d a b sem t o) := fun _ => (dec_vatom d a b sem 0 t o).trans rfl
theorem vamin (d : Reg) (a : Reg) (b : Reg) (sem : Sem) (t : AtomType) (o : Cls) : Statement (.vamin d a b sem t o) := fun _ => (dec_vatom d a b sem 1 t o).trans rfl
theorem vamax (d : Reg) (a : Reg) (b : Reg) (sem : Sem) (t : AtomType) (o : Cls) : Statement (.vamax d a b sem t o) := fun _ => (dec_vatom d a b sem 2 t o).trans rfl
theorem redadd (a : Reg) (b : Reg) (t : AtomType) (o : Cls) : Statement (.redadd a b t o) := fun _ => (dec_red a b 0 t o).trans rfl
theorem redmin (a : Reg) (b : Reg) (t : AtomType) (o : Cls) : Statement (.redmin a b t o) := fun _ => (dec_red a b 1 t o).trans rfl
theorem redmax (a : Reg) (b : Reg) (t : AtomType) (o : Cls) : Statement (.redmax a b t o) := fun _ => (dec_red a b 2 t o).trans rfl
theorem fence (paths : BitVec 6) (scope : Scope) (mask : BitVec 16) : Statement (.fence paths scope mask) := by
  intro _; refine (dec_fence paths scope mask).trans ?_; rfl
theorem fenceComplete (x0 : CluIx) (x1 : Nat) : Statement (.fenceComplete x0 x1) := fun h => nomatch h
theorem bjoin (k : BitVec 7) (a : Reg) : Statement (.bjoin k a) := fun _ => (dec_bar 0 a 0 0 k).trans rfl
theorem bleave (k : BitVec 7) (a : Reg) : Statement (.bleave k a) := fun _ => (dec_bar 0 a 0 1 k).trans rfl
theorem barv (d : Reg) (k : BitVec 7) (a : Reg) : Statement (.barv d k a) := fun _ => (dec_bar d a 0 2 k).trans rfl
theorem bara (d : Reg) (k : BitVec 7) (a : Reg) : Statement (.bara d k a) := fun _ => (dec_bar d a 0 3 k).trans rfl
theorem bwait (k : BitVec 7) (a : Reg) (b : Reg) : Statement (.bwait k a b) := fun _ => (dec_bar 0 a b 4 k).trans rfl
theorem rclaim (d : Reg) (k : BitVec 6) : Statement (.rclaim d k) := fun _ => (dec_0x1c d 0 0 0 k).trans rfl
theorem rclaimt (d : Reg) (k : BitVec 6) : Statement (.rclaimt d k) := fun _ => (dec_0x1c d 0 0 1 k).trans rfl
theorem rfill (k : BitVec 6) (a : Reg) : Statement (.rfill k a) := fun _ => (dec_0x1c 0 a 0 2 k).trans rfl
theorem rawait (d : Reg) (k : BitVec 6) (a : Reg) : Statement (.rawait d k a) := fun _ => (dec_0x1c d a 0 3 k).trans rfl
theorem rawaitt (d : Reg) (k : BitVec 6) (a : Reg) : Statement (.rawaitt d k a) := fun _ => (dec_0x1c d a 0 4 k).trans rfl
theorem rrel (k : BitVec 6) (a : Reg) : Statement (.rrel k a) := fun _ => (dec_0x1c 0 a 0 5 k).trans rfl
theorem rcfg (k : BitVec 6) (a : Reg) : Statement (.rcfg k a) := fun _ => (dec_0x1d 0 a 0 0 k).trans rfl
theorem rstat (d : Reg) (k : BitVec 6) : Statement (.rstat d k) := fun _ => (dec_0x1d d 0 0 1 k).trans rfl
theorem spawn (d : Reg) (a : Reg) (b : Reg) (o : Cls) : Statement (.spawn d a b o) := fun _ => (dec_0x1e d a b 0x00 o).trans rfl
theorem jdec (d : Reg) (a : Reg) (o : Cls) : Statement (.jdec d a o) := fun _ => (dec_0x1e d a 0 0x01 o).trans rfl
theorem exit (o : Cls) : Statement (.exit o) := fun _ => (dec_0x1e 0 0 0 0x02 o).trans rfl
theorem yield (a : Reg) (o : Cls) : Statement (.yield a o) := fun _ => (dec_0x1e 0 a 0 0x03 o).trans rfl
theorem crec (d : Reg) (k : BitVec 5) : Statement (.crec d k) := fun _ => (dec_0x1e d k 0 0x04 0).trans rfl
theorem jset (d : Reg) (a : Reg) (b : Reg) (o : Cls) : Statement (.jset d a b o) := fun _ => (dec_0x1e d a b 0x05 o).trans rfl
theorem vadd (i : Bool) (o : Cls) (a : Reg) (b : Reg) (t : ElemType) : Statement (.vadd i o a b t) := by
  intro _; refine (dec_0x20 _ a b 0x00 t).trans ?_
  rw [top_ofBool, low_ofBool]; rfl
theorem vsub (i : Bool) (o : Cls) (a : Reg) (b : Reg) (t : ElemType) : Statement (.vsub i o a b t) := by
  intro _; refine (dec_0x20 _ a b 0x01 t).trans ?_
  rw [top_ofBool, low_ofBool]; rfl
theorem vmul (i : Bool) (o : Cls) (a : Reg) (b : Reg) (t : ElemType) : Statement (.vmul i o a b t) := by
  intro _; refine (dec_0x20 _ a b 0x02 t).trans ?_
  rw [top_ofBool, low_ofBool]; rfl
theorem vmac (i : Bool) (o : Cls) (a : Reg) (b : Reg) (t : ElemType) : Statement (.vmac i o a b t) := by
  intro _; refine (dec_0x20 _ a b 0x03 t).trans ?_
  rw [top_ofBool, low_ofBool]; rfl
theorem vmin (i : Bool) (o : Cls) (a : Reg) (b : Reg) (t : ElemType) : Statement (.vmin i o a b t) := by
  intro _; refine (dec_0x20 _ a b 0x04 t).trans ?_
  rw [top_ofBool, low_ofBool]; rfl
theorem vmax (i : Bool) (o : Cls) (a : Reg) (b : Reg) (t : ElemType) : Statement (.vmax i o a b t) := by
  intro _; refine (dec_0x20 _ a b 0x05 t).trans ?_
  rw [top_ofBool, low_ofBool]; rfl
theorem vabs (o : Cls) (a : Reg) (b : Reg) (t : ElemType) : Statement (.vabs o a b t) := by
  intro _; refine (dec_0x20 _ a b 0x06 t).trans ?_
  rw [top_0, low_0]; rfl
theorem vneg (o : Cls) (a : Reg) (b : Reg) (t : ElemType) : Statement (.vneg o a b t) := by
  intro _; refine (dec_0x20 _ a b 0x07 t).trans ?_
  rw [top_0, low_0]; rfl
theorem vscale (o : Cls) (a : Reg) (b : Reg) (t : ElemType) : Statement (.vscale o a b t) := by
  intro _; refine (dec_0x20 _ a b 0x08 t).trans ?_
  rw [top_1, low_1]; rfl
theorem vexp (o : Cls) (a : Reg) (b : Reg) (t : ElemType) : Statement (.vexp o a b t) := by
  intro _; refine (dec_0x21 _ a b 0x00 t).trans ?_
  rw [top_0, low_0]; rfl
theorem vlog (o : Cls) (a : Reg) (b : Reg) (t : ElemType) : Statement (.vlog o a b t) := by
  intro _; refine (dec_0x21 _ a b 0x01 t).trans ?_
  rw [top_0, low_0]; rfl
theorem vrcp (o : Cls) (a : Reg) (b : Reg) (t : ElemType) : Statement (.vrcp o a b t) := by
  intro _; refine (dec_0x21 _ a b 0x02 t).trans ?_
  rw [top_0, low_0]; rfl
theorem vrsqrt (o : Cls) (a : Reg) (b : Reg) (t : ElemType) : Statement (.vrsqrt o a b t) := by
  intro _; refine (dec_0x21 _ a b 0x03 t).trans ?_
  rw [top_0, low_0]; rfl
theorem vtanh (o : Cls) (a : Reg) (b : Reg) (t : ElemType) : Statement (.vtanh o a b t) := by
  intro _; refine (dec_0x21 _ a b 0x04 t).trans ?_
  rw [top_0, low_0]; rfl
theorem vsigm (o : Cls) (a : Reg) (b : Reg) (t : ElemType) : Statement (.vsigm o a b t) := by
  intro _; refine (dec_0x21 _ a b 0x05 t).trans ?_
  rw [top_0, low_0]; rfl
theorem vcvt (o : Cls) (a : Reg) (b : Reg) (t : ElemType) : Statement (.vcvt o a b t) := by
  intro _; refine (dec_0x22 _ a b 0x00 t).trans ?_
  rw [top_0, low_0]; rfl
theorem vcvtz (o : Cls) (a : Reg) (b : Reg) (t : ElemType) : Statement (.vcvtz o a b t) := by
  intro _; refine (dec_0x22 _ a b 0x01 t).trans ?_
  rw [top_0, low_0]; rfl
theorem vsum (o : Cls) (a : Reg) (b : Reg) (t : ElemType) : Statement (.vsum o a b t) := by
  intro _; refine (dec_0x22 _ a b 0x02 t).trans ?_
  rw [top_0, low_0]; rfl
theorem vrmax (o : Cls) (a : Reg) (b : Reg) (t : ElemType) : Statement (.vrmax o a b t) := by
  intro _; refine (dec_0x22 _ a b 0x03 t).trans ?_
  rw [top_0, low_0]; rfl
theorem vdot (o : Cls) (a : Reg) (b : Reg) (t : ElemType) : Statement (.vdot o a b t) := by
  intro _; refine (dec_0x22 _ a b 0x04 t).trans ?_
  rw [top_0, low_0]; rfl
theorem vcmpeq (i : Bool) (o : Cls) (a : Reg) (b : Reg) (t : ElemType) : Statement (.vcmpeq i o a b t) := by
  intro _; refine (dec_0x23 _ a b 0x00 t).trans ?_
  rw [top_ofBool, low_ofBool]; rfl
theorem vcmplt (i : Bool) (o : Cls) (a : Reg) (b : Reg) (t : ElemType) : Statement (.vcmplt i o a b t) := by
  intro _; refine (dec_0x23 _ a b 0x01 t).trans ?_
  rw [top_ofBool, low_ofBool]; rfl
theorem vcmple (i : Bool) (o : Cls) (a : Reg) (b : Reg) (t : ElemType) : Statement (.vcmple i o a b t) := by
  intro _; refine (dec_0x23 _ a b 0x02 t).trans ?_
  rw [top_ofBool, low_ofBool]; rfl
theorem vsel (i : Bool) (o : Cls) (a : Reg) (b : Reg) (t : ElemType) : Statement (.vsel i o a b t) := by
  intro _; refine (dec_0x23 _ a b 0x03 t).trans ?_
  rw [top_ofBool, low_ofBool]; rfl
theorem vand (i : Bool) (o : Cls) (a : Reg) (b : Reg) (t : ElemType) : Statement (.vand i o a b t) := by
  intro _; refine (dec_0x23 _ a b 0x04 t).trans ?_
  rw [top_ofBool, low_ofBool]; rfl
theorem vor (i : Bool) (o : Cls) (a : Reg) (b : Reg) (t : ElemType) : Statement (.vor i o a b t) := by
  intro _; refine (dec_0x23 _ a b 0x05 t).trans ?_
  rw [top_ofBool, low_ofBool]; rfl
theorem vxor (i : Bool) (o : Cls) (a : Reg) (b : Reg) (t : ElemType) : Statement (.vxor i o a b t) := by
  intro _; refine (dec_0x23 _ a b 0x06 t).trans ?_
  rw [top_ofBool, low_ofBool]; rfl
theorem vshl (i : Bool) (o : Cls) (a : Reg) (b : Reg) (t : ElemType) : Statement (.vshl i o a b t) := by
  intro _; refine (dec_0x23 _ a b 0x07 t).trans ?_
  rw [top_ofBool, low_ofBool]; rfl
theorem vshr (i : Bool) (o : Cls) (a : Reg) (b : Reg) (t : ElemType) : Statement (.vshr i o a b t) := by
  intro _; refine (dec_0x23 _ a b 0x08 t).trans ?_
  rw [top_ofBool, low_ofBool]; rfl
theorem vcopy (o : Cls) (a : Reg) (b : Reg) (t : ElemType) : Statement (.vcopy o a b t) := by
  intro _; refine (dec_0x24 _ a b 0x00 t (by decide)).trans ?_
  rw [top_0, low_0]; rfl
theorem vfill (i : Bool) (o : Cls) (a : Reg) (b : Reg) (t : ElemType) : Statement (.vfill i o a b t) := by
  intro _; refine (dec_0x24 _ a b 0x01 t (by decide)).trans ?_
  rw [top_ofBool, low_ofBool]; rfl
theorem vpred (o : Cls) (a : Reg) (b : Reg) (t : ElemType) : Statement (.vpred o a b t) := by
  intro _; refine (dec_0x24 _ a b 0x02 t (by decide)).trans ?_
  rw [top_0, low_0]; rfl
theorem vfence (a : Reg) : Statement (.vfence a) := by
  intro _
  show decVec 0x24 ⟨0x24, 0, a, 0, opq 0x03 0⟩ = _
  simp only [decVec, opq_op, opq_q]; rfl
theorem vbusy (d : Reg) : Statement (.vbusy d) := by
  intro _
  show decVec 0x24 ⟨0x24, d, 0, 0, opq 0x04 0⟩ = _
  simp only [decVec, opq_op, opq_q]; rfl
theorem vectorCommandStart (x0 : CoreIx) (x1 : Nat) : Statement (.vectorCommandStart x0 x1) := fun h => nomatch h
theorem vectorCommandComplete (x0 : CoreIx) (x1 : Nat) : Statement (.vectorCommandComplete x0 x1) := fun h => nomatch h
theorem hzcfg (k : BitVec 4) (d : Reg) (a : Reg) (b : Reg) : Statement (.hzcfg k d a b) := fun _ => (dec_0x26 d a b 0x00 k).trans rfl
theorem hzpsh (k : BitVec 4) (a : Reg) (o : Cls) : Statement (.hzpsh k a o) := by
  intro _; refine (dec_0x26 (0#1 ++ o) a 0 0x01 k).trans ?_
  simp only [decHz, top_0, low_0]; rfl
theorem hzpshR (k : BitVec 4) (b : Reg) : Statement (.hzpshR k b) := fun _ => (dec_0x26 0x10 0 b 0x01 k).trans rfl
theorem hzest (d : Reg) (k : BitVec 4) : Statement (.hzest d k) := fun _ => (dec_0x26 d 0 0 0x02 k).trans rfl
theorem hzrd (k : BitVec 4) (a : Reg) (o : Cls) : Statement (.hzrd k a o) := by
  intro _; refine (dec_0x26 (0#1 ++ o) a 0 0x03 k).trans ?_
  simp only [decHz, top_0, low_0]; rfl
theorem hzclr (k : BitVec 4) : Statement (.hzclr k) := fun _ => (dec_0x26 0 0 0 0x04 k).trans rfl
theorem horizonCheckpoint (x0 : CoreIx) (x1 : Nat) : Statement (.horizonCheckpoint x0 x1) := fun h => nomatch h
theorem mxcfg (a : Reg) (b : Reg) : Statement (.mxcfg a b) := fun _ => (dec_0x28 0 a b 0x00 0).trans rfl
theorem mxgo (o : Cls) : Statement (.mxgo o) := fun _ => (dec_0x28 0 0 0 0x01 o).trans rfl
theorem mxwait : Statement (.mxwait) := fun _ => (dec_0x28 0 0 0 0x02 0).trans rfl
theorem mxstat (d : Reg) : Statement (.mxstat d) := fun _ => (dec_0x28 d 0 0 0x03 0).trans rfl
theorem mxidx (a : Reg) (o : Cls) : Statement (.mxidx a o) := fun _ => (dec_0x28 0 a 0 0x04 o).trans rfl
theorem sqp (a : Reg) : Statement (.sqp a) := fun _ => (dec_0x28 0 a 0 0x05 0).trans rfl
theorem sqld (a : Reg) (b : Reg) (o : Cls) : Statement (.sqld a b o) := fun _ => (dec_0x28 0 a b 0x06 o).trans rfl
theorem mxdrain (a : Reg) (b : Reg) (o : Cls) : Statement (.mxdrain a b o) := fun _ => (dec_0x28 0 a b 0x07 o).trans rfl
theorem mxfrz : Statement (.mxfrz) := fun _ => (dec_0x28 0 0 0 0x08 0).trans rfl
theorem mxthaw : Statement (.mxthaw) := fun _ => (dec_0x28 0 0 0 0x09 0).trans rfl
theorem mxprog (d : Reg) : Statement (.mxprog d) := fun _ => (dec_0x28 d 0 0 0x0a 0).trans rfl
theorem mxclr : Statement (.mxclr) := fun _ => (dec_0x28 0 0 0 0x0b 0).trans rfl
theorem nestStart (x0 : CoreIx) : Statement (.nestStart x0) := fun h => nomatch h
theorem matrixChunk (x0 : CoreIx) : Statement (.matrixChunk x0) := fun h => nomatch h
theorem sqldEntryPush (x0 : CoreIx) : Statement (.sqldEntryPush x0) := fun h => nomatch h
theorem nestComplete (x0 : CoreIx) : Statement (.nestComplete x0) := fun h => nomatch h
theorem tileTransferLock (x0 : CoreIx) (x1 : Nat) : Statement (.tileTransferLock x0 x1) := fun h => nomatch h
theorem tileTransferRelease (x0 : CoreIx) (x1 : Nat) : Statement (.tileTransferRelease x0 x1) := fun h => nomatch h
theorem cpy (d : Reg) (a : Reg) (b : Reg) (o : Cls) : Statement (.cpy d a b o) := fun _ => (dec_0x2e d a b 0x00 o).trans rfl
theorem cpyp (a : Reg) (b : Reg) (o : Cls) : Statement (.cpyp a b o) := fun _ => (dec_0x2e 0 a b 0x01 o).trans rfl
theorem cpinv (a : Reg) (b : Reg) : Statement (.cpinv a b) := fun _ => (dec_0x2e 0 a b 0x02 0).trans rfl
theorem cpquie (d : Reg) (a : Reg) : Statement (.cpquie d a) := fun _ => (dec_0x2e d a 0 0x03 0).trans rfl
theorem cpwait (a : Reg) : Statement (.cpwait a) := fun _ => (dec_0x2e 0 a 0 0x04 0).trans rfl
theorem cpstat (d : Reg) (a : Reg) : Statement (.cpstat d a) := fun _ => (dec_0x2e d a 0 0x05 0).trans rfl
theorem cpprog (d : Reg) (a : Reg) : Statement (.cpprog d a) := fun _ => (dec_0x2e d a 0 0x06 0).trans rfl
theorem cpnest (a : Reg) (b : Reg) (o : Cls) : Statement (.cpnest a b o) := fun _ => (dec_0x2e 0 a b 0x07 o).trans rfl
theorem cpsat (d : Reg) (a : Reg) (b : Reg) : Statement (.cpsat d a b) := fun _ => (dec_0x2e d a b 0x08 0).trans rfl
theorem cpsel (d : Reg) (a : Reg) : Statement (.cpsel d a) := fun _ => (dec_0x2e d a 0 0x09 0).trans rfl
theorem blockFetch (x0 : CoreIx) (x1 : Nat) : Statement (.blockFetch x0 x1) := fun h => nomatch h
theorem cpinvEffect (x0 : CoreIx) (x1 : Nat) : Statement (.cpinvEffect x0 x1) := fun h => nomatch h
theorem cpnestEffect (x0 : CoreIx) (x1 : Nat) : Statement (.cpnestEffect x0 x1) := fun h => nomatch h
theorem ringUnitClaim (x0 : CoreIx) (x1 : Nat) : Statement (.ringUnitClaim x0 x1) := fun h => nomatch h
theorem innermostCopy (x0 : CoreIx) (x1 : Nat) : Statement (.innermostCopy x0 x1) := fun h => nomatch h
theorem ringUnitFill (x0 : CoreIx) (x1 : Nat) : Statement (.ringUnitFill x0 x1) := fun h => nomatch h
theorem copyCommandComplete (x0 : CoreIx) (x1 : Nat) : Statement (.copyCommandComplete x0 x1) := fun h => nomatch h
theorem narrowWindowBoundary (x0 : CoreIx) (x1 : Nat) : Statement (.narrowWindowBoundary x0 x1) := fun h => nomatch h
theorem lfmt (d : Reg) (a : Reg) (b : Reg) : Statement (.lfmt d a b) := fun _ => (dec_0x32 d a b 0x00 0).trans rfl
theorem lmcst (a : Reg) (b : Reg) (o : Cls) : Statement (.lmcst a b o) := fun _ => (dec_0x32 0 a b 0x01 o).trans rfl
theorem ldot (d : Reg) (a : Reg) (b : Reg) (o : Cls) : Statement (.ldot d a b o) := fun _ => (dec_0x32 d a b 0x02 o).trans rfl
theorem lhzc (a : Reg) : Statement (.lhzc a) := fun _ => (dec_0x32 0 a 0 0x03 0).trans rfl
theorem lrsync (a : Reg) : Statement (.lrsync a) := fun _ => (dec_0x32 0 a 0 0x04 0).trans rfl
theorem lsafe : Statement (.lsafe) := fun _ => (dec_0x32 0 0 0 0x05 0).trans rfl
theorem lpoll (d : Reg) (a : Reg) : Statement (.lpoll d a) := fun _ => (dec_0x32 d a 0 0x06 0).trans rfl
theorem lclr : Statement (.lclr) := fun _ => (dec_0x32 0 0 0 0x07 0).trans rfl
theorem lrtgt (a : Reg) : Statement (.lrtgt a) := fun _ => (dec_0x32 0 a 0 0x08 0).trans rfl
theorem lstat (d : Reg) (a : Reg) : Statement (.lstat d a) := fun _ => (dec_0x32 d a 0 0x09 0).trans rfl
theorem macroBroadcast (x0 : DieIx) : Statement (.macroBroadcast x0) := fun h => nomatch h
theorem laneMacroRun (x0 : DieIx) (x1 : Nat) : Statement (.laneMacroRun x0 x1) := fun h => nomatch h
theorem lanePlaneRead (x0 : DieIx) (x1 : Nat) : Statement (.lanePlaneRead x0 x1) := fun h => nomatch h
theorem rowResultDelivery (x0 : DieIx) (x1 : Nat) (x2 : Nat) : Statement (.rowResultDelivery x0 x1 x2) := fun h => nomatch h
theorem multicastLand (x0 : DieIx) (x1 : Nat) : Statement (.multicastLand x0 x1) := fun h => nomatch h
theorem lrsyncDrain (x0 : DieIx) : Statement (.lrsyncDrain x0) := fun h => nomatch h
theorem lsafeComplete (x0 : DieIx) : Statement (.lsafeComplete x0) := fun h => nomatch h
theorem laneWatchdogReset (x0 : DieIx) : Statement (.laneWatchdogReset x0) := fun h => nomatch h
theorem laneParityReplay (x0 : DieIx) (x1 : Nat) : Statement (.laneParityReplay x0 x1) := fun h => nomatch h
theorem turn (d : Reg) (a : Reg) (b : Reg) : Statement (.turn d a b) := fun _ => (dec_link d a b 0x00).trans rfl
theorem lnkq (d : Reg) (a : Reg) (b : Reg) : Statement (.lnkq d a b) := fun _ => (dec_link d a b 0x01).trans rfl
theorem turnStart (x0 : LinkIx) : Statement (.turnStart x0) := fun h => nomatch h
theorem turnEffect (x0 : LinkIx) : Statement (.turnEffect x0) := fun h => nomatch h
theorem deadTimeEnd (x0 : LinkIx) : Statement (.deadTimeEnd x0) := fun h => nomatch h
theorem forcedTurn (x0 : LinkIx) : Statement (.forcedTurn x0) := fun h => nomatch h
theorem getc (d : Reg) (c : BitVec 12) : Statement (.getc d c) := by
  intro _
  show only (_ && (cregB c).extractLsb' 2 3 == 0) _ = _
  rw [creg_hi]
  exact congrArg (fun x => some (Instr.getc d x)) (creg_eq c)
theorem setc (c : BitVec 12) (a : Reg) : Statement (.setc c a) := by
  intro _
  show only (_ && (cregB c).extractLsb' 2 3 == 0) _ = _
  rw [creg_hi]
  exact congrArg (fun x => some (Instr.setc x a)) (creg_eq c)
theorem brk (k : BitVec 5) : Statement (.brk k) := fun _ => (dec_0x3a k 0 0 0x00).trans rfl
theorem rett : Statement (.rett) := fun _ => (dec_0x3a 0 0 0 0x01).trans rfl
theorem csave (d : Reg) (a : Reg) : Statement (.csave d a) := fun _ => (dec_0x3a d a 0 0x02).trans rfl
theorem crest (d : Reg) (a : Reg) : Statement (.crest d a) := fun _ => (dec_0x3a d a 0 0x03).trans rfl
theorem ckpt (d : Reg) : Statement (.ckpt d) := fun _ => (dec_0x3a d 0 0 0x04).trans rfl
theorem wscall (d : Reg) (a : Reg) (b : Reg) : Statement (.wscall d a b) := fun _ => (dec_0x3a d a b 0x05).trans rfl
theorem idle (a : Reg) : Statement (.idle a) := fun _ => (dec_0x3a 0 a 0 0x06).trans rfl
theorem tlbinv (a : Reg) (b : Reg) : Statement (.tlbinv a b) := fun _ => (dec_0x3a 0 a b 0x07).trans rfl
theorem fadd (d : Reg) (a : Reg) (b : Reg) : Statement (.fadd d a b) := fun _ => (dec_0x3c d a b 0x00 0).trans rfl
theorem fsub (d : Reg) (a : Reg) (b : Reg) : Statement (.fsub d a b) := fun _ => (dec_0x3c d a b 0x01 0).trans rfl
theorem fmul (d : Reg) (a : Reg) (b : Reg) : Statement (.fmul d a b) := fun _ => (dec_0x3c d a b 0x02 0).trans rfl
theorem fmac (d : Reg) (a : Reg) (b : Reg) : Statement (.fmac d a b) := fun _ => (dec_0x3c d a b 0x03 0).trans rfl
theorem fdiv (d : Reg) (a : Reg) (b : Reg) : Statement (.fdiv d a b) := fun _ => (dec_0x3c d a b 0x04 0).trans rfl
theorem fsqrt (d : Reg) (a : Reg) : Statement (.fsqrt d a) := fun _ => (dec_0x3c d a 0 0x05 0).trans rfl
theorem fcmp (cc : CmpCond) (d : Reg) (a : Reg) (b : Reg) : Statement (.fcmp cc d a b) := by
  intro _; refine (dec_0x3c d a b 0x06 (cc.toBits)).trans ?_; simp [decFp, CmpCond.of_to]
theorem fcvt (cv : CvtOp) (d : Reg) (a : Reg) : Statement (.fcvt cv d a) := by
  intro _; refine (dec_0x3c d a 0 0x07 (cv.toBits)).trans ?_; simp [decFp, CvtOp.of_to, only]
theorem bundleIssue (x0 : CoreIx) : Statement (.bundleIssue x0) := fun h => nomatch h
theorem syncWaitWatchdog (x0 : CluIx) : Statement (.syncWaitWatchdog x0) := fun h => nomatch h
theorem loadDataReturn (x0 : CluIx) : Statement (.loadDataReturn x0) := fun h => nomatch h
theorem asyncTrapEntry (x0 : CluIx) : Statement (.asyncTrapEntry x0) := fun h => nomatch h
theorem pipelineReplay (x0 : CluIx) : Statement (.pipelineReplay x0) := fun h => nomatch h
theorem atomicExecute (x0 : CluIx) : Statement (.atomicExecute x0) := fun h => nomatch h
theorem atomicResponse (x0 : CluIx) : Statement (.atomicResponse x0) := fun h => nomatch h
theorem reductionApplyHome (x0 : Nat) : Statement (.reductionApplyHome x0) := fun h => nomatch h
theorem mergeEntryForward (x0 : Nat) : Statement (.mergeEntryForward x0) := fun h => nomatch h
theorem peerAccessArrival (x0 : Nat) : Statement (.peerAccessArrival x0) := fun h => nomatch h
theorem flitCrcRetry (x0 : LinkIx) : Statement (.flitCrcRetry x0) := fun h => nomatch h
theorem groupRetrainDone (x0 : LinkIx) : Statement (.groupRetrainDone x0) := fun h => nomatch h
theorem flitSendTimeout (x0 : Nat) : Statement (.flitSendTimeout x0) := fun h => nomatch h
theorem hostMemoryWrite (x0 : DieIx) (x1 : Nat) (x2 : List Byte) : Statement (.hostMemoryWrite x0 x1 x2) := fun h => nomatch h
theorem hostMemoryRead (x0 : DieIx) (x1 : Nat) (x2 : Nat) : Statement (.hostMemoryRead x0 x1 x2) := fun h => nomatch h
theorem hostControlWrite (x0 : DieIx) (x1 : Nat) (x2 : Word) : Statement (.hostControlWrite x0 x1 x2) := fun h => nomatch h
theorem notify (x0 : DieIx) (x1 : Word) : Statement (.notify x0 x1) := fun h => nomatch h
theorem qslotMap (x0 : DieIx) (x1 : Nat) (x2 : Word) (x3 : Bool) : Statement (.qslotMap x0 x1 x2 x3) := fun h => nomatch h
theorem qslotUnmap (x0 : DieIx) (x1 : Nat) : Statement (.qslotUnmap x0 x1) := fun h => nomatch h
theorem qslotMappingDone (x0 : DieIx) (x1 : Nat) : Statement (.qslotMappingDone x0 x1) := fun h => nomatch h
theorem qslotUnmapDone (x0 : DieIx) (x1 : Nat) : Statement (.qslotUnmapDone x0 x1) := fun h => nomatch h
theorem recordSelect (x0 : CluIx) : Statement (.recordSelect x0) := fun h => nomatch h
theorem recordStart (x0 : CluIx) : Statement (.recordStart x0) := fun h => nomatch h
theorem preempt (x0 : CoreIx) : Statement (.preempt x0) := fun h => nomatch h
theorem contextRestore (x0 : CoreIx) : Statement (.contextRestore x0) := fun h => nomatch h
theorem contextClear (x0 : CoreIx) : Statement (.contextClear x0) := fun h => nomatch h
theorem preemptUnitsStopped (x0 : CoreIx) : Statement (.preemptUnitsStopped x0) := fun h => nomatch h
theorem debugHalt (x0 : CluIx) : Statement (.debugHalt x0) := fun h => nomatch h
theorem walkStart (x0 : DieIx) : Statement (.walkStart x0) := fun h => nomatch h
theorem walkComplete (x0 : DieIx) (x1 : Nat) : Statement (.walkComplete x0 x1) := fun h => nomatch h
theorem faultMessage (x0 : CoreIx) : Statement (.faultMessage x0) := fun h => nomatch h
theorem xfrespRetry (x0 : CoreIx) : Statement (.xfrespRetry x0) := fun h => nomatch h
theorem xfrespFail (x0 : CoreIx) : Statement (.xfrespFail x0) := fun h => nomatch h
theorem engineFaultResume (x0 : CoreIx) (x1 : Nat) : Statement (.engineFaultResume x0 x1) := fun h => nomatch h
theorem refresh (x0 : DieIx) (x1 : Nat) (x2 : Nat) : Statement (.refresh x0 x1 x2) := fun h => nomatch h
theorem normalBurstGrant (x0 : DieIx) (x1 : Nat) (x2 : Nat) : Statement (.normalBurstGrant x0 x1 x2) := fun h => nomatch h
theorem levelRise (x0 : DieIx) (x1 : Nat) : Statement (.levelRise x0 x1) := fun h => nomatch h
theorem levelFall (x0 : DieIx) (x1 : Nat) : Statement (.levelFall x0 x1) := fun h => nomatch h
theorem columnMigrate (x0 : DieIx) (x1 : Nat) : Statement (.columnMigrate x0 x1) := fun h => nomatch h
theorem migrationSwitch (x0 : DieIx) : Statement (.migrationSwitch x0) := fun h => nomatch h
theorem sendDoorbell (x0 : DieIx) (x1 : Nat) (x2 : Word) : Statement (.sendDoorbell x0 x1 x2) := fun h => nomatch h
theorem frameTransmit (x0 : DieIx) (x1 : Nat) : Statement (.frameTransmit x0 x1) := fun h => nomatch h
theorem ethernetFrameReceive (x0 : DieIx) (x1 : Nat) (x2 : List Byte) (x3 : Bool) : Statement (.ethernetFrameReceive x0 x1 x2 x3) := fun h => nomatch h
theorem rxFrameCommit (x0 : DieIx) (x1 : Nat) : Statement (.rxFrameCommit x0 x1) := fun h => nomatch h
theorem erxcfgWrite (x0 : DieIx) (x1 : Nat) (x2 : Word) (x3 : Bool) : Statement (.erxcfgWrite x0 x1 x2 x3) := fun h => nomatch h
theorem erxtailRelease (x0 : DieIx) (x1 : Nat) (x2 : Word) : Statement (.erxtailRelease x0 x1 x2) := fun h => nomatch h
theorem patrolScrub (x0 : DieIx) (x1 : ScrubKind) (x2 : Nat) : Statement (.patrolScrub x0 x1 x2) := fun h => nomatch h
theorem checkpointTimer (x0 : DieIx) : Statement (.checkpointTimer x0) := fun h => nomatch h
theorem checkpointCommit (x0 : DieIx) : Statement (.checkpointCommit x0) := fun h => nomatch h
theorem checkpointReport (x0 : LinkIx) (x1 : Nat) : Statement (.checkpointReport x0 x1) := fun h => nomatch h
theorem powerOn : Statement (.powerOn) := fun h => nomatch h
theorem coldReset (x0 : DieIx) : Statement (.coldReset x0) := fun h => nomatch h
theorem warmReset (x0 : DieIx) : Statement (.warmReset x0) := fun h => nomatch h
theorem bootRailsSettled (x0 : DieIx) : Statement (.bootRailsSettled x0) := fun h => nomatch h
theorem bootImageVerified (x0 : DieIx) : Statement (.bootImageVerified x0) := fun h => nomatch h
theorem bootMemoryReady (x0 : DieIx) : Statement (.bootMemoryReady x0) := fun h => nomatch h
theorem bootLinksTrained (x0 : DieIx) : Statement (.bootLinksTrained x0) := fun h => nomatch h
theorem attestationRequest (x0 : DieIx) (x1 : List Byte) : Statement (.attestationRequest x0 x1) := fun h => nomatch h
theorem attestationReport (x0 : DieIx) : Statement (.attestationReport x0) := fun h => nomatch h
theorem powerEstimate : Statement (.powerEstimate) := fun h => nomatch h
theorem testEngineOffer (x0 : DieIx) (x1 : Nat) : Statement (.testEngineOffer x0 x1) := fun h => nomatch h
theorem vbtdrvWrite (x0 : DieIx) (x1 : Word) : Statement (.vbtdrvWrite x0 x1) := fun h => nomatch h
theorem testBeatResult (x0 : DieIx) : Statement (.testBeatResult x0) := fun h => nomatch h
theorem vbrepWrite (x0 : DieIx) (x1 : Nat) (x2 : Word) : Statement (.vbrepWrite x0 x1 x2) := fun h => nomatch h
theorem vbrepApply (x0 : DieIx) : Statement (.vbrepApply x0) := fun h => nomatch h
theorem fuseRepairs (x0 : DieIx) (x1 : Nat) : Statement (.fuseRepairs x0 x1) := fun h => nomatch h
theorem retireBus (x0 : DieIx) (x1 : Nat) : Statement (.retireBus x0 x1) := fun h => nomatch h
theorem wscallReply (x0 : CluIx) : Statement (.wscallReply x0) := fun h => nomatch h
theorem dualCompare (x0 : DieIx) (x1 : Nat) : Statement (.dualCompare x0 x1) := fun h => nomatch h
theorem unallocatedWord (x0 : CluIx) : Statement (.unallocatedWord x0) := fun h => nomatch h
theorem idleTimeout (x0 : CluIx) : Statement (.idleTimeout x0) := fun h => nomatch h
theorem recordAgeStep (x0 : DieIx) (x1 : Nat) : Statement (.recordAgeStep x0 x1) := fun h => nomatch h
theorem hostAtomicRequest (x0 : DieIx) (x1 : Nat) (x2 : AtomOp) (x3 : Bool) (x4 : Word) (x5 : Word) : Statement (.hostAtomicRequest x0 x1 x2 x3 x4 x5) := fun h => nomatch h
theorem sendLogCheckpointRequest (x0 : LinkIx) (x1 : Nat) : Statement (.sendLogCheckpointRequest x0 x1) := fun h => nomatch h
theorem minsvnRaiseRequest (x0 : DieIx) : Statement (.minsvnRaiseRequest x0) := fun h => nomatch h

end Sys2Proof.Laws.Coding
end

