-- ==== Sys2Proof/Tests/Slice0.lean ====
section
/-!
SUPPORT. Slice0: tests of this model.  The words come from the worked encodings of the manual, or are written out from its tables
bit by bit; the results of single steps are computed by hand from the rules named; each `witness_…` shows a state that meets the
hypotheses of a clause of the statement it names.
-/

namespace Sys2Proof.Tests

open Sys2Proof Sys2Proof.Machine
open Host (Outcome)

set_option maxRecDepth 100000

/-! ### Small states -/

/-- A state in which cluster c is in focus, holds a record and has the general registers listed. -/
def put (c : CluIx) (gs : List (Reg × Word)) : State :=
  let s : State := { State.reset with focus := c }
  s.modMe fun x => gs.foldl (fun (acc : Cluster) p => acc.setG p.1 p.2) { x with record := some ⟨0, 0, 0, 0⟩ }

/-- The next state of a meaning, where it has one. -/
def after (r : Result) : State := match r with | .next t => t | _ => State.reset

/-- What a question about the next state of a word answers. -/
def asked {α : Type} (i : Instr) (s : State) (f : State → α) : α := f (after (exec i s))

/-- Cluster 0 of core 0 of H0, with registers. -/
abbrev hub (gs : List (Reg × Word)) : State := put 16 gs

/-- Cluster 0 of the stack core of S0, with registers. -/
abbrev stack (gs : List (Reg × Word)) : State := put 0 gs

/-- The focus cluster changed. -/
def State.withMe (s : State) (f : Cluster → Cluster) : State := s.modMe f

/-- Handler mode. -/
def handler (s : State) : State := s.modMe fun c => { c with mode := .handler }

/-- The core of the focus cluster in the secure world. -/
def secure (s : State) : State := s.modMyCore fun x => { x with secure := true }

/-- Every die READY. -/
def ready (s : State) : State := allDies.foldl (fun (acc : State) d => acc.modDie d fun x => { x with ready := true, stage := 5 }) s

/-! ### Ill-formed terms are refused (R27, R95, R146, R147, R258) -/

/-- One term that each check of well-formedness refuses: a barrier past 95, YIELD of g0, word 4 of CREC, an operand register 0 of a
vector command, and a type outside the set its command takes. -/
theorem test_wf_refused :
    ∀ i ∈ ([.bjoin 96 0, .bleave 127 1, .barv 1 96 0, .bara 1 96 0, .bwait 96 0 1, .yield 0 0, .crec 5 4,
        .vadd false 0 0 11 .f32, .vadd false 0 10 0 .f32, .vadd false 0 10 11 .bpn, .vabs 0 10 11 .n8, .vneg 0 10 11 .mxi8,
        .vscale 0 10 11 .s32, .vexp 0 10 11 .s8, .vcvt 0 10 11 .bpn, .vsum 0 10 11 .mxi8, .vrmax 0 10 11 .s8,
        .vcmpeq true 0 10 11 .mxi8, .vand false 0 10 11 .mxi8, .vshl false 0 10 11 .f32, .vpred 0 10 11 .bpn] : List Instr),
      i.wf = false := by decide

/-- The terms beside them are well formed. -/
theorem test_wf_taken :
    ∀ i ∈ ([.bjoin 95 0, .bwait 95 0 1, .yield 1 0, .crec 5 3, .vadd false 0 10 11 .f32, .vabs 0 10 11 .s8, .vexp 0 10 11 .bf16,
        .vcvt 0 10 11 .s8, .vsum 0 10 11 .s32, .vshl false 0 10 11 .n8] : List Instr),
      i.wf = true := by decide

/-- MAJ 0x00, OP6 0x3F of major 0x01, a used Q, a reserved major and F4 = 6 of a branch decode to nothing (R27, R73). -/
theorem test_reserved_words :
    decode 0x00000000 = none ∧ decode 0x022883F0 = none ∧ decode 0x02308801 = none ∧ decode 0x7E000000 = none ∧
    decode 0x1C660001 = none := by
  refine ⟨rfl, rfl, rfl, rfl, rfl⟩

/-- The sync bit is kept beside the instruction (R24). -/
theorem test_sync_bit : decode 0xA0511802 = some ⟨true, .ld 5 2 2 3⟩ := rfl


/-- Words and instructions: R24 worked encodings, R73, R87; FADD and FCVT.S64.Z from R80, R82. -/
theorem test_words_base :
    decode 0x02308800 = some ⟨false, .add 3 1 2⟩ ∧
    decode 0x20511802 = some ⟨false, .ld 5 2 2 3⟩ ∧
    decode 0x34310009 = some ⟨false, .fence 3 .die 9⟩ ∧
    decode 0x1BFFFFFC = some ⟨false, .call 0x1FFFFFC⟩ ∧
    decode 0x1C21FFFD = some ⟨false, .bnez 2 0xFFFD⟩ ∧
    decode 0x70500801 = some ⟨false, .getc 5 0x801⟩ ∧
    decode 0x72018100 = some ⟨false, .setc 0x100 3⟩ ∧
    decode 0x78310800 = some ⟨false, .fadd 3 2 2⟩ := by
  refine ⟨rfl, rfl, rfl, rfl, rfl, rfl, rfl, rfl⟩

/-- Words and instructions: the tables of R146, R156, R163, R180. -/
theorem test_words_groups :
    decode 0x40221401 = some ⟨false, .vadd false 2 4 5 .bf16⟩ ∧
    decode 0x41052C00 = some ⟨false, .vadd true 0 10 11 .f32⟩ ∧
    decode 0x49031C12 = some ⟨false, .vfill true 0 6 7 .f16⟩ ∧
    decode 0x48000030 = some ⟨false, .vfence 0⟩ ∧
    decode 0x4C140013 = some ⟨false, .hzpsh 3 8 1⟩ ∧
    decode 0x50008800 = some ⟨false, .mxcfg 1 2⟩ ∧
    decode 0x50000012 = some ⟨false, .mxgo 2⟩ ∧
    decode 0x5C321401 = some ⟨false, .cpy 3 4 5 1⟩ ∧
    decode 0x5C031C12 = some ⟨false, .cpyp 6 7 2⟩ ∧
    decode 0x5C031C20 = some ⟨false, .cpinv 6 7⟩ ∧
    decode 0x5C208030 = some ⟨false, .cpquie 2 1⟩ ∧
    decode 0x5C000040 = some ⟨false, .cpwait 0⟩ := by
  refine ⟨rfl, rfl, rfl, rfl, rfl, rfl, rfl, rfl, rfl, rfl, rfl, rfl⟩

/-- Words and instructions: the tables of R203, R217, R258. -/
theorem test_words_sync :
    decode 0x2C531C02 = some ⟨false, .aadd 5 6 7 .plain false 2⟩ ∧
    decode 0x2C110DF0 = some ⟨false, .acas 1 2 3 .acq true 0⟩ ∧
    decode 0x2E442621 = some ⟨false, .vaadd 4 8 9 .rel .f32 1⟩ ∧
    decode 0x30042430 = some ⟨false, .redadd 8 9 .bf16 0⟩ ∧
    decode 0x34100001 = some ⟨false, .fence 1 .core 1⟩ ∧
    decode 0x34A20001 = some ⟨false, .fence 0b001010 .pkg 1⟩ ∧
    decode 0x341CFFFF = some ⟨false, .fence 0b100001 .sys 0xFFFF⟩ ∧
    decode 0x3C000020 = some ⟨false, .exit 0⟩ ∧
    decode 0x3CA2A400 = some ⟨false, .spawn 10 5 9 0⟩ ∧
    decode 0x3C839850 = some ⟨false, .jset 8 7 6 0⟩ ∧
    decode 0x3C518040 = some ⟨false, .crec 5 3⟩ := by
  refine ⟨rfl, rfl, rfl, rfl, rfl, rfl, rfl, rfl, rfl, rfl, rfl⟩

/-- Words and instructions: the tables of R284, R295, R316, R317, R326. -/
theorem test_words_lanes :
    decode 0x64321400 = some ⟨false, .lfmt 3 4 5⟩ ∧
    decode 0x6403A011 = some ⟨false, .lmcst 7 8 1⟩ ∧
    decode 0x64321421 = some ⟨false, .ldot 3 4 5 1⟩ ∧
    decode 0x64030030 = some ⟨false, .lhzc 6⟩ ∧
    decode 0x64030040 = some ⟨false, .lrsync 6⟩ ∧
    decode 0x64000050 = some ⟨false, .lsafe⟩ ∧
    decode 0x64500060 = some ⟨false, .lpoll 5 0⟩ ∧
    decode 0x64000070 = some ⟨false, .lclr⟩ ∧
    decode 0x64030080 = some ⟨false, .lrtgt 6⟩ ∧
    decode 0x64530090 = some ⟨false, .lstat 5 6⟩ ∧
    decode 0x6E219000 = some ⟨false, .turn 2 3 4⟩ ∧
    decode 0x6E219010 = some ⟨false, .lnkq 2 3 4⟩ ∧
    decode 0x7403A070 = some ⟨false, .tlbinv 7 8⟩ ∧
    decode 0x74531C50 = some ⟨false, .wscall 5 6 7⟩ ∧
    decode 0x74500000 = some ⟨false, .brk 5⟩ ∧
    decode 0x74000010 = some ⟨false, .rett⟩ ∧
    decode 0x74208020 = some ⟨false, .csave 2 1⟩ ∧
    decode 0x74208030 = some ⟨false, .crest 2 1⟩ ∧
    decode 0x74500040 = some ⟨false, .ckpt 5⟩ ∧
    decode 0x74010060 = some ⟨false, .idle 2⟩ := by
  refine ⟨rfl, rfl, rfl, rfl, rfl, rfl, rfl, rfl, rfl, rfl, rfl, rfl, rfl, rfl, rfl, rfl, rfl, rfl, rfl, rfl⟩

/-- Words and instructions: the word table of the release program. -/
theorem test_words_release :
    decode 0x10120001 = some ⟨false, .movz 1 1 2⟩ ∧
    decode 0x360A8001 = some ⟨false, .bjoin 1 21⟩ ∧
    decode 0x0A408100 = some ⟨false, .addi 4 1 0x100⟩ ∧
    decode 0x36600100 = some ⟨false, .barv 6 0 0⟩ ∧
    decode 0x70500151 = some ⟨false, .getc 5 0x151⟩ ∧
    decode 0x360A8081 = some ⟨false, .bleave 1 21⟩ ∧
    decode 0x1C50FFFD = some ⟨false, .beqz 5 0xFFFD⟩ ∧
    decode 0x2A320040 = some ⟨false, .stRel 3 4 0⟩ ∧
    decode 0x360A0000 = some ⟨false, .bjoin 0 20⟩ ∧
    decode 0x2C621C00 = some ⟨false, .aadd 6 4 7 .plain false 0⟩ ∧
    decode 0x366A0100 = some ⟨false, .barv 6 0 20⟩ ∧
    decode 0x2A520030 = some ⟨false, .ldAcq 5 4 0⟩ ∧
    decode 0x36000000 = some ⟨false, .bjoin 0 0⟩ ∧
    decode 0x1C61FFFE = some ⟨false, .bnez 6 0xFFFE⟩ ∧
    decode 0x2C621E00 = some ⟨false, .aadd 6 4 7 .rel false 0⟩ ∧
    decode 0x2C621C70 = some ⟨false, .acas 6 4 7 .plain false 0⟩ := by
  refine ⟨rfl, rfl, rfl, rfl, rfl, rfl, rfl, rfl, rfl, rfl, rfl, rfl, rfl, rfl, rfl, rfl⟩

/-- Words and instructions: the word table of the Winograd program. -/
theorem test_words_winograd :
    decode 0x12400005 = some ⟨false, .addpc 4 5⟩ ∧
    decode 0x38D600C1 = some ⟨false, .rawait 13 1 12⟩ ∧
    decode 0x1E019020 = some ⟨false, .loops 3 4⟩ ∧
    decode 0x50000010 = some ⟨false, .mxgo 0⟩ ∧
    decode 0x50011400 = some ⟨false, .mxcfg 2 5⟩ ∧
    decode 0x50000020 = some ⟨false, .mxwait⟩ ∧
    decode 0x5C030010 = some ⟨false, .cpyp 6 0 0⟩ ∧
    decode 0x40052C02 = some ⟨false, .vadd false 0 10 11 .f16⟩ ∧
    decode 0x40052C12 = some ⟨false, .vsub false 0 10 11 .f16⟩ ∧
    decode 0x387000C0 = some ⟨false, .rawait 7 0 0⟩ ∧
    decode 0x41052C82 = some ⟨false, .vscale 0 10 11 .f16⟩ ∧
    decode 0x38800001 = some ⟨false, .rclaim 8 1⟩ ∧
    decode 0x48052C02 = some ⟨false, .vcopy 0 10 11 .f16⟩ ∧
    decode 0x49052C13 = some ⟨false, .vfill true 0 10 11 .e4m3⟩ ∧
    decode 0x44052C02 = some ⟨false, .vcvt 0 10 11 .f16⟩ := by
  refine ⟨rfl, rfl, rfl, rfl, rfl, rfl, rfl, rfl, rfl, rfl, rfl, rfl, rfl, rfl, rfl⟩

/-- Words and instructions: the word table of the stencil program. -/
theorem test_words_stencil :
    decode 0x4CE63400 = some ⟨false, .hzcfg 0 14 12 13⟩ ∧
    decode 0x24178901 = some ⟨false, .st 1 15 0x101 1⟩ ∧
    decode 0x4C090010 = some ⟨false, .hzpsh 0 18 0⟩ ∧
    decode 0x34920003 = some ⟨false, .fence 0b001001 .pkg 3⟩ ∧
    decode 0x34310001 = some ⟨false, .fence 0b000011 .die 1⟩ ∧
    decode 0x40052C00 = some ⟨false, .vadd false 0 10 11 .f32⟩ ∧
    decode 0x25378100 = some ⟨false, .st 19 15 0x100 0⟩ ∧
    decode 0x41052C30 = some ⟨false, .vmac true 0 10 11 .f32⟩ ∧
    decode 0x2A5B8030 = some ⟨false, .ldAcq 5 23 0⟩ ∧
    decode 0x41052C80 = some ⟨false, .vscale 0 10 11 .f32⟩ ∧
    decode 0x5D8CE800 = some ⟨false, .cpy 24 25 26 0⟩ ∧
    decode 0x4C028030 = some ⟨false, .hzrd 0 5 0⟩ ∧
    decode 0x4C500020 = some ⟨false, .hzest 5 0⟩ ∧
    decode 0x6E93A000 = some ⟨false, .turn 9 7 8⟩ := by
  refine ⟨rfl, rfl, rfl, rfl, rfl, rfl, rfl, rfl, rfl, rfl, rfl, rfl, rfl, rfl⟩

/-- Words and instructions: the word table of the decode program. -/
theorem test_words_decode :
    decode 0x28821C40 = some ⟨false, .ldN32 8 4 7 0⟩ ∧
    decode 0x64029810 = some ⟨false, .lmcst 5 6 0⟩ ∧
    decode 0x26828009 = some ⟨false, .stN32 8 5 9 0⟩ ∧
    decode 0x6517C020 = some ⟨false, .ldot 17 15 16 0⟩ ∧
    decode 0x2AE80040 = some ⟨false, .stRel 14 16 0⟩ ∧
    decode 0x35200001 = some ⟨false, .fence 0b010010 .core 1⟩ ∧
    decode 0x6E511000 = some ⟨false, .turn 5 2 4⟩ ∧
    decode 0x42052C00 = some ⟨false, .vexp 0 10 11 .f32⟩ ∧
    decode 0x44052C00 = some ⟨false, .vcvt 0 10 11 .f32⟩ ∧
    decode 0x70300741 = some ⟨false, .getc 3 0x741⟩ ∧
    decode 0x44052C20 = some ⟨false, .vsum 0 10 11 .f32⟩ ∧
    decode 0x42052C20 = some ⟨false, .vrcp 0 10 11 .f32⟩ ∧
    decode 0x6484B000 = some ⟨false, .lfmt 8 9 12⟩ ∧
    decode 0x48052C10 = some ⟨false, .vfill false 0 10 11 .f32⟩ ∧
    decode 0x40052C20 = some ⟨false, .vmul false 0 10 11 .f32⟩ ∧
    decode 0x64068040 = some ⟨false, .lrsync 13⟩ ∧
    decode 0x64568060 = some ⟨false, .lpoll 5 13⟩ ∧
    decode 0x5C048020 = some ⟨false, .cpinv 9 0⟩ ∧
    decode 0x5C048010 = some ⟨false, .cpyp 9 0 0⟩ ∧
    decode 0x35800001 = some ⟨false, .fence 0b011000 .core 1⟩ ∧
    decode 0x35A00001 = some ⟨false, .fence 0b011010 .core 1⟩ ∧
    decode 0x5C32E800 = some ⟨false, .cpy 3 5 26 0⟩ ∧
    decode 0x2A8C8030 = some ⟨false, .ldAcq 8 25 0⟩ := by
  refine ⟨rfl, rfl, rfl, rfl, rfl, rfl, rfl, rfl, rfl, rfl, rfl, rfl, rfl, rfl, rfl, rfl, rfl, rfl, rfl, rfl, rfl, rfl, rfl⟩

/-! ### Single words -/

/-- Registers of the tests of integer words: 2^63, 3, all ones, 2^32 - 1, -7. -/
def ints : State := hub [(1, 0x8000_0000_0000_0000), (2, 3), (4, allOnes), (5, 0xFFFF_FFFF), (6, 0xFFFF_FFFF_FFFF_FFF9)]

/-- Results by hand from R66 and R71: wraps, sign changes and shifts. -/
theorem test_integer :
    ∀ p ∈ ([(.add 3 4 2, 2), (.sub 3 2 4, 4), (.andn 3 4 2, 0xFFFF_FFFF_FFFF_FFFC), (.min 3 1 2, 0x8000_0000_0000_0000),
        (.minn 3 1 2, 3), (.max 3 1 2, 3), (.maxn 3 1 2, 0x8000_0000_0000_0000), (.addw 3 5 2, 2),
        (.subw 3 0 2, 0xFFFF_FFFF_FFFF_FFFD), (.shl 3 2 2, 24), (.shr 3 1 2, 0x1000_0000_0000_0000),
        (.sha 3 1 2, 0xF000_0000_0000_0000), (.rol 3 1 2, 4), (.clz 3 2, 62), (.clz 3 0, 64), (.ctz 3 1, 63), (.popc 3 4, 64),
        (.mul 3 4 2, 0xFFFF_FFFF_FFFF_FFFD), (.mulh 3 1 2, 0xFFFF_FFFF_FFFF_FFFE), (.mulhn 3 1 2, 1), (.slt 3 4 2, 1),
        (.sltn 3 4 2, 0), (.sle 3 2 2, 1), (.slen 3 4 2, 0), (.seq 3 2 2, 1), (.sne 3 2 2, 0), (.shadd3 3 2 2, 27),
        (.shadd1 3 4 2, 1)] : List (Instr × Word)),
      asked p.1 ints (·.g 3) = p.2 := by decide

/-- Results by hand from R67 to R70: division by zero, the corner, truncation; ADDI of -4, ORI, MOVK, MOVN and ADDPC of -1. -/
theorem test_divide_immediate :
    ∀ p ∈ ([(.div 3 1 4, 0x8000_0000_0000_0000), (.rem 3 1 4, 0), (.div 3 2 0, 0xFFFF_FFFF_FFFF_FFFF), (.rem 3 2 0, 3),
        (.divn 3 4 2, 0x5555_5555_5555_5555), (.remn 3 4 2, 0), (.div 3 6 2, 0xFFFF_FFFF_FFFF_FFFE),
        (.rem 3 6 2, 0xFFFF_FFFF_FFFF_FFFF), (.addi 3 2 0x7FFC, 0xFFFF_FFFF_FFFF_FFFF), (.ori 3 0 0x7FFF, 0x7FFF),
        (.xori 3 4 0x7FFF, 0xFFFF_FFFF_FFFF_8000), (.slti 3 4 0, 1), (.movz 3 0xABCD 1, 0xABCD_0000), (.movn 3 0 2, 0xFFFF_FFFF_FFFF_FFFF),
        (.addpc 3 0x7FFF, 0x3_FFFC)] : List (Instr × Word)),
      asked p.1 ints (·.g 3) = p.2 := by decide

/-- MOVK keeps the bits around it (R69); register 0 stays 0 (R36). -/
theorem test_movk_g0 : asked (.movk 2 0xABCD 1) ints (·.g 2) = 0xABCD_0003 ∧ asked (.add 0 4 2) ints (·.g 0) = 0 := by decide

/-- The focus cluster stands at a PC. -/
def atPc (pc : PC) (s : State) : State := s.modMe fun c => { c with pc := pc }

/-- CALL to 16 bytes before itself, from 0x20 (R26, R72); JR to a word's middle takes ALN (R74); BEQZ falls through. -/
theorem test_control :
    asked (.call 0x1FFFFFC) (atPc 0x20 (hub [])) (fun t => (t.me.pc, t.g 31)) = (0x10, 0x24) ∧
    asked (.j 1) (atPc 0x3FFFC (hub [])) (·.me.pc) = 0 ∧
    asked (.callr 5 5) (hub [(5, 0x40)]) (fun t => (t.me.pc, t.g 5)) = (0x40, 4) ∧
    asked (.jr 2) (hub [(2, 6)]) (fun t => (bits t.me.tcause 0 5, t.me.tval, t.me.mode)) = (Cause.aln.code, 6, .handler) ∧
    asked (.beqz 2 0xFFFD) (hub [(2, 1)]) (·.me.pc) = 4 ∧ asked (.bltz 2 2) (hub [(2, allOnes)]) (·.me.pc) = 8 := by decide

/-- A loop of two words: LOOPS sets it up, its last word goes back, and the last pass leaves (R76, R77). -/
theorem test_loop :
    asked (.loops 1 2) (hub [(1, 2), (2, 8)]) (fun t => (t.me.pc, t.me.loops.depth, t.me.loops.cnt[0])) = (4, 1, 2) ∧
    asked (.add 3 0 0) (atPc 8 (after (exec (.loops 1 2) (hub [(1, 2), (2, 8)]))))
      (fun t => (t.me.pc, t.me.loops.depth, t.me.loops.cnt[0])) = (4, 1, 1) ∧
    asked (.loops 0 2) (hub [(2, 8)]) (fun t => (t.me.pc, t.me.loops.depth)) = (12, 0) := by decide

/-- FP32 by hand (R80 to R82): 1 + 2^-24 ties to 1; 1/0; the root of -1; 1 x 1 + 1; 2.5 to an integer, to even and toward zero. -/
theorem test_float :
    let s := hub [(1, 0x3F80_0000), (2, 0x3380_0000), (4, 0xBF80_0000), (5, 0x4020_0000), (6, 0x3F80_0000), (7, 0x4060_0000)]
    asked (.fadd 3 1 2) s (fun t => (t.g 3, t.me.fpflg)) = (0x3F80_0000, flagNX) ∧
    asked (.fdiv 3 1 0) s (fun t => (t.g 3, t.me.fpflg)) = (0x7F80_0000, flagDZ) ∧
    asked (.fsqrt 3 4) s (fun t => (t.g 3, t.me.fpflg)) = (0x7FC0_0000, flagNV) ∧
    asked (.fmac 6 1 1) s (fun t => (t.g 6, t.me.fpflg)) = (0x4000_0000, 0) ∧
    asked (.fcvt ⟨.f32S, false⟩ 3 5) s (fun t => (t.g 3, t.me.fpflg)) = (2, flagNX) ∧
    asked (.fcvt ⟨.f32S, true⟩ 3 7) s (fun t => (t.g 3, t.me.fpflg)) = (3, flagNX) ∧
    asked (.fcmp .lt 3 4 1) s (·.g 3) = 1 := by decide

/-- ST and LD.S8 at the top of a hub core's scratchpad, and XLT just past it (R21, R83, R84). -/
theorem test_store_load :
    let s := hub [(1, 0x2F_FFF8), (2, 0x8877_6655_4433_2211), (4, 7), (5, 0x30_0000)]
    asked (.st 2 1 0 0) s (fun t => t.peek (.spad 4 0x2F_FFF8) 8) = [0x11, 0x22, 0x33, 0x44, 0x55, 0x66, 0x77, 0x88] ∧
    asked (.ldS8 3 1 4 0) (after (exec (.st 2 1 0 0) s)) (·.g 3) = 0xFFFF_FFFF_FFFF_FF88 ∧
    asked (.ld 3 5 0 0) s (fun t => (bits t.me.tcause 0 5, t.me.tval)) = (Cause.xlt.code, 0x30_0000) ∧
    asked (.ld 3 4 0 0) s (fun t => (bits t.me.tcause 0 5, t.me.tval)) = (Cause.aln.code, 7) := by decide

/-- AADD.S32 answers the old value sign-extended and wraps; ACAS that fails stores nothing (R204). -/
theorem test_atomics :
    let s := after (exec (.stN32 2 1 0 0) (hub [(1, 0x100), (2, 0xFFFF_FFFF), (4, 3)]))
    asked (.aadd 3 1 4 .plain true 0) s (fun t => (t.g 3, t.peek (.spad 4 0x100) 8)) = (allOnes, [2, 0, 0, 0, 0, 0, 0, 0]) ∧
    asked (.acas 3 1 4 .plain false 0) s (fun t => (t.g 3, t.peek (.spad 4 0x100) 4)) = (0xFFFF_FFFF, [0xFF, 0xFF, 0xFF, 0xFF]) := by
  decide

/-- A word that is no instruction takes UDI on its first step after reset; ADD runs (R27; log 2). -/
theorem test_first_step :
    bits ((after (step (State.reset.withFetchWord 32 0))).cluster 16).tcause 0 5 = Cause.udi.code ∧
    ((after (step (State.reset.withFetchWord 32 0x02308800))).cluster 16).pc = 4 := by decide

/-- BRK, then RETT from its handler, which comes back to the word (R326, R328). -/
theorem test_trap_and_return :
    let s := (atPc 0x40 (hub [])).modMe fun c => { c with thvec := 0x80 }
    asked (.brk 5) s (fun t => (t.me.mode, t.me.pc, t.me.tepc, t.me.tval, bits t.me.tcause 0 5)) = (.handler, 0x80, 0x40, 5, 16) ∧
    asked .rett (after (exec (.brk 5) s)) (fun t => (t.me.mode, t.me.pc)) = (.user, 0x40) := by decide

/-- Of the walk of the release program: after its last member leaves, a barrier has no member and its phase has moved on; a lone
member's BARV completes and answers phase 0 (R95 to R97). -/
theorem test_barrier_walk :
    let s := after (exec (.bjoin 1 0) (hub []))
    (s.core 4).bar 1 = ⟨0, [16], [], []⟩ ∧ asked (.bleave 1 0) s (fun t => (t.core 4).bar 1) = ⟨1, [], [], []⟩ ∧
    asked (.barv 6 1 0) s (fun t => (t.g 6, ((t.core 4).bar 1).phase)) = (0, 1) := by decide

/-! ### Sums and series -/

/-- The series of a slot after checkpoints, and its registers HZESTk and HZSTk. -/
def slotRegs (ctl tol lim : Word) (vs : List W32) : Word × Word :=
  let h : HzSlot := ⟨ctl, tol, lim, Series.reset⟩
  let h := { h with ser := vs.foldl (fun (x : Series) v => x.checkpoint h.cfg v) h.ser }
  (h.reg 4, h.reg 3)

/-- "Worked sequence: a vector slot on an alternating series", and, with MINC 3, the constant series after it (R131 to R134). -/
theorem test_series_eps :
    slotRegs 0x0402_2100 0x3580_0000_0000_0000 0x3080_0000_7F80_0000 [0x3F80_0000, 0x3F00_0000, 0x3F40_0000, 0x3F20_0000] =
      (0x3F20_0000_3F2A_AAAB, 0x0000_0400_0000_0001) := by decide

theorem test_series_mix :
    slotRegs 0x0402_3200 0x3580_0000_0000_0000 0x3080_0000_7F80_0000 [0x3F80_0000, 0x3F00_0000, 0x3F40_0000, 0x3F20_0000] =
      (0x3F20_0000_3F20_0000, 0x0000_0400_0000_0008) := by decide

theorem test_series_constant :
    slotRegs 0x0403_2100 0x3580_0000_0000_0000 0x3080_0000_7F80_0000 [0x4040_0000, 0x4040_0000, 0x4040_0000] =
      (0x4040_0000_4040_0000, 0x0000_0300_0000_0003) := by decide

/-- "Worked sequence: a lane slice that stops at plane 4": the checkpoints P(1) to P(4) and T_4 with CONV (R119, R133). -/
theorem test_series_lane :
    slotRegs 0x0802_2100 0x3A80_0000_3980_0000 0x3580_0000_7F80_0000 [0x4200_0000, 0x4220_0000, 0x4228_0000, 0x422A_0000] =
      (0x422A_0000_422A_AAAB, 0x0000_0400_0000_0001) := by decide

/-- The rows of the table of R124 for the matrix engine: two chunks, U and then V. -/
theorem test_matrix_chunks :
    let n (v : Int) : Machine.Num := .fin (decide (v < 0)) v.natAbs 0
    let one : List Machine.Num := [n 1]
    let run (u v : Int) : W32 := (chunkAdd (chunkAdd 0 [n u] one none).1 [n v] one none).1
    run (2 ^ 24 + 1) 1 = 0x4B80_0000 ∧ run (2 ^ 128) (-2 ^ 127) = 0x7F80_0000 := by decide

/-- The activations and planes of the worked lane slice: two blocks of 32 codes 64, and plane j set in its first M_j weights. -/
theorem test_lane_block :
    let block : List Byte := List.replicate 32 64 ++ [0x7F]
    let plane (m : Nat) : List Byte := (List.range 8).map fun i => BitVec.ofNat 8 (if 8 * (i + 1) ≤ m then 255 else 0)
    let data : List Byte := List.replicate 32 0 ++ plane 64 ++ plane 48 ++ plane 40
    blockSum data (block ++ block) 64 32 0 1 = 2048 ∧ blockSum data (block ++ block) 64 32 0 3 = 14336 ∧
    blockSum data (block ++ block) 64 32 1 3 = 7168 := by decide



/-! ### Witnesses: each hypothesis of each statement is met -/

/-- The loop registers of the focus cluster set: depth, innermost count, next count, innermost END, next END. -/
def looped (depth : Nat) (c0 c1 : W32) (e0 e1 : PC) (s : State) : State :=
  s.modMe fun c => { c with loops := ⟨#v[c0, c1, 0, 0], #v[8, 4, 0, 0], #v[e0, e1, 0, 0], depth⟩ }

theorem witness_ControlTransfers :
    ((hub [(1, 0x3FFFC)]).g 1).toNat % 4 = 0 ∧ ((hub []).g 2).toInt = 0 ∧ ((hub [(2, 1)]).g 2).toInt > 0 ∧
    ((hub [(2, allOnes)]).g 2).toInt < 0 := by decide

theorem witness_LoopStartAndLeave :
    let fits (s : State) (b : Reg) : Prop :=
      let stop : PC := BitVec.ofNat 18 (s.g b).toNat
      ¬(stop ≤ s.me.pc ∨ (0 < s.me.loops.depth ∧ s.me.loops.stop[0] < stop))
    let s (depth : Nat) (stop count : Word) : State := looped depth 1 1 16 32 (hub [(1, count), (2, stop)])
    (s 4 16 1).me.mode = .user ∧ (s 4 16 1).me.loops.depth = 4 ∧
    ((s 3 0 1).me.loops.depth < 4 ∧ ¬fits (s 3 0 1) 2) ∧ ((s 1 20 1).me.loops.depth < 4 ∧ ¬fits (s 1 20 1) 2) ∧
    (fits (s 3 14 1) 2 ∧ (BitVec.ofNat 18 ((s 3 14 1).g 2).toNat).toNat % 4 ≠ 0) ∧
    (fits (s 3 16 0) 2 ∧ (BitVec.ofNat 18 ((s 3 16 0).g 2).toNat).toNat % 4 = 0 ∧ BitVec.ofNat 32 ((s 3 16 0).g 1).toNat = 0) ∧
    (fits (s 3 16 1) 2 ∧ BitVec.ofNat 32 ((s 3 16 1).g 1).toNat ≠ 0) ∧ (s 0 16 1).me.loops.depth = 0 := by decide

theorem witness_LoopEndCheck :
    let s (depth : Nat) (c0 c1 : W32) (e1 : PC) : State := atPc 16 (looped depth c0 c1 16 e1 (hub []))
    ((s 4 2 0 32).me.mode = .user ∧ (s 4 2 0 32).me.loops.depth ≠ 0 ∧ (s 4 2 0 32).me.pc = (s 4 2 0 32).me.loops.stop[0] ∧
      1 < ((s 4 2 0 32).me.loops.cnt[0]).toNat) ∧
    (((s 1 1 0 16).me.loops.cnt[0]).toNat ≤ 1 ∧ (s 1 1 0 16).me.loops.depth = 1) ∧
    (((s 2 1 0 32).me.loops.cnt[0]).toNat ≤ 1 ∧ (s 2 1 0 32).me.pc ≠ (s 2 1 0 32).me.loops.stop[1]) ∧
    (((s 2 1 2 16).me.loops.cnt[0]).toNat ≤ 1 ∧ 1 < (s 2 1 2 16).me.loops.depth ∧
      (s 2 1 2 16).me.pc = (s 2 1 2 16).me.loops.stop[1] ∧ 1 < ((s 2 1 2 16).me.loops.cnt[1]).toNat) := by decide

theorem witness_FloatNaNResults :
    let s := hub [(1, 0x7F80_0001), (2, 0xFFC0_0000)]
    let nan (r : Reg) : Prop := (s.g r).toNat / 2 ^ 23 % 2 ^ 8 = 255 ∧ (s.g r).toNat % 2 ^ 23 ≠ 0
    (3 : Reg) ≠ 0 ∧ nan 1 ∧ nan 2 := by decide

/-- The last granule of 32 bytes of a hub core's scratchpad, and its first byte. -/
def edge : State := hub [(1, 0x2F_FFF8), (2, 0x2F_FFFF), (4, 0x2F_FFE0), (5, 0), (6, 0x20)]

theorem witness_ScalarLoads :
    edge.nearOk (edge.g 1) 8 = true ∧ edge.nearOk (edge.g 2) 1 = true ∧ edge.nearOk (edge.g 5) 8 = true := by decide

theorem witness_ScalarStores :
    edge.myCore.spad.wf = true ∧ edge.nearOk (edge.g 1) 8 = true ∧ edge.nearOk (edge.g 2) 1 = true := by decide

theorem witness_MisalignedAccessTraps :
    let s := hub [(1, 7), (2, 0x30_0000), (4, 0xFF_FFF8), (5, 0x8000_0000_0002)]
    s.me.mode = .user ∧ (s.g 1).toNat % 8 ≠ 0 ∧ (s.g 5).toNat % 8 ≠ 0 ∧ (s.g 1).toNat % 4 ≠ 0 ∧
    ((s.g 2).toNat % 8 = 0 ∧ spadBytes s.myCoreIx ≤ (s.g 2).toNat ∧ (s.g 2).toNat < 0x100_0000) ∧
    ((s.g 4).toNat % 8 = 0 ∧ spadBytes s.myCoreIx ≤ (s.g 4).toNat ∧ (s.g 4).toNat < 0x100_0000) := by decide

theorem witness_ScalarAtomics :
    edge.myCore.spad.wf = true ∧ edge.nearOk (edge.g 1) 8 = true ∧ edge.nearOk (edge.g 1) 4 = true ∧
    leNat (edge.peek (edge.own (edge.g 1)) 8) = (edge.g 5).toNat ∧ leNat (edge.peek (edge.own (edge.g 1)) 8) ≠ (edge.g 6).toNat := by
  decide

theorem witness_VectorAtomicsAndReductions :
    edge.myCore.spad.wf = true ∧ edge.nearOk (edge.g 4) 32 = true ∧ edge.nearOk (edge.g 5) 32 = true ∧
    (6 : Reg) ≠ 0 ∧ edge.nearOk (edge.g 6) 32 = true ∧ edge.g 6 ≠ edge.g 4 := by decide

theorem witness_FenceIssueAndCompletion :
    let s := after (exec (.fence 3 .die 9) (hub []))
    let f : Fence := ⟨0, .die, 3, 9, 0, Loops.reset, false, .user⟩
    (s.cluster 16).fences.find? (fun g => g.seq = f.seq) = some f ∧ (s.core (coreOf 16)).fenceCauses 16 f = [] ∧
    s.fenceDone 16 f = true ∧
    (let e := after (exec (.fence 3 .die 9) ((hub []).modMe fun c => { c with fpflg := 3, fpxen := 2 }))
     (e.cluster 16).runs f.seq = true ∧ (e.cluster 16).fpflg &&& (e.cluster 16).fpxen ≠ 0 ∧ e.fenceDone 16 f = true ∧
       (e.core (coreOf 16)).fenceCauses 16 f = []) ∧
    (let w := after (exec (.fence 32 .die 1) (after (exec (.redadd 4 5 .f32 0) edge)))
     let g : Fence := ⟨1, .die, 32, 1, 4, Loops.reset, false, .user⟩
     (w.cluster 16).fences = [g] ∧ w.fenceDone 16 g = false ∧ (w.core (coreOf 16)).fenceCauses 16 g = []) ∧
    ((after (exec (.fence 8 .core 0) (hub []))).me.fences.map fun g => g.paths.getLsbD 3) = [true] := by decide

theorem witness_BarrierInstructions :
    let s0 := hub []
    let s1 := after (exec (.bjoin 95 0) s0)
    let two := s1.modCore 4 fun c => c.modBar 95 fun y => { y with members := y.members ++ [17] }
    let w := after (exec (.barv 6 95 0) two)
    let go := w.modCore 4 fun c => c.modBar 95 fun y => { y with phase := 1, arrived := [] }
    let inn (s : State) : Prop := s.focus ∈ ((s.core 4).bar 95).members ∧ s.focus ∉ ((s.core 4).bar 95).arrived ∧
      s.focus ∉ ((s.core 4).bar 95).leaving ∧ s.arrivalWaits = false ∧ s.me.barvWait = none
    let last (s : State) : Bool := ((s.core 4).bar 95).arrived.length + 1 == ((s.core 4).bar 95).members.length
    s0.homeCore 0 = some 4 ∧ s0.focus ∉ ((s0.core 4).bar 95).members ∧ inn s1 ∧ inn two ∧ last s1 = true ∧ last two = false ∧
    (go.me.barvWait = some ⟨4, 95, 0, 4⟩ ∧ ((go.core 4).bar 95).phase ≠ 0) ∧
    (s1.focus ∈ ((s1.core 4).bar 95).members ∧ ((s1.core 4).bar 95).phase = (s1.g 0).setWidth 16) ∧
    (w.me.barvWait = some ⟨4, 95, 0, 4⟩ ∧ ((w.core 4).bar 95).phase = 0) ∧
    (go.focus ∈ ((go.core 4).bar 95).members ∧ ((go.core 4).bar 95).phase ≠ (go.g 0).setWidth 16) := by decide

/-- A hub cluster whose ring 63 is configured: 2 slots of 128 bytes at 0; claimed, filled. -/
def ringed (clm head tail : BitVec 16) (gs : List (Reg × Word)) : State :=
  (hub gs).modMyCore fun c => c.modRing 63 fun y => { y with cfg := 0x0880_0001, clm := clm, head := head, tail := tail }

theorem witness_RingInstructions :
    let s0 := hub [(1, 0x0880_0001)]
    let r (s : State) : Ring := s.myCore.ring 63
    let on (s : State) : Prop := bit (r s).cfg 0 = true ∧ 2 ^ ((r s).cfg.toNat / 2 ^ 23 % 16) = 2
    let s1 := ringed 0xFFFF 0xFFFE 0xFFFE [(1, 0xFFFE)]
    let full := ringed 0 0xFFFE 0xFFFE [(1, 0xFFFE)]
    let filled := ringed 0 0xFFFF 0xFFFE [(1, 0xFFFE)]
    let n (s : State) : BitVec 16 := BitVec.ofNat 16 (s.g 1).toNat
    (ringCfgOk (spadBytes s0.myCoreIx) (s0.g 1) = true ∧ (r s0).clm = (r s0).tail ∧ s0.ringNamed s0.myCoreIx 63 = false) ∧
    (on s1 ∧ (r s1).waiters = [] ∧ ((r s1).clm - (r s1).tail).toNat < 2) ∧ (on full ∧ 2 ≤ ((r full).clm - (r full).tail).toNat) ∧
    ((r full).seqAt (full.g 0) (r full).head ((r full).clm - (r full).head).toNat = some 0xFFFE ∧ (r full).canFill 0xFFFE = true ∧
      full.postedAt full.focus false = false ∧ full.me.fences = []) ∧
    ((n filled - (r filled).tail).toNat < 2 ∧ (n filled - (r filled).tail).toNat < ((r filled).head - (r filled).tail).toNat) ∧
    ((n full - (r full).tail).toNat < 2 ∧ ((r full).head - (r full).tail).toNat ≤ (n full - (r full).tail).toNat) ∧
    ((r filled).seqAt (filled.g 0) (r filled).tail ((r filled).head - (r filled).tail).toNat = some 0xFFFE ∧
      (r filled).canRelease 0xFFFE = true) := by decide

/-- From a sequence on, exactly m slots of a ring have their bit in b set, the first apart. -/
def runOf (r : Ring) (b : BitVec 256) (n : BitVec 16) (m : Nat) : Bool :=
  decide (1 ≤ m ∧ m ≤ r.count) && (List.range m).all (fun i => i == 0 || b.getLsbD (r.slot (n + BitVec.ofNat 16 i))) &&
    (m == r.count || !b.getLsbD (r.slot (n + BitVec.ofNat 16 m)))

theorem witness_BarrierInstructions_waits :
    let s := after (exec (.fence 2 .die 1) (after (exec (.bjoin 95 0) (hub []))))
    let x := (s.core 4).bar 95
    s.homeCore 0 = some 4 ∧ s.arrivalWaits = true ∧ s.focus ∈ x.members ∧ s.focus ∉ x.leaving ∧ s.focus ∉ x.arrived ∧
    s.me.barvWait = none := by decide

theorem witness_RingInstructions_waits :
    let open_ (s : State) : State := after (exec (.fence 8 .core 1) s)
    let full := open_ (ringed 0 0xFFFE 0xFFFE [])
    let filled := open_ (ringed 0 0xFFFF 0xFFFE [])
    let r (s : State) : Ring := s.myCore.ring 63
    let covered (s : State) : Bool := s.me.fences.any fun f => f.paths &&& 0b001110 != 0 && f.mask != 0
    ((r full).seqAt (full.g 0) (r full).head ((r full).clm - (r full).head).toNat = some 0xFFFE ∧ (r full).canFill 0xFFFE = true ∧
      bit (r full).cfg 0 = true ∧ covered full = true) ∧
    ((r filled).seqAt (filled.g 0) (r filled).tail ((r filled).head - (r filled).tail).toNat = some 0xFFFE ∧
      (r filled).canRelease 0xFFFE = true ∧ covered filled = true) := by decide

theorem witness_RingRunAdvances :
    let r := (ringed 0 0xFFFE 0xFFFE []).myCore.ring 63
    let all (q : Ring) : Ring := { q with fill := 3, rel := 3 }
    (r.count ≤ 256 ∧ r.head = 0xFFFE ∧ r.tail = 0xFFFE ∧ runOf r r.fill 0xFFFE 1 = true ∧ runOf r r.rel 0xFFFE 1 = true ∧
      runOf (all r) (all r).fill 0xFFFE 2 = true ∧ runOf (all r) (all r).rel 0xFFFE 2 = true ∧ r.count = 2) ∧
    (r.head ≠ 0xFFFF ∧ r.fill.getLsbD (r.slot r.head) = false ∧ r.slot r.head ≠ r.slot 0xFFFF) ∧
    (r.tail ≠ 0xFFFF ∧ r.rel.getLsbD (r.slot r.tail) = false ∧ r.slot r.tail ≠ r.slot 0xFFFF) := by decide

theorem witness_BarrierInstructions_misuse :
    let s0 := hub [(9, 31)]
    let bar (f : Barrier → Barrier) : State := s0.modCore 4 fun c => c.modBar 95 f
    let two := bar fun y => { y with members := [16, 17], arrived := [16] }
    let gone := bar fun y => { y with members := [16, 17], arrived := [16], leaving := [16] }
    (s0.me.mode = .user ∧ s0.homeCore 9 = none ∧ s0.me.barvWait = none ∧ s0.me.waiting = false) ∧
    s0.focus ∉ ((s0.core 4).bar 95).members ∧
    (let x := (two.core 4).bar 95
     two.homeCore 0 = some 4 ∧ two.focus ∈ x.members ∧ two.focus ∉ x.leaving ∧ two.focus ∈ x.arrived ∧
       x.arrived.length ≠ x.members.length ∧ two.arrivalWaits = false ∧ two.me.barvWait = none) ∧
    gone.focus ∈ ((gone.core 4).bar 95).members ∧ gone.focus ∈ ((gone.core 4).bar 95).leaving := by decide

theorem witness_RingInstructions_misuse :
    let off := hub [(1, 0x0880_0001), (2, 2)]
    let r (s : State) : Ring := s.myCore.ring 63
    let claimed := ringed 0 0xFFFE 0xFFFE [(1, 0x0880_0001), (2, 0x40), (3, 0xFFFE), (4, 0)]
    let spare := (ringed 0xFFFE 0xFFFE 0xFFFE []).modMyCore fun c => c.modRing 63 fun y => { y with waiters := [.cluster 17 1] }
    let empty := ringed 0 0 0xFFFE [(2, 0x40)]
    (off.me.mode = .user ∧ bit (r off).cfg 0 = false ∧ ringCfgOk (spadBytes off.myCoreIx) (off.g 2) = false) ∧
    (ringCfgOk (spadBytes claimed.myCoreIx) (claimed.g 1) = true ∧ (r claimed).clm ≠ (r claimed).tail) ∧
    (bit (r spare).cfg 0 = true ∧ ((r spare).clm - (r spare).tail).toNat + (r spare).waiters.length < 2) ∧
    (bit (r claimed).cfg 0 = true ∧ 2 ≤ ((r claimed).clm - (r claimed).tail).toNat ∧ claimed.me.since = 0 ∧
      claimed.me.waiting = false ∧
      (r claimed).seqAt (claimed.g 2) (r claimed).head ((r claimed).clm - (r claimed).head).toNat = none ∧
      2 ≤ (BitVec.ofNat 16 (claimed.g 4).toNat - (r claimed).tail).toNat) ∧
    (bit (r empty).cfg 0 = true ∧ (r empty).seqAt (empty.g 2) (r empty).tail ((r empty).head - (r empty).tail).toNat = none) := by decide


/-- The focus die holds a record in its ready store at level 3, which the focus cluster may take. -/
def stored (r : Record) (s : State) : State :=
  s.modDie s.myDieIx fun x => { x with store := [⟨r, false, 0, 0⟩] }

theorem witness_ContinuationWords :
    let s := stack [(1, 0xFF_FFE0), (2, 16), (4, 0x40), (5, 0xFFFF_FFFF), (6, 0x80)]
    let s := s.modMyCore fun c => { c with spad := [(0x40, 2)] }
    let zero := s.modMyCore fun c => { c with spad := [] }
    let full := s.modDie s.myDieIx fun x => { x with store := List.replicate Config.readyEntries ⟨⟨0, 0, 0, 0⟩, false, 0, 0⟩ }
    let due := ready (stored ⟨0, 0, 0, 0⟩ s)
    (s.me.mode = .user ∧ s.me.record = some ⟨0, 0, 0, 0⟩ ∧ s.me.dual = none) ∧
    (s.recordErrs (s.g 6) = [] ∧ (s.g 2).toNat = 16 ∧ s.pushWaits (s.g 6) 0 = false ∧ (s.die s.myDieIx).freeEntries ≠ 0) ∧
    (full.recordErrs (full.g 6) = [] ∧ full.pushWaits (full.g 6) 0 = false ∧ (full.die full.myDieIx).freeEntries = 0) ∧
    (s.atomWaits (.spad 0 0x40) 8 .a 0 true = false ∧ s.atomWaits (.spad 0 0x40) 64 .a 0 true = false ∧
      s.badUnits (.spad 0 0x40) 8 = [] ∧ 1 < leNat (s.peek (.spad 0 0x40) 4)) ∧
    (0 < (s.g 5).toNat ∧ (s.g 5).toNat < 2 ^ 32 ∧ leNat (zero.peek (.spad 0 0x40) 4) = 0 ∧ leNat (s.peek (.spad 0 0x40) 4) ≠ 0) ∧
    ((6 : Reg) ≠ 0 ∧ s.waitingAt 0 = false ∧ due.waitingAt 0 = true ∧ due.myDie.freeEntries ≠ 0) := by decide

theorem witness_ContinuationWords_join :
    let s := stack [(4, 0x40)]
    s.joinErrs (s.g 4) = ([], .ok (.spad 0 0x40), s) := rfl

/-- A cluster of S0 whose record has a join block at 0x40 with count n. -/
def joining (n : Byte) : State :=
  ((stack [(1, 0x80), (2, 15), (3, 0x40)]).modMe fun c => { c with record := some ⟨0, 0, 0x40, 0⟩ }).modMyCore fun c =>
    { c with spad := if n = 0 then [] else [(0x40, n)] }

theorem witness_ContinuationWords_exit :
    (let s := joining 1
     s.joinErrs 0x40 = ([], .ok (.spad 0 0x40), s)) ∧
    let s := joining 1
    s.me.mode = .user ∧ s.me.record = some ⟨0, 0, 0x40, 0⟩ ∧ s.me.dual = none ∧ s.atomWaits (.spad 0 0x40) 8 .a 0 true = false ∧
    s.badUnits (.spad 0 0x40) 8 = [] ∧ leNat (s.peek (.spad 0 0x40) 4) = 1 ∧ leNat ((joining 0).peek (.spad 0 0x40) 4) = 0 ∧
    leNat ((joining 2).peek (.spad 0 0x40) 4) = 2 ∧ (handler s).me.mode = .handler := ⟨rfl, by decide⟩

theorem witness_ContinuationWords_push :
    let u := joining 1
    let l : Loc := .spad 0 0x40
    let resv (s : State) : State := s.modDie 0 fun x => { x with resv := [l] }
    let full := u.modDie 0 fun x => { x with store := List.replicate Config.readyEntries ⟨⟨0, 0, 0, 0⟩, false, 0, 0⟩ }
    u.badWords (l.add 32) 32 = [] ∧ (resv u).badWords (l.add 32) 32 = [] ∧ l ∈ ((resv u).die 0).resv ∧ l ∉ (u.die 0).resv ∧
    (u.die 0).freeEntries ≠ 0 ∧ (full.die 0).freeEntries = 0 ∧ l ∉ (full.die 0).resv := by decide

theorem witness_ContinuationWords_slot :
    let s := ready (joining 1)
    let sl (q : QSlot) : State := s.modDie 0 fun x => { x with qslots := vset x.qslots 15 { q with
      st := .active, devq := true, core := 0, rbase := 0x1000, logn := 4 } }
    let room := sl QSlot.reset
    let full := sl { QSlot.reset with tail := 16 }
    let off := s.modDie 0 fun x => { x with qslots := vset x.qslots 15 { QSlot.reset with
      st := .active, devq := true, core := 0, rbase := 0xFF_FFFF_FFFF, logn := 4 } }
    (room.g 2).toNat = 15 ∧ room.recordErrs (room.g 1) = [] ∧ room.pushWaits (room.g 1) 0 = false ∧ (s.myDie.slot 15).st ≠ .active ∧
    (room.myDie.slot 15).st = .active ∧ (room.myDie.slot 15).devq = true ∧
    ((room.myDie.slot 15).tail - (room.myDie.slot 15).head).toNat ≠ 2 ^ (room.myDie.slot 15).logn ∧
    ((full.myDie.slot 15).tail - (full.myDie.slot 15).head).toNat = 2 ^ (full.myDie.slot 15).logn ∧
    (room.schedWrite 0 false 0x1000 (room.recordAt (room.g 1)).bytes true).1 = true ∧
    ((room.schedWrite 0 false 0x1000 (room.recordAt (room.g 1)).bytes true).2.die 0).schedMiss = false ∧
    ((off.schedWrite 0 false 0xFF_FFFF_FFFF (off.recordAt (off.g 1)).bytes true).2.die 0).schedMiss = false ∧
    room.me.gated (pathOf .a 0x1000) 0 = false ∧ off.me.gated (pathOf .a 0xFF_FFFF_FFFF) 0 = false ∧ room.me.fpOpen = false ∧
    (off.schedWrite 0 false 0xFF_FFFF_FFFF (off.recordAt (off.g 1)).bytes true).1 = false := by decide

theorem witness_VectorWordsQueue :
    let s := hub [(1, 0xFFFF_FF00_0100_0100), (2, 0), (4, 0x0100_0100)]
    let r := ringed 0 0 0 [(1, 0xFC00_0000_0100_0180), (2, 0x0001_0000_0100_0000)]
    let v (s : State) (a : Reg) : VecArgs := s.vecArgs .add false .bf16 (s.g a) (s.g 2)
    let room (s : State) : Prop := s.myCore.vq.length < 32 ∧ (s.myCore.vq.filter fun c => c.cl == s.focus).length < 8 ∧
      s.me.gated .v 0 = false
    bits (s.g 0) 24 16 = 0 ∧
    (bits (s.g 4) 24 16 ≠ 0 ∧ (v s 4).check (spadBytes s.myCoreIx) none = none ∧ room s ∧ (v s 4).dst.ring = none) ∧
    (bits (r.g 1) 24 16 ≠ 0 ∧ (v r 1).check (spadBytes r.myCoreIx) none = none ∧ room r ∧ (v r 1).dst.ring = some ⟨63, 0⟩ ∧
      r.ringGrants r.myCoreIx 63 r.myWaiter = true) := by decide

theorem witness_VectorChecksTrap :
    let s := hub [(1, 0x0100_0101), (2, 0), (4, 0x0300_0100_0100_0100)]
    let v (a b : Reg) : VecArgs := s.vecArgs .add false .f32 (s.g a) (s.g b)
    (s.me.mode = .user ∧ bits (s.g 1) 24 16 ≠ 0 ∧ (v 1 2).check (spadBytes s.myCoreIx) none = some (.lch, 0x101) ∧ bit (s.g 1) 0 = true ∧
      (v 1 2).alns = [] ∧ ((v 1 2).dest ++ (v 1 2).sources ++ (v 1 2).mask).flatMap (Shape.outOf (spadBytes s.myCoreIx)) = []) ∧
    (bits (s.g 4) 24 16 ≠ 0 ∧ (v 4 2).alns ≠ [] ∧ (v 4 2).check (spadBytes s.myCoreIx) none = some (.aln, 0x3_0001)) := by
  decide

theorem witness_VectorWordsQueue_world :
    let s := hub [(4, 0x0100_0100)]
    s.spadBarred s.myCoreIx (s.vecArgs .add false .bf16 (s.g 4) (s.g 2)).ranges = (none, s) ∧ bit s.myDie.wmapb 0 = false :=
  ⟨rfl, by decide⟩

theorem witness_VectorIntegerElements :
    (255 : Nat) < 2 ^ 8 ∧ (2 ^ 32 - 1 : Nat) < 2 ^ 32 ∧ (2 ^ 16 - 1 : Nat) < 2 ^ 16 := by decide

theorem witness_HorizonWords :
    let s := hub [(1, 0xFF01_0000), (2, 0), (4, 0x2F_FFFC)]
    let new : HzSlot := ⟨s.g 1, s.g 2, s.g 2, Series.reset⟩
    let room : Prop := s.myCore.vq.length < 32 ∧ (s.myCore.vq.filter fun c => c.cl == s.focus).length < 8 ∧ s.me.gated .v 0 = false
    (s.myCore.hzPending 15 s.serial = false ∧ bits (s.g 1) 0 8 = 0 ∧ bits (s.g 1) 10 2 = 0 ∧ bits (s.g 1) 32 32 = 0 ∧
      new.cfg.ok = true ∧ (s.myCore.hzSlot 15).ser.n < 256) ∧
    (bits (s.g 4) 0 2 = 0 ∧ bits (s.g 4) 0 24 < spadBytes s.myCoreIx ∧ bits (s.g 4) 24 40 = 0 ∧ room) := by decide

/-- A vector command of cluster 16 with a number, kind and operand word. -/
def vcmd (n : Nat) (kind : VecKind) (ga : Word) : VCmd :=
  ⟨n, 16, 0, kind, ga, 0, 0x2F_FF00, 0x100, 0x200, none, none, none, [], false, [], 0, 0⟩

/-- Commands that wait in the vector queue of the focus core. -/
def vqueued (cs : List VCmd) (s : State) : State := s.modMyCore fun c => { c with vq := cs }

theorem witness_VectorQueueRuns :
    let add := vcmd 7 (.vec .add false .bf16) 0x0100_0100
    let twice := { add with started := true, flags := 3, writes := [(0x2F_FFFE, [1, 2]), (0x2F_FFFD, [3, 4])] }
    let ring := { twice with ga := 0x0100_0110, dring := some ⟨63, 0⟩, aring := some ⟨62, 0⟩, bring := some ⟨62, 0⟩ }
    let s (c : VCmd) : State := vqueued [c] (ringed 1 0 0 [(1, 1), (2, 2)])
    let ready (c : VCmd) : Prop := ((s c).core 4).vcmd 7 = some c ∧ (s c).vecReady 4 c = true
    let done (c : VCmd) : Prop := ((s c).core 4).vcmd 7 = some c ∧ (s c).vecDone 4 c = true
    let mine (s : State) : List VCmd := s.myCore.vq.filter fun c => c.cl == s.focus
    (ready add ∧ ready (vcmd 7 (.push 15 true) 0) ∧ ready (vcmd 7 (.push 0 false) 0x2F_FFFC) ∧ ready (vcmd 7 (.result 15) 0)) ∧
    ((s add).core 4).spadBad = [] ∧ ((s add).core 4).spad.wf = true ∧ done twice ∧ done ring ∧
    ((s ring).core 4).ring 63 ≠ (((s ring).core 4).ring 63).doFill 0 ∧ (((s ring).core 4).ring 63).canFill 0 = true ∧
    (∀ v ∈ ([] : List (Nat × List Byte)), v.1 + v.2.length ≤ 0x2F_FFFD) ∧
    done { vcmd 7 (.push 15 true) 0 with started := true } ∧
    (∀ c ∈ mine (s add), (2 : Reg) ≠ 0 ∧ bit ((s add).g 2) c.cls.toNat = false) ∧
    (∃ c ∈ mine (s add), bit ((s add).g 1) c.cls.toNat = true) := by
  decide

theorem witness_HorizonWords_world :
    let s := hub [(4, 0x2F_FFFC)]
    s.spadBarred s.myCoreIx [(bits (s.g 4) 0 24, bits (s.g 4) 0 24 + 4)] = (none, s) := rfl


/-- A plane whose CTL is given: TM and TN 1, TK 32, one step a level, everything at 0. -/
def plane (ctl : Word) : Vector Word 32 :=
  vset ((iota 2 6).foldl (fun v i => vset v i 1) (Vector.replicate 32 0)) 0 ctl

/-- The matrix engine of the focus core changed. -/
def mxed (f : Matrix → Matrix) (s : State) : State := s.modMyCore fun c => { c with mx := f c.mx }

/-- A launch by cluster 16. -/
def launched : Launch := ⟨0, 16, 0, true, none, []⟩

theorem witness_MatrixWords :
    let s := mxed (fun z => { z with shd := plane 0x1011 }) (hub [(1, 31), (2, 0x2F_FF00), (4, 0x100), (5, 0x2F_FFFE), (6, 1),
      (7, 0x2F_FC00), (8, 0x17F)])
    let m := s.myCore.mx
    let cap := spadBytes s.myCoreIx
    let free (m : Matrix) : Bool := (m.run.isSome && !m.frozen) || (m.run.isNone && m.armed.isSome)
    let flt := mxed (fun z => { z with flt := true }) s
    let busy := mxed (fun z => { z with run := some launched }) s
    (isHub s.myDieIx = true ∧ bits (s.g 1) 5 59 = 0 ∧ m.armed = none) ∧
    ((s.g 2).toNat % 64 = 0 ∧ (s.g 2).toNat + 256 ≤ cap ∧ s.me.gated .m 0 = false ∧ s.myCore.lockedMx (s.g 2).toNat 256 = false ∧
      m.idxq = none ∧ s.held s.myCoreIx ⟨s.serial, [], [((s.g 2).toNat, (s.g 2).toNat + 256)], [], s.exemptNow s.myCoreIx⟩ = false ∧
      s.myCore.spadBad = []) ∧
    (let w := s.modMyCore fun c => { c with tiles := [⟨1, .copy 0 0, [(0x2F_FF00, [1])], true, [], some 1⟩] }
     w.myCore.lockedMx (s.g 2).toNat 256 = true ∧ w.me.gated .m 0 = false ∧ w.myCore.mx.armed = none ∧ w.myCore.mx.idxq = none) ∧
    (mxed (fun z => { z with idxq := some ⟨0, 16, 0, 0x100, [], false⟩ }) s).myCore.mx.idxq ≠ none ∧
    (leastErr (mxgoErrs cap m.shd (mxNest m.shd m.ishd)) = none ∧ m.run = none ∧ busy.myCore.mx.run ≠ none) ∧
    (free m = false ∧ m.flt = false ∧ m.sq.length ≤ 256 ∧ m.sq.length < 256 ∧ m.sqlds = []) ∧
    (free flt.myCore.mx = false ∧ flt.myCore.mx.flt = true ∧ flt.me.mode = .user) ∧
    ((s.g 5).toNat % 2 = 0 ∧ 0 < bits (s.g 6) 0 16 ∧ bits (s.g 6) 0 16 ≤ 256 ∧ (s.g 5).toNat + 2 * bits (s.g 6) 0 16 ≤ cap ∧
      m.sqlds.length < 4) ∧
    ((s.g 7).toNat % 128 = 0 ∧ 0 < bits (s.g 8) 8 8 ∧ bits (s.g 8) 0 7 + bits (s.g 8) 8 8 ≤ 128 ∧ bits (s.g 8) 16 48 = 0 ∧
      bit (s.g 8) 7 = false ∧ (s.g 7).toNat + 1024 * bits (s.g 8) 8 8 ≤ cap ∧ m.accBad = [] ∧ s.myCore.tiles = []) ∧
    (busy.myCore.mx.frozen = false ∧ busy.myCore.mx.drained = false ∧ ∀ z ∈ busy.myCore.tiles, z.owner ≠ .nest) := by
  decide

theorem witness_MatrixWords_world :
    let s := hub [(2, 0x2F_FF00), (5, 0x2F_FFFE), (7, 0x2F_FC00)]
    (s.myCore.secure = true ∨ bit s.myDie.wmapb 0 = false) ∧ s.mxSpadErrs (s.g 2) 64 256 = ([], s) ∧
    s.mxSpadErrs (s.g 5) 2 2 = ([], s) ∧ s.mxSpadErrs (s.g 7) 128 1024 = ([], s) := ⟨.inr (by decide), rfl, rfl, rfl⟩

theorem witness_MatrixWords_object :
    let s := mxed (fun z => { z with shd := plane 0x1011 }) (hub [])
    s.mxObject s.myCore.mx.shd (mxNest s.myCore.mx.shd s.myCore.mx.ishd) = (none, [], s) := rfl

/-- A nest of cluster 16 that runs with a plane. -/
def running (ctl : Word) : State := mxed (fun z => { z with act := plane ctl, run := some launched }) (hub [])

theorem witness_MatrixEngineEvents :
    let armed := mxed (fun z => { z with armed := some launched }) (hub [])
    let r := running 0x1011
    let n := running 0x41033
    let q := mxed (fun z => { z with sqlds := [⟨0, 16, 0, 0x2F_FFFE, 1⟩] }) (hub [])
    let d := mxed (fun z => { z with drained := true }) r
    let tile (l : Bool) : Tile := ⟨1, .drain 16 0, [(0xFF_FF00, [1, 2])], l, [], some 7⟩
    let later : Tile := ⟨2, .nest, [(0xFF_FF00, [1, 2])], false, [], some 8⟩
    let asks : Tile := { tile false with asked := none }
    let t (l : Bool) : State := (hub []).modMyCore fun c => { c with tiles := [tile l] }
    let i := mxed (fun z => { z with idxq := some ⟨0, 16, 0, 0x2F_FF00, [], false⟩ }) (hub [])
    (armed.myCore.mx.armed = some launched ∧ armed.myCore.mx.run = none ∧ armed.myCore.cxPend = false) ∧
    (r.mxReady 4 = some (launched, mxNest r.myCore.mx.act r.myCore.mx.iact) ∧ (mxNest r.myCore.mx.act r.myCore.mx.iact).scl ≠ 1 ∧
      (r.mxTranslate 4 launched ((mxNest r.myCore.mx.act r.myCore.mx.iact).accesses r.myCore.mx.at)).1 = none ∧
      (r.mxTranslate 4 launched ((mxNest r.myCore.mx.act r.myCore.mx.iact).accesses r.myCore.mx.at)).2.mxPagesLocked 4 launched
        (mxNest r.myCore.mx.act r.myCore.mx.iact) r.myCore.mx.at = false) ∧
    (i.myCore.cxPend = false ∧ i.myCore.lockedMx 0x2F_FF00 256 = false ∧ i.myCore.spadBad = [] ∧ i.myCore.mx.idxq.isSome = true ∧
      i.held 4 ⟨0, [], [(0x2F_FF00, 0x30_0000)], [], []⟩ = false ∧ armed.myCore.mx.idxq = none) ∧
    (let u := (hub []).modMyCore fun c => { c with tiles := [tile false, later] }
     u.myCore.tiles.find? (fun z => z.seq = 1) = some (tile false) ∧ (tile false).asked = some 7 ∧
       (∀ w ∈ u.myCore.tiles, w.seq = 1 ∨ w.shares (tile false) = false ∨ (w.locked = false ∧ ∀ b ∈ w.asked, 7 < b))) ∧
    (let u := (hub []).modMyCore fun c => { c with tiles := [asks] }
     u.myCore.tiles.find? (fun z => z.seq = 1) = some asks ∧ asks.asked = none ∧ asks.locked = false ∧ asks.owner = .drain 16 0 ∧
       u.held 4 ⟨1, [(0xFF_FF00, 0xFF_FF02)], [], [], []⟩ = false ∧ ∀ w ∈ u.myCore.tiles, w.seq = 1) ∧
    (n.mxReady 4 = some (launched, mxNest n.myCore.mx.act n.myCore.mx.iact) ∧ (mxNest n.myCore.mx.act n.myCore.mx.iact).scl = 1 ∧
      n.myCore.mx.sq = [] ∧ n.myCore.mx.sqlds = [] ∧ (n.cluster 16).runs 0 = true ∧ (n.cluster 16).record.isSome = true) ∧
    (q.myCore.mx.sqlds = [⟨0, 16, 0, 0x2F_FFFE, 1⟩] ∧ q.myCore.cxPend = false ∧ q.myCore.mx.sq.length < 256 ∧
      q.myCore.lockedMx 0x2F_FFFE 2 = false ∧ q.myCore.spadBad = [] ∧ q.held 4 ⟨0, [], [(0x2F_FFFE, 0x30_0000)], [], []⟩ = false) ∧
    (d.myCore.mx.run = some launched ∧ d.myCore.mx.drained = true ∧ ∀ z ∈ d.myCore.tiles, z.owner ≠ .nest) ∧
    ((t false).myCore.tiles.find? (fun z => z.seq = 1) = some (tile false) ∧
      (∀ w ∈ (t false).myCore.tiles, w.seq = 1) ∧
      (t false).held 4 ⟨1, [(0xFF_FF00, 0xFF_FF02)], [], [], []⟩ = false) ∧
    ((t true).myCore.tiles.find? (fun z => z.seq = 1) = some (tile true) ∧ (t true).myCore.spad.wf = true ∧
      (t true).myCore.spadBad = [] ∧ 0xFF_FF00 + 2 ≤ 2 ^ 24) := by decide

theorem witness_MatrixChunkArithmetic :
    ([(1, 1), (1, -1)].map fun p : Int × Int => p.1 * p.2).sum = 0 ∧ ([(2 ^ 200, -3)].map fun p : Int × Int => p.1 * p.2).sum ≠ 0 ∧
    (0 : Nat) < 1 := by decide

/-- Engine 0 of the focus core with commands, and the matrix engine left alone. -/
def queued (cs : List CopyCmd) (s : State) : State := s.modEngine s.myCoreIx 0 fun z => { z with queue := cs }

/-- A command of cluster 16 at its first index. -/
def command (kind : CopyKind) (ga gb : Word) (nest : Option Nest) : CopyCmd :=
  ⟨0, 16, 0, kind, ga, gb, true, 0, nest, List.replicate 6 0, none, false, false, false, (0, 0, 0), []⟩

theorem witness_CopyWords :
    let s := stack [(1, 0xBF_FFFF), (2, 1), (4, 0), (5, 0x8000_0000_0000_001F), (6, 0xBF_FF80), (7, 19), (8, 0xF_FFFF), (9, 0x1F)]
    let both := (s.modEngine 0 1 fun z => { z with hold := true, err := some .lch }).modEngine 0 2 fun z => {
      z with hold := true, err := some .xlt }
    let at_ (c : CopyCmd) : State := s.modEngine 0 0 fun z => { z with queue := [c] }
    let block (s : State) (x : Word) : Bool := decide ((bit x 63 = true ∧ bits x 5 58 = 0) ∨ (x.toNat % 128 = 0 ∧
      (x.toNat + 128 ≤ spadBytes s.myCoreIx ∨ (isHub s.myDieIx = true ∧ 2 ^ 32 ≤ x.toNat ∧ x.toNat < 2 ^ 33))))
    let cap := spadBytes s.myCoreIx
    let count := s.engineCount s.myCoreIx
    let held := s.modEngine 0 0 fun z => { z with hold := true, err := some .lch, errVal := 0x402 }
    let room (e : Nat) : Prop := (s.myCore.engine e).queue.length < 16 ∧
      (s.myCore.ce.toList.map fun z => z.queue.length).sum < 32
    let named (e : Nat) : Prop := e < count ∧ (s.g 2 = 0 ∨ bit (s.g 2) e = true)
    ((both.myCore.engine 2).stopAt = none ∧ (held.myCore.engine 0).stopAt = none) ∧
    count = 20 ∧
    (bits (s.g 2) 32 5 < count ∧ bits (s.g 2) 0 25 ≠ 0 ∧ room (bits (s.g 2) 32 5) ∧ s.me.gated .c 0 = false ∧
      leastErr (cpyErrs cap (s.myCore.ring (bits (s.g 2) 42 6)) (s.g 1).toNat (s.g 4).toNat (s.g 2)) = none) ∧
    (bits (s.g 4) 32 5 < count ∧ bits (s.g 4) 0 25 = 0 ∧ bits (s.g 4) 25 7 = 0 ∧ bits (s.g 4) 37 3 = 0 ∧ bits (s.g 4) 48 16 = 0 ∧
      bits (s.g 4) 40 2 < 2 ∧
      leastErr (cpyErrs cap (s.myCore.ring (bits (s.g 4) 42 6)) (s.g 1).toNat (s.g 0).toNat (s.g 4)) = none) ∧
    (block s (s.g 5) = true ∧ block s (s.g 6) = true ∧ block (hub []) 0x1_FFFF_FF80 = true) ∧
    (bits (s.g 7) 0 5 < count ∧ bits (s.g 7) 5 59 = 0 ∧ bit (s.g 5) 63 = true ∧ bits (s.g 5) 5 58 = 0 ∧ room 19) ∧
    ((s.g 6).toNat % 128 = 0 ∧ (s.g 6).toNat + 128 ≤ cap) ∧
    (bits (s.g 7) 5 3 = 0 ∧ bits (s.g 7) 9 55 = 0 ∧ bits (s.g 6) 48 15 = 0 ∧ bit (s.g 6) 63 = false) ∧
    (bits (s.g 9) 8 5 < count ∧ bits (s.g 9) 5 3 = 0 ∧ bits (s.g 9) 13 51 = 0) ∧
    ((s.g 8).toNat < 2 ^ count ∧ count ≤ 20 ∧ (s.g 2).toNat < 2 ^ count ∧ (s.g 2) ≠ 0 ∧ named 0) ∧
    ((∀ e < count, (s.myCore.engine e).hold = false ∧ ∀ c ∈ (s.myCore.engine e).queue, c.cl ≠ s.focus)) ∧
    ((both.myCore.engine 2).recorded.1.code < (both.myCore.engine 1).recorded.1.code) ∧
    (((at_ (command .cpy 0 0 none)).myCore.engine 0).queue.head? = some (command .cpy 0 0 none) ∧
      (command .cpy 0 0 none).idx.length = 6 ∧ ∀ i ∈ (command .cpy 0 0 none).idx, i < 1024) ∧
    ((held.myCore.engine 0).hold = true ∧ held.me.mode = .user ∧ (held.myCore.engine 0).err = some .lch) ∧
    ((s.g 7).toNat < count ∧ count ≤ 32 ∧ (s.myCore.engine (s.g 7).toNat).queue = [] ∧ bits (s.g 2) 1 63 = 0) := by decide

theorem witness_CopyWords_traps :
    let s := ringed 0 0 0 []
    let z := stack []
    let z := z.modMyCore fun c => c.modRing 63 fun y => { y with cfg := 0x0880_0001 }
    let cap := spadBytes z.myCoreIx
    let r := z.myCore.ring 63
    let y (rm n : Nat) : Word := word (n + rm * 2 ^ 40 + 63 * 2 ^ 42)
    let plain (y : Word) : Bool := decide (bits y 25 7 = 0 ∧ bits y 37 3 = 0 ∧ bits y 48 16 = 0)
    let meets (src dst n : Nat) : Bool := decide (0 < n ∧ src < dst + n ∧ dst < src + n)
    let low (a : Word) : Bool := decide (bits a 0 48 % 128 = 0 ∧ bits a 0 48 + 128 ≤ cap)
    (z.me.mode = .user ∧ z.engineCount z.myCoreIx = 20 ∧ 20 ≤ bits 0x1F_0000_0000 32 5 ∧ 20 ≤ bits 0x1F 0 5 ∧ 20 ≤ bits 0x1F00 8 5) ∧
    (bits (y 0 2) 32 5 < 20 ∧ leastErr (cpyErrs cap r 0xBF_FFFF 0 (y 0 2)) = some (.xlt, 0xC0_0000) ∧ bits (y 0 2) 0 25 = 2 ∧
      cap < 0xBF_FFFF + 2 ∧ 0 + 2 ≤ cap) ∧
    (plain 0x2000000 = false ∧ plain (y 3 2) = true ∧ bits (y 3 2) 40 2 = 3 ∧ plain (y 0 2) = true ∧ meets 0 1 2 = true ∧
      bits (y 2 2) 40 2 = 2 ∧ plain (y 2 2) = true ∧ (z.myCore.ring 0).enabled = false ∧ plain (y 1 2) = true ∧ bits (y 1 2) 40 2 = 1 ∧
      meets 0x200 0x7F 2 = false ∧ r.enabled = true ∧ r.count = 2 ∧
      ∀ j ∈ List.range r.count, ¬(r.base + j * r.size ≤ 0x7F ∧ 0x7F + 2 ≤ r.base + (j + 1) * r.size)) ∧
    (bit (1 : Word) 63 = false ∧ bits (1 : Word) 0 48 % 128 ≠ 0 ∧ bits 0xC0_0000 0 48 % 128 = 0 ∧ 0xC0_0000 < 2 ^ 24 ∧
      cap < 0xC0_0000 + 128 ∧ isHub z.myDieIx = false ∧ bit 0x8000_0000_0000_0020 63 = true ∧
      bits 0x8000_0000_0000_0020 5 58 ≠ 0 ∧ low 0x1_0000_0000_0080 = true ∧ bits 0x1_0000_0000_0080 48 15 ≠ 0 ∧ low 0x80 = true ∧
      bits 0xE0 5 3 ≠ 0 ∧ bits 0x200 9 55 ≠ 0 ∧ bit (0x80 : Word) 63 = false ∧ bit (0x100 : Word) 8 = true) ∧
    (bits 0x2000 13 51 ≠ 0 ∧ bits 0x2000 8 5 < 20) ∧
    (s.engineCount s.myCoreIx = 1 ∧ 2 ^ 1 ≤ bits 2 0 20 ∧ bits 0x10_0000 0 20 < 2 ^ 1 ∧ (s.myCore.engine 0).hold = false ∧
      bit (2 : Word) 0 = false ∧ 1 ≤ bits 20 0 5 ∧ bits 0x20 0 5 < 1 ∧ bits 0x20 5 59 ≠ 0 ∧ bits 2 1 63 ≠ 0) := by decide

theorem witness_CopyWords_barred :
    (let s := stack []
     s.spadBarred s.myCoreIx [(1, 129)] = (none, s) ∧ s.spadBarred s.myCoreIx [] = (none, s)) ∧
    (let s := (stack []).modDie 0 fun z => { z with wmapb := 1, wcache := [((stack []).physAddr (.spad 0 0) / 2 ^ 16, true)] }
     (s.spadBarred s.myCoreIx [(0, 128)]).1 = some 0) := ⟨⟨rfl, rfl⟩, by decide⟩

theorem witness_CopyWords_world :
    let s := stack [(6, 0xBF_FF80)]
    s.spadBarred s.myCoreIx [((s.g 6).toNat, (s.g 6).toNat + 128)] = (none, s) := rfl

theorem witness_InnermostCopyMoves :
    let n : Nest := { plainNest 0 0x100 with run := 16 }
    let c := command .cpy 0 0x10 (some n)
    let s := secure (queued [c] (ready (hub [])))
    let f : CopyCmd := { c with flying := true }
    let t := (queued [f] (hub [])).modMyCore fun x => { x with tiles := [⟨5, .copy 0 0, [(0xFF_FFFE, [1, 2])], true, [], some 5⟩] }
    (s.copyNext 4 0 = some (c, n) ∧ ((s.core 4).engine 0).queue.head? = some c ∧ s.flits = [] ∧ coreOf c.cl = 4 ∧ c.flying = false ∧ n.skind = 0 ∧ n.dkind = 0 ∧ n.rm = 0 ∧ n.nar = 0 ∧
      n.total = none ∧ 0 < n.run ∧ n.run ≤ 2 ^ 20 ∧ n.srcAt c.idx = 0 ∧ n.dstAt c.idx 0 = 0x100 ∧ 0 + n.run ≤ spadBytes 4 ∧
      0x100 + n.run ≤ spadBytes 4 ∧ (s.core 4).secure = true ∧ (s.core 4).spadBad = [] ∧ (s.core 4).tiles = [] ∧ c.tag = 0 ∧
      (s.die (dieOf 4)).ready = true) ∧
    ((t.core 4).tiles = [⟨5, .copy 0 0, [(0xFF_FFFE, [1, 2])], true, [], some 5⟩] ∧ t.flits = [] ∧ ((t.core 4).engine 0).queue = [f] ∧
      f.flying = true ∧ f.nest = some n ∧ (t.core 4).spad.wf = true ∧ (t.core 4).spadBad = [] ∧ 0xFF_FFFE + 2 ≤ 2 ^ 24) := by
  decide

/-- A check that ended in a cause other than PRM. -/
def refused (r : Except (Cause × Nat) Nest) : Bool := match r with | .error x => x.1 != .prm | .ok _ => false

theorem witness_CopyEngineEvents :
    let p (ga : Word) : State := queued [command .cpyp ga 0 none] (hub [])
    let block : List Word := blockWords (((p 0x8000_0000_0000_001F).myCore.engine 0).store.readN (128 * 31) 128)
    let u := (p 0x8000_0000_0000_001F).modEngine 4 0 fun z => z.enterBlock ⟨0x8000_0000_0000_001F, false, block⟩
    let inv := queued [command .cpinv 0 0 none] (hub [])
    let nest := queued [command .cpnest 0x2F_FF80 31 none] (hub [])
    let claim : Nest := { plainNest 0 0 with rm := 2, ring := 63 }
    let r := queued [command .cpy 0 0 (some claim)] (ringed 0 0 0 [])
    let fill := queued [{ command .cpy 0 0 (some claim) with fillDue := true, unit := some ⟨63, 0⟩ }] (ringed 1 0 0 [])
    let done := queued [{ command .cpy 0 0 (some claim) with finished := true }] (hub [])
    let aged := (hub []).modEngine 4 0 fun z => { z with winAge := 2 ^ 20 }
    let paused := (hub []).modEngine 4 0 fun z => { z with pause := true }
    ((p 0x8000_0000_0000_001F).copyHead 4 0 = some (command .cpyp 0x8000_0000_0000_001F 0 none) ∧
      (p 0x8000_0000_0000_001F).beforeFetch (command .cpyp 0x8000_0000_0000_001F 0 none) = false ∧
      (p 0x8000_0000_0000_001F).fetchHeld 4 0 (command .cpyp 0x8000_0000_0000_001F 0 none) = false ∧
      (∀ z ∈ ((p 0x8000_0000_0000_001F).myCore.engine 0).cache, z.key ≠ 0x8000_0000_0000_001F) ∧
      refused (u.checkBlock 4 true block).1 = true) ∧
    (inv.copyHead 4 0 = some (command .cpinv 0 0 none)) ∧
    (nest.copyHead 4 0 = some (command .cpnest 0x2F_FF80 31 none) ∧
      nest.held 4 (nest.copyEntryOf 4 (command .cpnest 0x2F_FF80 31 none)) = false ∧
      (nest.core 4).lockedBut (Tile.byEngine 0) 0x2F_FF80 128 = false ∧ (nest.myCore.engine 0).stopAt = none ∧
      (nest.core 4).spadBad = []) ∧
    (r.copyNext 4 0 = some (command .cpy 0 0 (some claim), claim) ∧ r.ringGrants 4 63 (some (.engine 0)) = true) ∧
    ((fill.copyHead 4 0).isSome = true ∧ ((fill.core 4).ring 63).canFill 0 = true) ∧ (done.copyHead 4 0).isSome = true ∧
    (let two := (queued [{ command .cpy 0 0 (some claim) with finished := true }, { command .cpy 0 0 (some claim) with seq := 9 }]
        (hub [])).modEngine 4 0 fun z => { z with stopAt := some (9, 0x1_0000) }
     (two.copyHead 4 0).isSome = true ∧ (two.myCore.engine 0).stopAt = some (9, 0x1_0000)) ∧
    (2 ^ max 10 (min 30 (bits (aged.myCore.engine 0).scfg 8 5)) ≤ (aged.myCore.engine 0).winAge ∧ 0 < aged.engineCount 4) ∧
    ((paused.myCore.engine 0).pause = true ∧ paused.engWaits 4 0 = false ∧ (paused.die (dieOf 4)).mig = none ∧ paused.flits = []) := by decide


/-- A compute-region tensor of four rows of 64 weights in two planes, in lane 0, as a handle entry of slot 0 (R307). -/
def tensor : HEntry := ⟨0, [0xB840_0000_0000_0001, 0x1_0000_0001, 0x40_0000_0004, 0, 0, 0, 0, 0], [0]⟩

/-- The same tensor as a validated object of S0. -/
def tensorObj : Obj := ⟨0, 0xB840_0000_0000_0001, 0x1_0000_0001, 0x40_0000_0004, 0, 0, [0]⟩

/-- A format entry of two planes with one plane at the least and two at the most. -/
def twoPlanes : FmtEntry := ⟨0x22_1000, 0, 0⟩

/-- The lanes of the focus die changed. -/
def laned (f : Lanes → Lanes) (s : State) : State := s.modDie s.myDieIx fun z => { z with lanes := f z.lanes }

/-- A stack core that can issue an LDOT of the tensor. -/
def ldots : State :=
  (laned (fun z => { z with iss0 := vset z.iss0 0 twoPlanes }) (stack [(1, 0xC0_0000), (2, 0x0004_1000_0000_0000), (3, 0),
    (4, 0x22_1000), (5, 0x0000_1F00), (6, 0xBF_FFBE), (7, 0xFFC0_0010_0000_0000), (8, 0x1000)])).modMyCore fun c =>
      { c with htcfg := 1 }

/-- The tensor in the cache of the die's handle entries. -/
def cached (s : State) : State := s.modDie s.myDieIx fun z => { z with hcache := [tensor] }

theorem witness_LaneWords :
    let s := ldots
    let l := s.myDie.lanes
    let e : FmtEntry := ⟨word (bits (s.g 4) 0 58), s.g 3, s.g 3⟩
    let len := 64 * bits (s.g 7) 36 12
    let n := len / 32 * 33
    (isHub s.myDieIx = false ∧ l.buf.length < 32 ∧ l.intv < 256 ∧ bits (s.g 4) 1 3 = 0 ∧ bits (s.g 4) 6 2 = 0 ∧ bits (s.g 4) 24 34 = 0 ∧
      e.ok = true) ∧
    (bits (s.g 5) 0 2 ≠ 3 ∧ bits (s.g 5) 2 6 = 0 ∧ bits (s.g 5) 16 48 = 0 ∧ -32 ≤ sextNat (bits (s.g 5) 8 8) 8 ∧
      sextNat (bits (s.g 5) 8 8) 8 ≤ 31) ∧
    ((s.g 3).toNat < 3 ∧ (s.g 3).toNat < 2) ∧
    (bits (s.g 6) 24 40 = 0 ∧ bits (s.g 7) 0 35 = 0 ∧ 0 < len ∧ len ≤ 4096 ∧ bits (s.g 7) 54 10 % 2 ^ bits (s.g 7) 50 4 = 0 ∧
      bits (s.g 7) 54 10 + 2 ^ bits (s.g 7) 50 4 ≤ s.myDie.lanesN ∧ 2048 * bits (s.g 7) 48 2 + n ≤ 8192 ∧
      bits (s.g 6) 0 24 + n * 2 ^ bits (s.g 7) 50 4 ≤ spadBytes s.myCoreIx ∧ s.me.gated .l 0 = false) ∧
    (bits (s.g 3) 48 16 = 0 ∧ bits (s.g 3) 2 6 = 0 ∧ bits (s.g 3) 9 55 = 0 ∧ s.ldotPending = false ∧ bits (s.g 8) 2 4 = 0 ∧
      bits (s.g 8) 13 51 = 0 ∧ bits (s.g 8) 0 2 ≠ 3 ∧ l.fmtBad = [] ∧ [(64, 0)].contains (bits (s.g 8) 6 6 + 64, bits (s.g 8) 0 2) = true) := by
  decide

theorem witness_LaneWords_ldot :
    let s := cached ldots
    let m : LMacro := { s.newMacro .ldot 0 (s.g 3) (s.g 3) (s.g 2) with dring := none, dbase := bits (s.g 3) 40 24 }
    let u := s.modMyCore fun c => c.modRing 63 fun y => { y with cfg := 0x0880_0001 }
    let w : Word := 0xFC00_0000_0000_0080
    let q : LMacro := { u.newMacro .ldot 0 w (u.g 3) (u.g 2) with dring := some ⟨63, 0⟩, dbase := (u.myCore.ring 63).addr 0 }
    bits (s.g 2) 48 16 ≠ 0 ∧ bit (s.g 3) 7 = false ∧ s.myDie.lanes.buf.length < 32 ∧ s.me.gated .l 0 = false ∧
    m.select s.me.loops = some 0 ∧
    m.addrErrs (spadBytes s.myCoreIx) ++ s.ldotErrs m (.ok tensorObj) (some (s.myDie.lanes.issueEntry 0)) ++ m.ringErrs none 0 = [] ∧
    bit w 7 = true ∧ bits w 58 6 = 63 ∧ bits w 40 18 = 0 ∧ (u.myCore.ring 63).clm = 0 ∧ q.select u.me.loops = some 0 ∧
    q.addrErrs (spadBytes u.myCoreIx) ++ u.ldotErrs q (.ok tensorObj) (some (u.myDie.lanes.issueEntry 0)) ++
      q.ringErrs (some (u.myCore.ring 63)) 0 = [] ∧ u.ringGrants u.myCoreIx 63 u.myWaiter = true := by decide

theorem witness_LaneWords_world :
    let s := cached ldots
    let m : LMacro := { s.newMacro .ldot 0 (s.g 3) (s.g 3) (s.g 2) with dring := none, dbase := bits (s.g 3) 40 24 }
    s.laneBarred (m.vectors.map fun v => (m.resultAddr 0 v, m.resultAddr m.rows v)) = ([], s) ∧
    s.spadBarred s.myCoreIx [(bits (s.g 6) 0 24, bits (s.g 6) 0 24 + 66)] = (none, s) := ⟨rfl, rfl⟩

theorem witness_LaneWords_object :
    (cached ldots).laneObject (BitVec.ofNat 32 (bits ((cached ldots).g 3) 32 32)) = (.ok tensorObj, cached ldots) := rfl

theorem witness_AbsentUnitsRaiseAut :
    (stack []).me.mode = .user ∧ isHub (stack []).myDieIx = false ∧ isHub (hub []).myDieIx = true := by decide

theorem witness_LaneBlockSums : (32 = 32 ∨ 32 = 64) ∧ (64 = 32 ∨ 64 = 64) := by decide

theorem witness_ReductionTreeOrder : ([0, 0] : List W32).length = 2 ^ 1 := by decide

/-- A macro of cluster 0 with a number. -/
def macro_ (seq : Nat) (kind : LKind) (ga gb : Word) : LMacro :=
  { (stack []).newMacro kind 0 0 ga gb with seq := seq, entry := twoPlanes }

/-- The LDOT of row 0 and vector 0 of the tensor. -/
def dot : LMacro := { macro_ 7 .ldot 0 0x0001_1000_0000_0000 with obj := some tensorObj, dbase := 0xFF_FFFC }

/-- One slice result of it. -/
def slice : SliceRes := ⟨0, 0, 0, 0x3F80_0000, 2, Series.reset, false, 0⟩

theorem witness_LaneEvents :
    let at_ (ms : List LMacro) : State := laned (fun z => { z with live := ms }) (stack [])
    let buf := laned (fun z => { z with buf := [macro_ 1 .lhzc 0 0] }) (stack [])
    let dots (bad : List (Nat × Nat)) : State := laned (fun z => { z with buf := [dot], fmtBad := bad }) (stack [])
    let mode (n : Nat) (bad : Bool) : LMacro := { dot with rmode := n, results := [{ slice with poison := bad }] }
    let lands (q : LMacro) : Bool := decide ((at_ [q]).myDie.lanes.macro? 7 = some q ∧ q.kind = .ldot ∧ q.obj = some tensorObj ∧
      (q.slices 0 0 1).length = 2 ^ tensorObj.spl ∧ q.isDelivered 0 0 = false ∧
      (at_ [q]).bankWait (.spad 0 (q.resultAddr 0 0)) q.esz = false ∧ q.resultAddr 0 0 + 4 ≤ 2 ^ 24 ∧
      q.rows * q.vectors.length - q.delivered.length = 1)
    let fmt := at_ [macro_ 1 .lfmt 0 0]
    let go := at_ [dot]
    let run := laned (fun z => { z with runs := [dot.freshRun 0 0] }) go
    let twice := laned (fun z => { z with live := [{ dot with replays := [(0, 2)] }], runs := [dot.freshRun 0 0] }) (stack [])
    let res := at_ [{ dot with results := [slice] }]
    let cast : LMacro := macro_ 3 .lmcst 0xBF_FFBE 0xFFC0_0010_0000_0000
    let m := at_ [cast]
    let last := laned (fun z => { z with prep := true, prepAge := 3_200_000 }) (stack [])
    (buf.myDie.lanes.buf = [macro_ 1 .lhzc 0 0] ∧ buf.myDie.lanes.mayBroadcast 1024 = true) ∧
    ((dots [(0, 1)]).myDie.lanes.buf = [dot] ∧ (dots [(0, 1)]).myDie.lanes.mayBroadcast 1024 = true ∧ dot.fe = 0 ∧
      (dots []).myDie.lanes.fmtBad = []) ∧
    (fmt.laneRuns 0 1023 = true ∧ (∀ r ∈ fmt.myDie.lanes.runs, r.lane ≠ 1023) ∧
      fmt.myDie.lanes.doneOf 1023 < fmt.myDie.lanes.least 1024 + 48 ∧ fmt.myDie.lanes.head 1023 = some (macro_ 1 .lfmt 0 0)) ∧
    (go.laneRuns 0 0 = true ∧ go.myDie.lanes.head 0 = some dot ∧ tensorObj.sliceIn 0 = some 0 ∧ dot.nextRow 0 0 = some 0) ∧
    (run.laneRuns 0 0 = true ∧ (run.myDie.lanes.runs.find? fun r => r.lane == 0) = some (dot.freshRun 0 0) ∧
      run.myDie.lanes.head 0 = some dot ∧ run.myDie.lanes.stopped = false ∧ dot.replaysIn 0 < 2 ∧
      (let r := dot.freshRun 0 0
       let beat := run.shareRead tensorObj r.lane ((dot.row0 + r.row) * tensorObj.rowBytes + r.data.length) (tensorObj.nextBeat r) 0
       beat.2.1 = false ∧ r.data.length + beat.1.length < tensorObj.prefixBytes r.p)) ∧
    ((lands (mode 0 false) && lands (mode 1 false) && lands (mode 2 false) && lands (mode 2 true)) = true ∧ (mode 2 true).results.any (·.poison) = true ∧
      (at_ [mode 0 false]).cluster dot.cl = (stack []).me ∧ ((stack []).me.runs dot.seq = true) ∧
      1 < LMacro.rows { dot with gb := 0x0002_1000_0000_0000 } * dot.vectors.length) ∧
    (twice.myDie.lanes.head 0 = some { dot with replays := [(0, 2)] } ∧ 2 ≤ LMacro.replaysIn { dot with replays := [(0, 2)] } 0) ∧
    (res.myDie.lanes.macro? 7 = some { dot with results := [slice] } ∧ res.tableCore 0 = some 0 ∧ dot.rmode = 0 ∧
      (LMacro.slices { dot with results := [slice] } 0 0 1).length = 2 ^ tensorObj.spl ∧ dot.isDelivered 0 0 = false ∧
      (res.core 0).spad.wf = true ∧ (res.core 0).spadBad = [] ∧
      dot.resultAddr 0 0 + 4 ≤ 2 ^ 24) ∧
    (findIdx (fun q => q.seq == 3) m.myDie.lanes.live = some (0, cast) ∧ cast.landed = false ∧ m.myDie.lanes.stopped = false ∧
      (∀ j < cast.mcstLanes.2, m.myDie.lanes.doneOf (cast.mcstLanes.1 + j) = m.myDie.lanes.base + 0) ∧
      m.bankWait (.spad 0 cast.mcstSrc) (cast.mcstBytes * cast.mcstLanes.2) = false ∧ m.myDie.lanes.abuf.wf = true ∧
      2048 * cast.mcstSlot + cast.mcstBytes ≤ 8192) ∧
    ((at_ [macro_ 1 .lrsync 1 0]).myDie.lanes.gathered 1024 = true ∧ (at_ [macro_ 1 .lsafe 0 0]).myDie.lanes.tail = []) ∧
    (bit last.myDie.elbase 0 = false ∧ last.myDie.lanes.prep = true ∧ 3_200_000 ≤ last.myDie.lanes.prepAge) := by decide

theorem witness_LaneWords_lmcst_traps :
    let s := ldots
    let shut := (stack []).modDie 0 fun z => { z with wmapb := 1, wcache := [((stack []).physAddr (.spad 0 0) / 2 ^ 16, true)] }
    let full := laned (fun z => { z with intv := 256 }) s
    let cap := spadBytes s.myCoreIx
    let y : Word := 0xFFC0_0010_0000_0000
    let each (y : Word) : Nat := if bit y 35 then bits y 36 12 * 65 else 64 * bits y 36 12 / 32 * 33
    let ok (y : Word) : Bool := decide (0 < bits y 36 12 ∧ bits y 36 12 ≤ 64 ∧ bits y 54 10 % 2 ^ bits y 50 4 = 0 ∧
      bits y 54 10 + 2 ^ bits y 50 4 ≤ s.myDie.lanesN ∧ 2048 * bits y 48 2 + each y ≤ 8192)
    s.me.mode = .user ∧ (each y * 2 ^ bits y 50 4 = 66 ∧ cap < 0xBF_FFC0 + 66 ∧ 0xBF_FFBE + 66 ≤ cap) ∧
    (shut.laneBarred [(0, 66)]).1 = [(.prm, 0)] ∧ (s.laneBarred [(0, 66)]).1 = [] ∧
    bits 0x100_0000 24 40 ≠ 0 ∧ (bits y 0 35 = 0 ∧ ok y = true ∧ ok 0 = false ∧ each 0 * 2 ^ bits 0 50 4 = 0) ∧
    256 ≤ full.myDie.lanes.intv := by decide

theorem witness_LaneWords_ldot_traps :
    let s := cached ldots
    let shut := s.modDie 0 fun z => { z with wmapb := 1, wcache := [(s.physAddr (.spad 0 0) / 2 ^ 16, true)] }
    let imp := (s.modMyCore fun c => { c with pitcfg := 1 }).modDie 0 fun z => { z with icache := [(0, 0)] }
    let full := laned (fun z => { z with intv := 256 }) s
    let u := s.modMyCore fun c => c.modRing 63 fun y => { y with cfg := 0x0880_0001 }
    let m (w x y : Word) : LMacro := { s.newMacro .ldot 0 w x y with dring := none, dbase := bits w 40 24 }
    let y : Word := 0x0004_1000_0000_0000
    let short (x : Word) : Bool := decide (tensorObj.rows < (m 0 x y).row0 + (m 0 x y).rows)
    let entry (y : Word) : Option FmtEntry := ((m 0 0 y).select s.me.loops).map s.myDie.lanes.issueEntry
    (s.me.mode = .user ∧ bits y 48 16 ≠ 0 ∧ (m 0x100_0000_0000 0 y).dbase % 4 ≠ 0 ∧ (m 0x100_0000_0000 0 y).esz = 4) ∧
    ((m 0xBFFFFC00_0000_0000 0 y).dbase = 0xBF_FFFC ∧ (m 0 0 y).rows = 4 ∧ (m 0 0 y).vectors = [0] ∧ 0xBF_FFFC + 16 > spadBytes s.myCoreIx) ∧
    (shut.laneBarred [(0, 16)]).1 = [(.prm, 0)] ∧ (s.laneObject 5).1 = .error (.hdl, 5) ∧ bits (y + 1) 0 35 ≠ 0 ∧
    (imp.laneObject 0x80_0000).1 = .error (.lch, 0x603) ∧ (short 1 = true ∧ short 0 = false) ∧
    ((m 0 0 0x0004_0000_0000_0000).vectorsBad tensorObj.sliceLen (entry 0x0004_0000_0000_0000) = true ∧
      (m 0 0 y).vectorsBad tensorObj.sliceLen (entry y) = false) ∧
    (entry 0x0004_1800_0000_0000 = none ∧ (m 0 0 0x0004_1800_0000_0000).vectorsBad tensorObj.sliceLen none = false) ∧
    (((entry 0x0004_1008_0000_0000).map FmtEntry.npl) = some 0 ∧ (entry y).map FmtEntry.npl = some tensorObj.npl ∧ tensorObj.npl = 2) ∧
    256 ≤ full.myDie.lanes.intv ∧ (bit (0x80 : Word) 7 = true ∧ (s.myCore.ring 0).enabled = false) ∧
    ((u.myCore.ring 63).enabled = true ∧ (u.myCore.ring 63).size < bits 0xFC00_8000_0000_0080 40 18 + 4 * 4) := by decide


/-- A posted write of a cluster of H1 to hub SRAM of H0. -/
def flit (red : Option (Nat × AtomType)) (n : Nat) : Flit :=
  ⟨5, 112, 0, .s, 0, 0, .hub 4 0x40, List.replicate n 1, red, none, none, 5, 0, 5, 0, 1, .write, 0, false⟩

/-- It is on its way. -/
def sent (f : Flit) (s : State) : State := { s with flits := [f] }

theorem witness_LinkWordsAndTurns :
    let on (f : Link → Link) (s : State) : State := s.modLink 0 f
    let d : DieIx := (linkEnds 0).1
    let s (v : Word) : State := (if isHub d then hub else stack) [(2, v)]
    let full := on (fun y => { y with queue := List.replicate 8 3 }) (s 15)
    let q := on (fun y => { y with queue := [1], age := 3200 }) (s 1)
    let low := on (fun y => { y with share := 1, queue := [8], age := 3200, endA := { y.endA with floorAge := 31999 } }) (s 1)
    let t := on (fun y => { y with turning := some (15, true) }) (s 1)
    let dd := on (fun y => { y with dead := 77, age := 77 }) (s 1)
    let starved := on (fun y => { y with share := 1, age := 3200, endA := { y.endA with floorAge := 32000 } }) (s 1)
    ((s 15).myDieIx = d ∧ ((s 15).g 1).toNat = (0 : LinkIx).val ∧ onLink 0 d = true ∧ 1 ≤ ((s 15).g 2).toNat ∧ ((s 15).g 2).toNat ≤ 15 ∧
      ((s 15).link 0).queue.length < 8 ∧ 8 ≤ (full.link 0).queue.length) ∧
    (((s 1).g 2).toNat < 2 ∧ ((s 1).link 0).queue.length ≤ 8 ∧
      (∀ x ∈ ((s 1).link 0).share :: ((s 1).link 0).queue, 1 ≤ x ∧ x ≤ 15) ∧ (((s 1).link 0).nearEnd 0 d).fcnt ≤ 255) ∧
    ((q.link 0).queue = [1] ∧ 1 ≠ (q.link 0).share ∧ (q.link 0).turning = none ∧ (q.link 0).retraining = false ∧ 3200 ≤ (q.link 0).age ∧
      (q.link 0).share ≠ 1 ∧ (q.link 0).share ≠ 15) ∧
    ((low.link 0).share = 1 ∧ (low.link 0).endA.floorAge < 32000 ∧ 8 ≠ (low.link 0).share) ∧
    (t.link 0).turning = some (15, true) ∧ ((dd.link 0).dead ≠ 0 ∧ (dd.link 0).dead ≤ (dd.link 0).age) ∧
    ((starved.link 0).turning = none ∧ (starved.link 0).retraining = false ∧ 3200 ≤ (starved.link 0).age ∧
      (starved.link 0).share = 1 ∧ 32000 ≤ (starved.link 0).endA.floorAge) := by decide

theorem witness_RegistersRead :
    let s := secure (hub [])
    let posted := sent { flit none 8 with cl := 16 } s
    s.me.gatedCreg = false ∧ s.postedScalar s.focus = false ∧ posted.me.gatedCreg = false ∧ posted.postedScalar posted.focus = true ∧
    cregAcc (isHub s.myDieIx) 0xC00 ≠ none ∧ s.cregAbsent s.myCoreIx 0xC00 = false ∧ s.myCore.secure = true ∧
    cregAcc (isHub s.myDieIx) 0x001 ≠ none ∧ s.cregAbsent s.myCoreIx 0x001 = false := by decide

theorem witness_RegistersWritten :
    let s := handler (secure (hub []))
    let t := handler (secure (stack []))
    s.me.gatedCreg = false ∧ s.postedScalar s.focus = false ∧ t.postedScalar t.focus = false ∧ (s.g 0).toNat < 32 ∧ s.me.mode = .handler ∧ s.myCore.secure = true ∧ outside (s.g 0) 0x1F = false ∧
    outside (s.g 0) 1 = false ∧ (s.g 0).toNat ≤ 639 ∧ isHub t.myDieIx = false ∧ t.me.gatedCreg = false := by decide

theorem witness_PrivilegedWords :
    let s := hub [(1, 0xFF_F000), (2, allOnes)]
    s.me.mode = .user ∧ bits s.me.tepc 0 2 = 0 ∧ (s.g 1).toNat % 4096 = 0 ∧ (s.g 1).toNat < 0x100_0000 ∧
    cregAcc (isHub s.myDieIx) 0xFFF = none ∧
    (cregAcc (isHub s.myDieIx) 0x740 = none ∨ (cregAcc (isHub s.myDieIx) 0x740 ≠ none ∧ s.cregAbsent s.myCoreIx 0x740 = true)) ∧
    (cregAcc (isHub s.myDieIx) 0x801 = some .r ∧ s.cregAbsent s.myCoreIx 0x801 = false) ∧
    (cregAcc (isHub s.myDieIx) 0xC00 ≠ none ∧ s.myCore.secure = false) ∧
    (cregAcc (isHub s.myDieIx) 0x005 = some .h ∧ outside (s.g 0) (cregMask 0x005) = false ∧ cregValueBad 0x005 (s.g 0) = false) ∧
    outside (s.g 2) (cregMask 0x005) = true ∧ (cregAcc (isHub s.myDieIx) 0x018 = some .r ∧ outside (s.g 2) (readMask 0x018) = true) ∧
    (outside (s.g 0) (readMask 0x801) || cregValueBad 0x801 (s.g 0)) = false ∧
    (outside (s.g 0) (cregMask 0x740) || cregValueBad 0x740 (s.g 0)) = false := by decide

theorem witness_TrapEntryAndReturn :
    let s := hub []
    let h := handler (s.modMe fun c => { c with tepc := 0x3_FFFC })
    let p := s.modMe fun c => { c with pend := [⟨.wdg, 1, noPath⟩] }
    s.me.mode = .user ∧ (h.me.mode = .handler ∧ h.me.tepc.toNat % 4 = 0) ∧
    ((p.cluster 16).nextAsync = some ⟨.wdg, 1, noPath⟩ ∧ (p.cluster 16).mode = .user ∧ (p.cluster 16).fences = [] ∧ noPath < 8) ∧
    (s.cluster 16).record.isSome = true := by decide

theorem witness_DoubleTraps :
    let h := handler ((hub []).modMe fun c => { c with tepc := 2 })
    let wdg := h.modMe fun c => { c with pend := [⟨.wdg, 1, noPath⟩] }
    let mck := h.modMe fun c => { c with pend := [⟨.mck, 2, noPath⟩] }
    let gone := (hub []).modMe fun c => { c with stopped := true }
    (h.me.mode = .handler ∧ bits h.me.tepc 0 2 ≠ 0 ∧ cregAcc (isHub h.myDieIx) 0xFFF = none) ∧
    ((wdg.cluster 16).mode = .handler ∧ (wdg.cluster 16).firstPend = some ⟨.wdg, 1, noPath⟩ ∧ Cause.wdg ≠ Cause.mck) ∧
    ((mck.cluster 16).nextAsync = some ⟨.mck, 2, noPath⟩) ∧ (gone.cluster 16).stopped = true := by decide

/-- Handler mode, with registers of its bank. -/
def hregs (gs : List (Reg × Word)) (s : State) : State :=
  (handler s).modMe fun c => gs.foldl (fun (acc : Cluster) p => acc.setG p.1 p.2) c

/-- A request of cluster 16 that has a reply. -/
def request : WsReq := ⟨16, 0, 5, true, false, 0, 0, 0, none, some 9⟩

theorem witness_WaitingSystemWords :
    let s := hub [(1, 0xFFFF_FFFF), (2, 1), (4, 5), (5, 6)]
    let h := hregs [(1, 0xFFFF_FFFF_FFFF), (2, 1), (3, 3), (4, 5), (5, 6), (6, 0x100), (7, 0x101), (8, 2), (9, 4), (10, 0xFF7F_FFFF)] s
    let due := s.modMe fun c => { c with pend := [⟨.wdg, 1, noPath⟩] }
    let out := s.modMe fun c => { c with idle := some 0 }
    let mb := s.modDie s.myDieIx fun x => { x with mbRun := true }
    let got := (s.modDie s.myDieIx fun x => { x with ws := [request] }).modMe fun c => { c with wstag := some 5 }
    let ck := (ready h).modDie h.myDieIx fun x => { x with ckcfg := 1 }
    let asked := s.modDie s.myDieIx fun x => { x with ws := [{ request with reply := none }] }
    ((s.g 1).toNat < 2 ^ 32 ∧ s.me.idle = none ∧ s.idleEnds = false ∧ due.idleEnds = true ∧ out.me.idle = some 0) ∧
    (h.me.mode = .handler ∧ h.postedAt h.focus false = false ∧ (∀ r ∈ ([0, 2, 3, 4, 5, 6, 7, 8, 9] : List Reg),
      h.tlbinvWaits (h.g 1) (h.g r) = false) ∧ h.tlbinvWaits (h.g 10) 2 = false ∧ (h.g 6, h.g 7, h.g 8, h.g 9) = (0x100, 0x101, 2, 4) ∧
      bits (h.g 10) 32 32 = 0 ∧ bit (h.g 10) 23 = false ∧ bits (h.g 0) 23 41 = 0 ∧ h.tlbinvWaits (h.g 0) 4 = false ∧ (h.g 0, h.g 2, h.g 3, h.g 4, h.g 5) = (0, 1, 3, 5, 6) ∧ (h.g 1).toNat < 2 ^ 48 ∧
      (secure h).myCore.secure = true) ∧
    (s.wsMine = none ∧ s.wsOther = false ∧ mb.wsOther = false ∧ s.postedAt s.focus false = false ∧ s.myDie.mbRun = false ∧ mb.myDie.mbRun = true) ∧
    (got.wsMine = some request ∧ request.reply = some 9) ∧
    (bit h.myDie.ckcfg 0 = false ∧ bit ck.myDie.ckcfg 0 = true ∧ ck.me.ckWait = none ∧ ck.mayCheckpoint ck.myDieIx = true) ∧
    ((out.cluster 16).idle = some 0 ∧ (out.cluster 16).record.isSome = true ∧ (out.cluster 16).held = false) ∧
    ((asked.die 4).ws.find? (fun r => r.cl = 16 ∧ r.reply.isNone) = some { request with reply := none } ∧
      (WsReq.answer { request with reply := none } 4).isSome = true ∧ ((asked.die 4).ws.map WsReq.tag).Nodup) := by decide

/-- In the TLB of the focus core, on ready dies: the first 2 MiB from 0x1_0000_0000 are mapped to hub SRAM, and the first page of the send
window to port 0, read, write and user (R299). -/
def paged (s : State) : State :=
  ready (s.modMyCore fun c => { c with ptroot := 1, tlb := [⟨0x800, true, 0x3B⟩, ⟨0x100_0000, true, 0xFB⟩] })

/-- A core whose context operation is given, with cluster 16 held. -/
def stopping (op : CtxOp) : State :=
  paged (((hub []).modMyCore fun c => { c with ctxOp := op, cxPend := true }).modMe fun c => { c with held := true })

/-- A cluster that may save to 0x1_0000_0000. -/
def saver : State := paged (hregs [(1, 0x1_0000_0000)] ((hub []).modMe fun c => { c with saver := true }))

theorem witness_ContextOperations :
    let a := (hub []).modMyCore fun c => { c with ctxOp := .saving 0x100_0000 true, cxPend := true }
    let s (trap : Bool) : State := stopping (.saving 0x1_0000_0000 trap)
    let h := saver
    let idle := (stopping (.restoring 0x1_0000_0000)).modCluster 16 fun c => { c with record := none }
    let clear := idle.modMyCore fun c => { c with ctxOp := .clearing }
    ((a.core 4).stopAsked = true ∧ a.allHeld 4 = false ∧
      ∀ c ∈ clustersOf 4, (a.cluster c).stoppable = true ∧ (a.cluster c).dual = none ∧ a.dualEnds c = false) ∧
    (∀ t ∈ [false, true], ((s t).core 4).ctxOp = .saving 0x1_0000_0000 t ∧ ((s t).core 4).cxFail = false ∧ (s t).allHeld 4 = true ∧
      (∀ c ∈ clustersOf 4, ((s t).cluster c).stoppable = true) ∧ (s t).unitsStopped 4 = true) ∧
    ((clustersOf 4).find? (fun c => ((s true).cluster c).record.isSome) = some 16 ∧ ((s false).core 4).owntag ≠ 0xFFFF) ∧
    (h.me.mode = .handler ∧ (h.g 1).toNat % 4096 = 0 ∧ h.me.saver = true ∧ 0x100_0000 ≤ (h.g 1).toNat ∧
      (h.xlate h.myCoreIx false h.myCore.secure .write (h.g 1).toNat).1 = .ok (.hub 4 0) ∧ h.myCore.cxPend = false ∧
      ((hub []).modCluster 17 fun c => { c with record := some ⟨0, 0, 0, 0⟩ }).quiescent 4 (some 16) = false) ∧
    (idle.core 4).ctxOp = .restoring 0x1_0000_0000 ∧ ((clear.core 4).ctxOp = .clearing ∧ clear.quiescent 4 none = true) ∧
    (((hub []).modMyCore fun c => { c with ctxOp := .clearing }).quiescent 4 none = false) := by decide

theorem witness_ContextOperations_images :
    let s := stopping (.saving 0x1_0000_0000 false)
    let w := ((s.abandonCopies 4).modCore 4 fun x => { x with owntag := 0xFFFF, mx := x.mx.stop }).writeImage 4 0x1_0000_0000
    let v := saver.writeImage 4 0x1_0000_0000
    let r := (w.2.modCore 4 fun x => { x with ctxOp := .restoring 0x1_0000_0000, cxPend := true }).restore 4 0x1_0000_0000 none
    (w.1 = true ∧ s.schedWaited w.2 (dieOf 4) = false) ∧ (v.1 = true ∧ saver.schedWaited v.2 saver.myDieIx = false) ∧
    (r.1 = 0 ∧ w.2.schedWaited r.2 (dieOf 4) = false) := by decide +kernel

/-- A cluster that may save, whose image would lie in the send window. -/
def sender : State := hregs [(1, 0x2000_0000_0000)] saver

theorem witness_ContextOperations_failed :
    let w := sender.writeImage 4 0x2000_0000_0000
    (sender.me.mode = .handler ∧ (sender.g 1).toNat % 4096 = 0 ∧ sender.me.saver = true ∧ sender.g 1 = 0x2000_0000_0000) ∧
    (sender.xlate 4 false false .write 0x2000_0000_0000).1 = .ok (.send 4 0 0) ∧ w.1 = false ∧
    sender.schedWaited w.2 sender.myDieIx = false := by decide

/-- A handler on a quiescent core whose memory holds an image there. -/
def restorer : State :=
  let w := saver.writeImage 4 0x1_0000_0000
  hregs [(1, 0x1_0000_0000)] (w.2.modMe fun c => { c with record := some ⟨0, 0, 0, 0⟩ })

theorem witness_ContextOperations_crest :
    let r := restorer.restore restorer.myCoreIx (restorer.g 1).toNat (some restorer.focus)
    restorer.me.mode = .handler ∧ (restorer.g 1).toNat % 4096 = 0 ∧ restorer.myCore.cxPend = false ∧ r.1 = 0 ∧
    restorer.schedWaited r.2 restorer.myDieIx = false := by decide +kernel

theorem witness_ContextOperations_crest_within :
    let s := restorer.modMyCore fun c => { c with ctxOp := .checkpoint, cxPend := true }
    let r := s.restore s.myCoreIx (s.g 1).toNat (some s.focus)
    r.1 = 0 ∧ (r.2.core 4).ctxOp = .checkpoint ∧ s.schedWaited r.2 s.myDieIx = false := by decide +kernel

theorem witness_ImageTokensRoundTrip : ([0, allOnes] : List Word).length ≤ 2 ^ 20 := by decide


/-- A checkpoint of H0 with its ends. -/
def point (ends : List (LinkIx × LinkEnd)) : Ckpt :=
  ⟨1, [], [], [(0, 7)], ends, Vector.replicate 16 QSlot.reset, [], [], [], Vector.replicate 3 EthPort.reset, []⟩

/-- Die 4 has this committed checkpoint in its home. -/
def keeping (k : Ckpt) (s : State) : State :=
  (s.modDie 4 fun x => { x with ckValid := true }).modDie (ckHome 4) fun x => { x with ckSlots := [(4, k)] }

theorem witness_CheckpointEvents :
    let x (f : Die → Die) (s : State) : State := s.modDie 4 f
    let due := x (fun y => { y with ckcfg := 0x1_0001, ckAge := 1600000 }) (ready State.reset)
    let stop := ((ready State.reset).beginCheckpoint 4)
    let rep := keeping (point [((linksOf 4).headD 0, { LinkEnd.reset with applied := 3 })]) State.reset
    let l := (linksOf 4).headD 0
    let e : Nat := if endDie l 0 = 4 then 0 else 1
    (bit (due.die 4).ckcfg 0 = true ∧ 0 < bits (due.die 4).ckcfg 16 16 ∧ bits (due.die 4).ckcfg 16 16 * 1600000 ≤ (due.die 4).ckAge ∧
      (due.die 4).ready = true ∧ due.mayCheckpoint 4 = true) ∧
    (stop.checkpointStopped 4 = true ∧ (stop.die (ckHome 4)).ready = true ∧ (stop.die 4).hubBad = [] ∧ bit (stop.die 4).elbase 0 = false) ∧
    (e < 2 ∧ endDie l e = 4 ∧ rep.committedEnd 4 l = some { LinkEnd.reset with applied := 3 } ∧
      ((rep.link l).farEnd l 4).reported ≠ 3) := by decide

/-- Both ends of link 0 hold a log of 12,288 flits, three quarters of a hub die's. -/
def logged : State :=
  let e : LinkEnd := { LinkEnd.reset with log := List.replicate 12288 (flit none 8) }
  (ready State.reset).modLink 0 fun x => { x with endA := e, endB := e }

theorem summed (n : Nat) : ∀ m, (List.replicate n (flit none 8)).foldl (fun k f => k + f.nums) m = m + n := by
  induction n with
  | zero => intro m; rfl
  | succ n ih => intro m; rw [List.replicate_succ, List.foldl_cons, ih]; simp [flit]; omega

theorem witness_CheckpointEvents_log :
    3 * logFlits 4 ≤ 4 * ((logged.link 0).nearEnd 0 4).logged ∧ ((logged.link 0).nearEnd 0 4).ckAsked = false ∧
    (logged.die 4).ready = true ∧ logged.mayCheckpoint 4 = true := by
  have h : ((logged.link 0).nearEnd 0 4).log = List.replicate 12288 (flit none 8) := rfl
  rw [show ((logged.link 0).nearEnd 0 4).logged = 12288 by rw [LinkEnd.logged, h]; exact summed 12288 0]
  refine ⟨by decide, rfl, rfl, rfl⟩

theorem witness_ResetsAndBoot :
    let r := ready State.reset
    let v := keeping (point []) r
    let head : List Byte := [0x53, 0x46, 0x49, 0x4B] ++ List.replicate 60 0
    let im : List Byte := head ++ List.replicate 1793 7
    let at_ (n : Nat) (d : DieIx) (f : Die → Die) : State := State.reset.modDie d fun y => f { y with stage := n }
    ((r.die 4).ready = true ∧ bit (r.die 4).elbase 0 = false ∧ r.committed 4 = none) ∧
    ((v.die 4).ready = true ∧ bit (v.die 4).elbase 0 = false ∧ v.committed 4 = some (point [])) ∧
    (∀ n ∈ [1, 2, 3, 4], ((at_ n 4 id).die 4).bootErr = 0 ∧ ((at_ n 4 id).die 4).stage = n) ∧
    (((at_ 2 4 id).die 4).image = none ∧ ((at_ 2 4 fun y => { y with image := some head }).die 4).image = some head ∧
      imageParts head = none ∧ ((at_ 2 4 fun y => { y with image := some im }).die 4).image = some im ∧
      imageParts im = some (head, [], List.replicate 1793 7) ∧ leNat ((im.drop 4).take 4) = 0 ∧
      ((at_ 2 4 fun y => { y with minsvn := 1 }).die 4).minsvn = 1 ∧ ((at_ 2 4 id).die 4).minsvn ≤ 0) ∧
    (isHub 0 = false ∧ ((at_ 3 0 fun y => { y with memTestOk := false }).die 0).memTestOk = false ∧ isHub 4 = true ∧
      (at_ 3 0 id).busesPass 0 = true ∧ ((at_ 3 0 id).die 0).memTestOk = true ∧
      ((at_ 4 4 fun y => { y with linksOk := false }).die 4).linksOk = false ∧ ((at_ 4 4 id).die 4).linksOk = true) ∧
    ((List.replicate 32 (7 : Byte)).length = 32 ∧ 3 ≤ ((at_ 3 4 id).die 4).stage) ∧
    ((at_ 3 4 fun y => { y with attest := some [] }).die 4).attest = some [] := by decide

theorem witness_RecoveryEvents :
    let w := (hub []).modMe fun c => { c with syncWait := true, syncAge := 65537 }
    let p (n : Nat) : State := (hub []).modMe fun c => { c with replays := n }
    let crc (n : Nat) : State := (sent { flit none 8 with link := some 0 } State.reset).modLink 0 fun x => { x with retries := n }
    let tr := State.reset.modLink 0 fun x => { x with retraining := true }
    let late := sent { flit none 8 with age := 3200000 } State.reset
    let bad := (State.reset.modDie 4 fun x => { x with hubBad := [3] }).modDie 0 fun x => { x with dramBad := [3] }
    let core := State.reset.modCore 4 fun x => { x with spadBad := [3], imemBad := [3] }
    ((w.cluster 16).record.isSome = true ∧ (w.cluster 16).syncWait = true ∧ 0 < (w.core (coreOf 16)).syncwd.toNat ∧
      (w.core (coreOf 16)).syncwd.toNat < (w.cluster 16).syncAge ∧ ∀ q ∈ (w.cluster 16).pend, q.cause ≠ .wdg) ∧
    (((p 1).cluster 16).record.isSome = true ∧ ((p 1).cluster 16).held = false ∧ (p 1).hasBegun 16 = false ∧
      bit ((p 1).die (dieOfClu 16)).elbase 0 = false ∧ ((p 1).cluster 16).replays < 2 ∧ 2 ≤ ((p 2).cluster 16).replays ∧
      ((p 1).cluster 16).carriedTag = none) ∧
    (((crc 15).link 0).retraining = false ∧ (∃ f ∈ (crc 15).flits, f.link = some 0) ∧ ((crc 15).link 0).retries < 16 ∧ (flit none 8).agent = 0 ∧
      16 ≤ ((crc 16).link 0).retries ∧ (tr.link 0).retraining = true) ∧
    (late.flits.find? (fun f => f.seq = 5) = some { flit none 8 with age := 3200000 } ∧ late.homeReady (.hub 4 0x40) = false ∧
      ∀ d, bit (late.die d).elbase 0 = false) ∧
    (bad.beatFails 0 4 = false ∧ 3 ∈ (bad.die 0).dramBad ∧ 3 ∈ (bad.die 4).hubBad ∧ (bad.die 4).hub.wf = true ∧ core.coreAt 4 0 = some 4 ∧
      3 ∈ (core.core 4).spadBad ∧ (core.core 4).spad.wf = true ∧ 3 ∈ (core.core 4).imemBad ∧ (core.core 4).imem.wf = true) := by
  decide

/-- A request of cluster 16 to a place. -/
def remote (kind : RemoteKind) (loc : Loc) : Remote := ⟨6, kind, 3, 0x40, loc, 0, 0, false, [], none, false, 0, 0x40, none, 0, none⟩

/-- Cluster 16 waits for it, on ready dies. -/
def asking (r : Remote) : State := ready ((hub []).modMe fun c => { c with remote := some r })

theorem witness_RecoveryEvents_requests :
    let a : RemoteKind := .atomic .add 8 1 0
    let gone : Remote := { remote a (.hub 5 0x40) with executed := true }
    let s := asking gone
    let on := asking (remote a (.hub 5 0x40))
    let r : Remote := { remote (.load 8 true) (.hub 5 0x40) with age := 3200000 }
    let late := (asking r).modDie 5 fun x => { x with ready := false }
    ((s.cluster 16).record.isSome = true ∧ (s.cluster 16).held = false ∧ s.hasBegun 16 = false ∧ (s.cluster 16).replays < 2 ∧
      (s.cluster 16).carriedTag = some ((s.cluster 16).pc, 0)) ∧
    (∃ l : LinkIx, (on.link l).retraining = false ∧ on.requestOn l 16 = true ∧ (on.link l).retries < 16) ∧
    ((late.cluster 16).remote = some r ∧ (∀ f ∈ late.flits, f.seq ≠ 6) ∧
      (∀ c ∈ allClusters, c ≠ 16 → (late.cluster c).remote = none) ∧ late.homeReady r.loc = false ∧ (late.cluster 16).mode = .user ∧
      ∀ d, bit (late.die d).elbase 0 = false) := by decide

theorem witness_RemoteAccesses :
    let at_ : Loc := .hub 5 0x40
    let gone : Loc := .peer 5 0 0
    let a : RemoteKind := .atomic .add 8 1 0
    let s (r : Remote) : State := asking r
    let tagged := (s (remote a at_)).modDie 5 fun x => { x with tags := [⟨16, 0, [1]⟩] }
    let bad := (s (remote a at_)).modDie 5 fun x => { x with hubBad := [8] }
    let done (k : RemoteKind) (f : Option Cause) : Remote := { remote k at_ with executed := true, failed := f }
    let red := sent (flit (some (0, .s32)) 32) (ready State.reset)
    let post := sent (flit none 8) (ready State.reset)
    let held : State := { State.reset with merges := [⟨2, at_, 0, .s32, [], [], 0, false⟩] }
    let fl (x : State) : Prop := x.isRepeat (flit none 8) = false ∧ (x.die 4).ready = true ∧ (x.die 4).hub.wf = true ∧ (x.die 4).hubBad = []
    (((s (remote (.load 8 true) at_)).cluster 16).remote = some (remote (.load 8 true) at_) ∧
      (s (remote (.load 8 true) at_)).requestHeld 16 (remote (.load 8 true) at_) = false ∧
      (s (remote (.load 8 true) at_)).homeReady at_ = true ∧ (s (remote (.load 8 true) at_)).badUnits at_ 8 = [] ∧
      (s (remote (.load 8 true) at_)).loggedAnswer (remote (.load 8 true) at_) 16 = none ∧
      ((s (remote (.load 8 true) at_)).cluster 16).dual = none ∧ ((s (remote (.load 8 true) at_)).cluster 16).mode = .user) ∧
    ((s (remote a at_)).requestHeld 16 (remote a at_) = false ∧ (s (remote a at_)).homeReady at_ = true ∧
      (s (remote a gone)).requestHeld 16 (remote a gone) = false ∧ (s (remote a gone)).homeReady gone = true ∧
      (tagged.die at_.point).tagOf 16 0 = some ⟨16, 0, [1]⟩ ∧ ((s (remote a at_)).die at_.point).tagOf 16 0 = none ∧
      ((s (remote a gone)).die gone.point).tagOf 16 0 = none ∧ ((s (remote a at_)).die 5).hub.wf = true ∧
      (s (remote a at_)).badUnits at_ 8 = [] ∧ bad.badUnits at_ 8 ≠ [] ∧
      (s (remote a at_)).loggedAnswer (remote a at_) 16 = none ∧ bit (bad.die 5).elbase 0 = false) ∧
    ((s (done a none)).responseHeld 16 (done a none) = false ∧
      (s (done (.vatomic 0 .s32 [] (some 0x20)) none)).responseHeld 16 (done (.vatomic 0 .s32 [] (some 0x20)) none) = false) ∧
    (((s (done a none)).cluster 16).remote = some (done a none) ∧ ((s (done a (some .ecu))).cluster 16).remote = some (done a (some .ecu)) ∧
      ((s (done (.vatomic 0 .s32 [] (some 0x20)) none)).core (coreOf 16)).spad.wf = true ∧
      ((s (done (.vatomic 0 .s32 [] (some 0x20)) none)).core (coreOf 16)).spadBad = []) ∧
    (fl red ∧ red.flitReady (flit (some (0, .s32)) 32) = true ∧ (flit (some (0, .s32)) 32).bytes.length = 32 ∧
      (flit (some (0, .s32)) 32).underway = false) ∧
    (fl post ∧ post.flitReady (flit none 8) = true ∧ (flit none 8).underway = false ∧ (flit none 8).tag = none) ∧ (held.merges.find? (fun m => m.seq = 2)).isSome = true := by decide

theorem witness_RemoteAccesses_arrive :
    let s (loc : Loc) : State := asking (remote (.load 8 true) loc)
    let a (loc : Loc) : State := asking (remote (.atomic .add 8 1 0) loc)
    (s (.hub 5 0x40)).arrive (.hub 5 0x40) 8 .read ((s (.hub 5 0x40)).secureOf 16) = (some (.hub 5 0x40), s (.hub 5 0x40)) ∧
    (s (.peer 5 0 0)).arrive (.peer 5 0 0) 8 .read ((s (.peer 5 0 0)).secureOf 16) = (none, s (.peer 5 0 0)) ∧
    (a (.hub 5 0x40)).arrive (.hub 5 0x40) 8 .atomic ((a (.hub 5 0x40)).secureOf 16) = (some (.hub 5 0x40), a (.hub 5 0x40)) ∧
    (a (.peer 5 0 0)).arrive (.peer 5 0 0) 8 .atomic ((a (.peer 5 0 0)).secureOf 16) = (none, a (.peer 5 0 0)) :=
  ⟨rfl, rfl, rfl, rfl⟩


/-- H0 ready, its slot 15 changed. -/
def slotted (f : QSlot → QSlot) : State := (ready State.reset).modDie 4 fun x => { x with qslots := vset x.qslots 15 (f (x.slot 15)) }

/-- The TLB of the first core of H0 maps 0x1_0000_0000 to hub SRAM. -/
def tabled (s : State) : State := s.modCore 4 fun c => { c with ptroot := 1, tlb := [⟨0x800, true, 0x3B⟩] }

theorem witness_HostAndQueueEvents :
    let r := ready State.reset
    let sec := r.modDie 4 fun x => { x with wmapb := 1, wcache := [(0, true)] }
    let act := slotted fun y => { y with st := .active, qnum := 0xFFF, logn := 4, head := 0xFFFF_FFFF, tail := 0xFFFF_FFFF }
    let map := tabled ((slotted fun y => { y with st := .mapping, core := 4 }).modDie 4 fun x => { x with qtbase := 0x1_0000_0000 })
    let off : Nat := 0x0_FFF8
    let v : Word := 0x0000_0FFF_0000_0000
    let place (n : Nat) : Prop := isHub 4 = true ∧ 0 < n ∧ off % 2 ^ 16 + n ≤ 2 ^ 16 ∧ off + n ≤ Config.hubSramBytes ∧
      (r.die 4).hub.wf = true ∧ (r.die 4).hubBad = []
    ((State.reset.die 4).ready = false ∧ (r.die 4).ready = true ∧ place 8 ∧ place 4 ∧ off % 8 = 0) ∧
    bit (sec.die 4).elbase 0 = false ∧
    (r.coreAt 4 0 = some 4 ∧ cregAcc (isHub 4) 0x100 = some .h ∧ r.cregAbsent 4 0x100 = false ∧ outside (5 : Word) (cregMask 0x100) = false ∧
      cregValueBad 0x100 5 = false ∧ (match r.cregWrite 4 false 0x100 5 with | .ok _ => true | .error _ => false) = true ∧
      (match r.cregWrite 4 false 0x100 5 with | .ok u => r.schedWaited u 4 | .error _ => true) = false ∧ cregAcc (isHub 4) 0x801 = some .r ∧ 0x6000 % 8 = 0 ∧ 0x6000 < 0x3F_0000 ∧ 0xC00 ≤ 0x6000 % 2 ^ 15 / 8) ∧
    (bits (allOnes : Word) 44 20 ≠ 0 ∧ bits v 44 20 = 0 ∧ (act.die 4).slotOf (bits v 32 12) = some 15 ∧
      ((act.die 4).slot 15).st = .active ∧ ((act.die 4).slot 15).devq = false ∧
      tailTooFar ((act.die 4).slot 15).head ((act.die 4).slot 15).logn (v.setWidth 32) = false) ∧
    (bit (1 : Word) 0 = true ∧ outside (1 : Word) (maskAt 36 12 + maskAt 0 4) = false ∧ ((r.die 4).slot 15).st = .free ∧
      (r.die 4).slotOf (bits (1 : Word) 36 12) = none) ∧
    (((map.die 4).slot 15).st = .mapping ∧ ((map.die 4).slot 15).heldTails = [] ∧ ((map.die 4).slot 15).unmapDue = false) ∧
    (((slotted fun y => { y with st := .unmapping }).die 4).slot 15).st = .unmapping ∧
    (slotted fun y => { y with st := .unmapping }).taking 4 15 = false := by decide

theorem witness_HostAndQueueEvents_world :
    let r := ready State.reset
    let sec := r.modDie 4 fun x => { x with wmapb := 1, wcache := [(0, true)] }
    r.worldOk 4 false 0xFFF8 8 = (true, r) ∧ sec.worldOk 4 false 0xFFF8 8 = (false, sec) := ⟨rfl, rfl⟩

/-- A slot being mapped, with memory that holds its table entry and the header that it names. -/
def mapping (hub : Mem) : State :=
  tabled ((slotted fun y => { y with st := .mapping, core := 4 }).modDie 4 fun x => { x with qtbase := 0x1_0000_0000, hub := hub })

theorem witness_HostAndQueueEvents_no_header :
    (mapping []).schedRead 4 false (((mapping []).die 4).tableEntry 0) 8 = (some [0, 0, 0, 0, 0, 0, 0, 0], mapping []) := rfl

/-- Memory in which the first table entry names a header. -/
def headed : State := mapping [(1, 1), (4, 1), (0x107, 4)]

theorem witness_HostAndQueueEvents_entry :
    (headed.schedRead 4 false ((headed.die 4).tableEntry 0) 8).1 = some [0, 1, 0, 0, 1, 0, 0, 0] ∧
    leNat [0, 1, 0, 0, 1, 0, 0, 0] = 0x1_0000_0100 := by decide

theorem witness_HostAndQueueEvents_entry_state : (headed.schedRead 4 false ((headed.die 4).tableEntry 0) 8).2 = headed := rfl

theorem witness_HostAndQueueEvents_header :
    (headed.schedRead 4 false 0x1_0000_0100 24).1 =
      some [0, 0, 0, 0, 0, 0, 0, 4, 0, 0, 0, 0, 0, 0, 0, 0, 0, 0, 0, 0, 0, 0, 0, 0] := by decide

theorem witness_HostAndQueueEvents_header_state : (headed.schedRead 4 false 0x1_0000_0100 24).2 = headed := rfl

/-- The slot with its header at 0x1_0000_0100 being unmapped, HEAD and TAIL 1 and 2. -/
def unmapping : State :=
  headed.modDie 4 fun x => { x with qslots := vset x.qslots 15 { x.slot 15 with
    st := .unmapping, core := 4, hdr := 0x1_0000_0100, head := 1, tail := 2 } }

theorem witness_HostAndQueueEvents_unmap :
    let s := unmapping
    let sl := (s.die 4).slot 15
    let u := s.schedStore sl.core (sl.hdr.toNat + 8) (.hub 4 0x108, .hub 4 0x108) (leBytes 4 sl.head.toNat)
    sl.st = .unmapping ∧ s.taking 4 15 = false ∧
    s.schedPlace sl.core sl.secure .write (sl.hdr.toNat + 8) 4 = (some (.hub 4 0x108, .hub 4 0x108), s) ∧
    u.schedPlace sl.core sl.secure .atomic (sl.hdr.toNat + 16) 4 = (some (.hub 4 0x110, .hub 4 0x110), u) := ⟨by decide, by decide, rfl, rfl⟩

theorem witness_HostAndQueueEvents_unmap_waited :
    let sl := (unmapping.die 4).slot 15
    let w := unmapping.schedWrite sl.core sl.secure (sl.hdr.toNat + 8) (leBytes 4 sl.head.toNat)
    w.1 = true ∧ unmapping.schedWaited (w.2.aheadWrite sl.core sl.secure sl.hdr.toNat sl.tail).2 4 = false := by decide

theorem witness_HostAndQueueEvents_unmap_ahead :
    let sl := (unmapping.die 4).slot 15
    aheadOf sl.tail (BitVec.ofNat 32 (leNat (unmapping.peek (.hub 4 0x110) 4))) = true := by decide


/-- H0 ready, with records in its store; cluster 16 and the rest idle. -/
def waiting (rs : List Ready) : State := (ready State.reset).modDie 4 fun x => { x with store := rs }

/-- A record that any core may run. -/
def anyRec : Record := ⟨0x0000_0020_0003_FFFC, 1, 0, 2⟩

/-- A copy of a DUAL record that has ended. -/
def ended (primary trapped : Bool) : DualRun := ⟨7, primary, [], true, trapped, 0⟩

/-- Clusters 16 and 20 have run the copies of a DUAL record. -/
def pair (attempt : Nat) (a b : DualRun) : State :=
  ((State.reset.modDie 4 fun x => { x with duals := [⟨7, anyRec, false, attempt, some 16, some 20, [], false⟩] }).modCluster 16 fun c =>
    { c with dual := some a }).modCluster 20 fun c => { c with dual := some b }

/-- Slot 15 of H0 offers that record, the last of its ring, at HEAD 0xFFFF_FFFF. -/
def queueing : State :=
  let s := slotted fun y => { y with st := .active, head := 0xFFFF_FFFF, tail := 0, logn := 4, core := 4, rbase := 0x1_0000_0000 }
  tabled (s.modDie 4 fun x => { x with hub := Mem.writeN [] 0x1E0 anyRec.bytes })

theorem witness_SchedulerEvents :
    let s := waiting [⟨anyRec, false, 0, 0⟩]
    let busy := s.modCluster 16 fun c => { c with record := some ⟨0, 0, 0, 0⟩ }
    let q := queueing
    let t (r : Record) (ok : Bool) : State := (ready State.reset).modCluster 16 fun c => { c with taken := some ⟨r, .store, false, ok, 0⟩ }
    let old := (waiting [⟨anyRec, false, 0, 0⟩]).modDie 4 fun x => { x with now := 2 ^ 40, agel := 1 }
    let aged := q.modDie 4 fun x => { x with now := 2 ^ 40, agel := 1 }
    (∀ c ∈ ([⟨16, 3, 0⟩, ⟨0, 1, 0⟩] : List Cand), c.source ≤ 16) ∧
    ((s.cluster 16).isIdle = true ∧ (List.range (16 + (s.die 4).store.length)).any (s.die 4).ageDue = false ∧ s.dualFor 16 = none ∧
      (∀ k ∈ clustersOn 4, 16 ≤ k.val) ∧ (busy.cluster 17).isIdle = true ∧ busy.dualFor 17 = none ∧
      (busy.die 4).choose (busy.cands 17) = some ⟨16, 0, 0⟩ ∧ (∀ k ∈ clustersOn 4, k.val < 17 → busy.selects k = false) ∧
      (s.die 4).choose (s.cands 16) = some ⟨16, 0, 0⟩ ∧ (s.die 4).store[0]? = some ⟨anyRec, false, 0, 0⟩) ∧
    ((q.cluster 16).isIdle = true ∧ (List.range (16 + (q.die 4).store.length)).any (q.die 4).ageDue = false ∧ q.dualFor 16 = none ∧
      (q.die 4).choose (q.cands 16) = some ⟨15, 0, 0⟩) ∧
    (((t anyRec true).cluster 16).taken = some ⟨anyRec, .store, false, true, 0⟩ ∧ (t anyRec true).recordOk 4 anyRec = true ∧
      anyRec.isDual = false) ∧
    (((t ⟨1, 0, 0, 0⟩ true).cluster 16).taken = some ⟨⟨1, 0, 0, 0⟩, .store, false, true, 0⟩ ∧
      (t ⟨1, 0, 0, 0⟩ true).recordOk 4 ⟨1, 0, 0, 0⟩ = false ∧ bit ((t ⟨1, 0, 0, 0⟩ true).die 4).elbase 0 = false) ∧
    ((old.die 4).ageDue 16 = true ∧ (old.die 4).store[0]? = some ⟨anyRec, false, 0, 0⟩ ∧ (aged.die 4).ageDue 15 = true) ∧
    (((pair 1 (ended true false) (ended false false)).die 4).duals.find? (fun p => p.id = 7) =
        some ⟨7, anyRec, false, 1, some 16, some 20, [], false⟩ ∧ (16 : CluIx) ≠ 20 ∧
      ((pair 1 (ended true false) (ended false false)).cluster 16).dual = some (ended true false) ∧
      (ended true false).signature = (ended false false).signature ∧ (ended true false).stores = [] ∧ anyRec.join = 0) ∧
    (((pair 2 (ended true true) (ended false false)).cluster 20).dual = some (ended false false) ∧ (ended true true).trapped = true ∧
      bit ((pair 2 (ended true true) (ended false false)).die 4).elbase 0 = false) := by decide

/-- A pair of a DUAL record whose primary is cluster 16, on ready dies. -/
def half (shadow : Option CluIx) (agreed : Bool) : State :=
  ((ready State.reset).modDie 4 fun x => { x with duals := [⟨7, anyRec, false, 1, some 16, shadow, [], agreed⟩] }).modCluster 16 fun c =>
    { c with record := some anyRec, dual := some (ended true false) }

theorem witness_SchedulerEvents_shadow :
    let s := half none false
    let p : DualPair := ⟨7, anyRec, false, 1, some 16, none, [], false⟩
    let took (s : State) : State := s.modCluster 20 fun c => { c with taken := some ⟨anyRec, .shadow 7, false, true, 0⟩ }
    let r : Record := { anyRec with w0 := 0x0000_0120_0003_FFFC }
    let d := (ready State.reset).modCluster 16 fun c => { c with taken := some ⟨r, .store, false, true, 0⟩ }
    ((s.cluster 20).isIdle = true ∧ (List.range (16 + (s.die 4).store.length)).any (s.die 4).ageDue = false ∧
      (∀ k ∈ clustersOn 4, k.val < 20 → s.selects k = false) ∧ s.dualFor 20 = some p) ∧
    (((took s).cluster 20).taken = some ⟨anyRec, .shadow 7, false, true, 0⟩ ∧
      ((took s).die 4).duals.find? (fun p => p.id = 7) = some p ∧ p.fits 20 = true ∧
      ((took (half (some 24) false)).die 4).duals.all (fun p => !p.fits 20) = true) ∧
    ((d.cluster 16).taken = some ⟨r, .store, false, true, 0⟩ ∧ d.recordOk (coreOf 16) r = true ∧ r.isDual = true) := by decide

theorem witness_SchedulerEvents_agreed :
    let s := half none true
    (s.die 4).duals.find? (fun p => p.id = 7) = some ⟨7, anyRec, false, 1, some 16, none, [], true⟩ ∧
    (s.cluster 16).dual = some (ended true false) ∧ (({ s with focus := 16 } : State).dualPerform (ended true false).stores).1 = [] ∧
    anyRec.join = 0 := by decide

/-- Copies of a record with a join block in hub SRAM, of count 2. -/
def joined (f : State → State) : State :=
  let s := (pair 1 (ended true false) (ended false false)).modDie 4 fun x => { x with
    hub := [(0x40, 2)], duals := [⟨7, { anyRec with w2 := 0x1_0000_0040 }, false, 1, some 16, some 20, [], false⟩] }
  f (tabled (ready s))

/-- The state in which the stores of the primary perform. -/
def performing (s : State) : State :=
  let q : DualPair := ⟨7, { anyRec with w2 := 0x1_0000_0040 }, false, 1, some 16, none, [], true⟩
  let w := (s.modDie 4 fun x => { x with duals := updFirst (fun y => y.id == 7) (fun _ => q) x.duals }).retireCluster 20
  { w with focus := 16 }

theorem witness_SchedulerEvents_dual :
    let s := joined id
    let z := performing (joined fun s => s.modCore 4 fun c => { c with secure := true })
    let open_ := performing (joined (sent { flit none 8 with cl := 16 }))
    ({ flit none 8 with cl := 16 } : Flit).ownOf 16 = true ∧
    ((s.cluster 16).dual = some (ended true false) ∧ s.flits = [] ∧ ((s.die 4).hub.wf = true ∧ (s.die 4).hubBad = []) ∧
      leNat (s.peek (.hub 4 0x40) 4) = 2) ∧
    (0x2F_FFFF + 1 ≤ spadBytes (coreOf 16) ∧ ([7] : List Byte) ≠ [] ∧ (z.core 4).secure = true ∧ (z.core 4).tiles = [] ∧
      (z.core 4).spadBad = [] ∧ (z.core 4).spad.wf = true ∧ z.flits = []) ∧
    ((z.dualPerform []).1 = [] ∧ (z.dualPerform [⟨0x100, [1], 0, false⟩, ⟨0x2F_FFFF, [7], 1, true⟩]).1 = [] ∧ z.postedAt 16 false = false ∧
      s.releaseWaits 16 (.hub 4 0x40) = false ∧
      (open_.dualPerform [⟨0x100, [1], 0, true⟩]).1 = [⟨0x100, [1], 0, true⟩]) := by decide

theorem witness_SchedulerEvents_join :
    let z := (performing (joined id)).dropPair 4 7
    z.joinErrs 0x1_0000_0040 = ([], .ok (.hub 4 0x40), z) := rfl

theorem witness_SchedulerEvents_slot :
    let q := queueing.modDie 4 fun x => { x with lastSrc := vset x.lastSrc 0 15 }
    q.headRecord ((q.die 4).slot 15) = (some anyRec, q) := rfl

/-- A walk of copy engine 0 of the first core of H0. -/
def walk0 : Walk := ⟨4, 0x1_0000_0000, false, 0⟩

theorem witness_TranslationEvents :
    let wait := State.reset.modDie 4 fun x => { x with walkWait := [walk0], walks := List.replicate 63 walk0 }
    let join := State.reset.modDie 4 fun x => { x with walkWait := [{ walk0 with va := 0x1_0000_FFFF }], walks := List.replicate 64 walk0 }
    let one := State.reset.modDie 4 fun x => { x with walks := [walk0] }
    let rooted := one.modCore 4 fun c => { c with ptroot := 1, xfqb := 0x5 }
    let plain := command .cpy 0 0x10 (some { plainNest 0 0x100 with run := 16 })
    let land : CopyCmd := { plain with flying := true }
    let next : CopyCmd := { plain with seq := 1, cls := 1 }
    let busy (cs : List CopyCmd) : State := (one.modEngine 4 0 fun e => { e with queue := cs }).modCore 4 fun c => { c with
      xfq := [(walk0, 2)], xfAns := some true }
    let q (ans : Option Bool) (msg : Option Nat) : State := State.reset.modCore 4 fun c => { c with
      xfq := [(walk0, 2)], xfAns := ans, xfMsg := msg }
    let m := ((hub []).modMyCore fun c => { c with xfq := [({ walk0 with eng := mxEng }, 2)], xfAns := some true, mx := { c.mx with
      run := some launched } })
    ((wait.die 4).walkWait = [walk0] ∧ (wait.die 4).walks.length < 64) ∧
    ((join.die 4).walkWait = [{ walk0 with va := 0x1_0000_FFFF }] ∧ (join.die 4).walks.length = 64 ∧
      walk0 ∈ (join.die 4).walks ∧ walk0.va / 2 ^ 16 = 0x1_0000_FFFF / 2 ^ 16) ∧
    (((busy [plain]).die 4).walks = [walk0] ∧ ((busy [plain]).core 4).xfq = [(walk0, 2)] ∧ ((busy [plain]).core 4).xfWait = [] ∧
      (((busy [plain]).core 4).engine walk0.eng).queue = [plain] ∧ plain.landing = false ∧
      (((busy [land, next]).core 4).engine walk0.eng).queue = [land, next] ∧ workOn [] [land, next] = some next ∧ next.seq ≠ land.seq ∧
      walk0.eng ≠ goneEng) ∧
    ((one.die (dieOf walk0.core)).walks = [walk0] ∧ walk0.eng < 20) ∧
    ((rooted.core 4).xfq.length < (rooted.core 4).xfSize ∧ (rooted.core 4).xfWait = []) ∧
    (((q none (some 4096)).core 4).xfq ≠ [] ∧ ((q none (some 4096)).core 4).xfMsg = some 4096 ∧ ((q none none).core 4).xfMsg = none) ∧
    (((q (some false) none).core 4).xfWait = [] ∧ ((q (some false) none).core 4).xfAns = some false ∧
      ((q (some true) none).core 4).xfAns = some true) ∧
    ((m.core 4).xfq = [({ walk0 with eng := mxEng }, 2)] ∧ (m.core 4).mx.run.isSome = true) := by decide

/-- The root table of H0 at 0, with the tables below it that map the address of that walk to hub SRAM at 0 (R298, R299). -/
def tables : Mem := [(0, 1), (1, 0x10), (0x1020, 1), (0x1021, 0x20), (0x2000, 0x3B)]

theorem witness_TranslationEvents_walks :
    let one := State.reset.modDie 4 fun x => { x with walks := [walk0] }
    let rooted := one.modCore 4 fun c => { c with ptroot := 1 }
    let leaf := rooted.modDie 4 fun x => { x with hub := tables }
    let c := command .cpy 0 0x10 (some { plainNest 0 0x100 with run := 16 })
    let busy := (rooted.modDie 4 fun x => { x with hub := [(0, 3)] }).modEngine 4 0 fun e => { e with queue := [c] }
    busy.walk 4 false walk0.va = (.malformed, busy) ∧ rooted.walk 4 false walk0.va = (.hole 3, rooted) ∧
    leaf.walk 4 false walk0.va = (.leaf true 0x3B, leaf) ∧
    ((busy.core 4).engine 0).queue = [c] ∧ (busy.die 4).walks = [walk0] := ⟨rfl, rfl, rfl, rfl, rfl⟩


/-- S0 changed, every die ready. -/
def s0 (f : Die → Die) : State := (ready State.reset).modDie 0 f

theorem witness_ThermalAndPowerEvents :
    let s := s0 id
    let hot := s0 fun x => { x with levels := [(127, 3)] }
    let none_ := s0 fun x => { x with levels := [(127, 3)], lost := [0, 1, 2, 3] }
    let mig := s0 fun x => { x with mig := some ⟨127, 3, false⟩ }
    (isHub 0 = false ∧ (s.die 0).hasColumn 131 = true ∧ 4 ≤ (s.die 0).stage ∧ (s.die 0).ready = true ∧ (s.die 0).columnLevel 131 < 3) ∧
    ((hot.die 0).hasColumn 127 = true ∧ 0 < (hot.die 0).columnLevel 127 ∧ 127 < (hot.die 0).lcol ∧ (hot.die 0).columnLevel 127 = 3 ∧
      (hot.die 0).mig = none ∧ 127 ∉ (hot.die 0).halfDuty ∧ (hot.die 0).freeSpares = [0, 1, 2, 3] ∧ hot.tensorWrites 0 = false) ∧
    ((none_.die 0).columnLevel 127 = 3 ∧ (none_.die 0).freeSpares = [] ∧ bit (none_.die 0).elbase 0 = false) ∧
    ((mig.die 0).mig = some ⟨127, 3, false⟩ ∧ bit (mig.die 0).elbase 0 = false) ∧
    ((s.modDie 4 fun x => { x with powAge := 16000 }).die 4).powAge = 16000 ∧ s.draw64 1 ≤ 64 * s.powerCap := by decide

/-- A request for a bus service of a site by the secure cluster 0 of S0. -/
def service (n site : Word) : WsReq := ⟨0, 0, 1, false, true, 0, n, site, none, none⟩

theorem witness_BusEvents :
    let on := s0 fun x => { x with tectl := 1 }
    let pend := s0 fun x => { x with vbpend := [(1, 0, 5)] }
    let ask (n site : Word) (f : Die → Die) : State := s0 fun x => f { x with ws := [service n site] }
    (isHub 0 = false ∧ (on.die 0).lcol ≤ 128 ∧ on.columnAt 0 1 = some 0 ∧ (on.die 0).ready = true ∧ bit (on.die 0).tectl 0 = true ∧
      (on.die 0).lanes.columnIdle 0 = true ∧ (on.die 0).mig = none ∧ bit (on.die 0).elbase 0 = false ∧
      64 * bits (on.die 0).tectl 8 8 ≤ (on.die 0).now - (lookupNat 0 (on.die 0).colUse).getD 0 ∧ on.columnWanted 0 0 = false ∧
      (insertNat 0 (on.die 0).tested).length < (on.die 0).lcol ∧
      ((s0 fun x => { x with tested := (List.range 128).drop 1 }).die 0).lcol ≤
        (insertNat 0 ((s0 fun x => { x with tested := (List.range 128).drop 1 }).die 0).tested).length) ∧
    (let r := s0 fun x => { x with mig := some ⟨127, 3, true⟩, cremap := 0x8000_807F_0000_8001 }
     (r.die 0).mig = some ⟨127, 3, true⟩ ∧ bit (r.die 0).elbase 0 = false ∧ (r.die 0).spareOf 127 = some 2 ∧
       (∀ i ∈ List.range 4, ∀ j ∈ List.range 4, bit (r.die 0).cremap (16 * i + 15) = true → bit (r.die 0).cremap (16 * j + 15) = true →
         bits (r.die 0).cremap (16 * i) 7 = bits (r.die 0).cremap (16 * j) 7 → i = j)) ∧
    ((pend.die 0).vbpend = [(1, 0, 5)] ∧ (pend.die 0).beat = none) ∧
    ((ask 0x20 1 id).wanted 0 0x20 1 = true ∧ (ask 0x21 1 id).wanted 0 0x21 1 = true ∧ ((ask 0x21 1 id).die 0).mig = none ∧
      (ask 0x21 1 id).columnAt 0 1 = some 0 ∧ ((ask 0x21 1 id).die 0).freeSpares = [0, 1, 2, 3] ∧
      (ask 0x21 1 id).tensorWrites 0 = false ∧ ((ask 0x21 1 fun x => { x with lost := [0, 1, 2, 3] }).die 0).freeSpares = []) ∧
    ((ask 0x21 187 id).wanted 0 0x21 187 = true ∧ (ask 0x21 187 id).columnAt 0 187 = none ∧
      siteAt (rotOf 0) (187 % 16) (187 / 16) = some (.spare 2) ∧ 2 ∉ ((ask 0x21 187 id).die 0).lost ∧
      bit ((ask 0x21 187 id).die 0).elbase 0 = false) := by decide

theorem witness_BusEvents_beat :
    let on := s0 fun x => { x with tectl := 1 }
    let off := s0 fun x => { x with tectl := 0 }
    let drv := s0 fun x => { x with beat := some (1, 0x41F) }
    let waits := (s0 fun x => { x with beat := some (1, 0x41F) }).modCluster 0 fun c => { c with record := some ⟨0, 0, 0, 0⟩, beatWait := true }
    (outside (0x41F : Word) 0xFFF = false ∧ (off.die 0).beat = none ∧ bits (0x41F : Word) 0 11 ≤ 1055 ∧ bit (off.die 0).tectl 0 = false ∧
      siteOk 0 (off.die 0).vbsel = true ∧ 1055 < bits (0x420 : Word) 0 11 ∧ outside (0x420 : Word) 0xFFF = false ∧ (on.die 0).beat = none) ∧
    (asked (.vbtdrvWrite 0 0x41F) off fun t => (t.die 0).beat) = some ((off.die 0).vbsel, 0x41F) ∧
    ((drv.die 0).beat = some (1, 0x41F) ∧ (drv.die 0).vbopen = [] ∧ (drv.die 0).vbstuck = [] ∧ bits (0x41F : Word) 0 11 ≤ 1055 ∧
      drv.columnAt 0 1 = some 0 ∧ (waits.die 0).beat = some (1, 0x41F) ∧ 0 ∈ clustersOn 0 ∧ (waits.cluster 0).beatWait = true) := by decide

/-- Port 2 of H0 changed, every die ready. -/
def port2 (f : EthPort → EthPort) : State := (ready State.reset).modDie 4 fun x => { x with eth := vset x.eth 2 (f (vget x.eth 2 EthPort.reset)) }

theorem witness_EthernetEvents :
    let s := port2 id
    let tx := port2 fun p => { p with txLen := some 9216 }
    let cfg : Word := 0x1000 ||| 0x4C0 ||| 0x19
    let rx := port2 fun p => { p with cfg := cfg, head := 0xFFFF_FFFF, tail := 0xFFFF_FFFF }
    let full := port2 fun p => { p with cfg := cfg, head := 4, tail := 0xFFFF_FFF4 }
    let got := port2 fun p => { p with cfg := cfg, rxLen := some 60 }
    let off := port2 fun p => { p with cfg := cfg &&& ~~~1, rxLen := some 60 }
    let fr (n : Nat) : List Byte := List.replicate n 0xFF
    (isHub 4 = true ∧ (s.port 4 2).txLen = none ∧ bits (9216 : Word) 14 50 = 0 ∧ 60 ≤ bits (60 : Word) 0 14 ∧
      bits (9216 : Word) 0 14 ≤ 9216) ∧
    ((tx.port 4 2).txLen = some 9216 ∧ tx.bufferPending 4 2 = false) ∧
    ((s.die 4).ready = true ∧ (s.port 4 2).rxLen = none ∧ ¬(60 ≤ (fr 59).length) ∧ 60 ≤ (fr 60).length ∧ (fr 60).length ≤ 9216 ∧
      (s.port 4 2).keeps (List.replicate 60 2) = false ∧ (s.port 4 2).keeps (fr 60) = true ∧ (s.port 4 2).on = false) ∧
    ((full.port 4 2).on = true ∧ ((full.port 4 2).head - (full.port 4 2).tail).toNat = 2 ^ erxLogn (full.port 4 2).cfg) ∧
    ((rx.port 4 2).on = true ∧ ((rx.port 4 2).head - (rx.port 4 2).tail).toNat ≠ 2 ^ erxLogn (rx.port 4 2).cfg ∧
      (fr 60).length ≤ erxSlot (rx.port 4 2).cfg ∧ erxSecure (rx.port 4 2).cfg = true ∧ (rx.die 4).hub.wf = true ∧ (rx.die 4).hubBad = []) ∧
    ((got.port 4 2).rxLen = some 60 ∧ erxSecure (got.port 4 2).cfg = true) ∧
    (outside cfg erxMask = false ∧ bit cfg 3 = true ∧ bit cfg 0 = true ∧ erxEnd cfg ≤ Config.hubSramBytes ∧
      outside (8 : Word) erxMask = false ∧ bit (8 : Word) 3 = true ∧ bit (8 : Word) 0 = false) ∧
    ((got.port 4 2).on = true ∧ (off.port 4 2).on = false ∧ (off.port 4 2).rxLen = some 60 ∧ erxSecure (off.port 4 2).cfg = true ∧
      (off.die 4).hub.wf = true ∧ (off.die 4).hubBad = [] ∧ (s.port 4 2).rxLen = none ∧ (s.port 4 2).on = false) ∧
    bits (0xFFFF_FFFF : Word) 32 32 = 0 := by decide

/-- A frame longer than the smallest slot. -/
theorem witness_EthernetEvents_big :
    let p := (port2 fun p => { p with cfg := 0x1409 }).port 4 2
    p.on = true ∧ (p.head - p.tail).toNat ≠ 2 ^ erxLogn p.cfg ∧ erxSlot p.cfg < 9216 := by decide

/-- Cluster 16 at a word of instruction memory, alone in the queue of issue. -/
def atWord (w : W32) (f : Cluster → Cluster) : State :=
  let s := (hub []).modMyCore fun c => { c with imem := Mem.writeN [] 0 (wordBytes w) }
  { s.modMe f with runq := [16] }

theorem witness_StepRunsDecodedWord :
    let s (w : W32) (f : Cluster → Cluster) : State := atWord w f
    let ok (s : State) (w : W32) : Prop := w = (s.core (coreOf 16)).wordAt (s.cluster 16).pc ∧ (s.cluster 16).atWord = true ∧
      (s.cluster 16).nextAsync = none ∧ (s.cluster 16).dual = none ∧ (s.cluster 16).stale = [] ∧ (s.core (coreOf 16)).imemBad = [] ∧
      s.agenda = [] ∧ s.runnable = [16] ∧ s.engineTurn = false
    let solo (c : Cluster) : Cluster := { c with solo := true }
    (ok (s 0x02308800 id) 0x02308800 ∧ decode 0x02308800 = some ⟨false, .add 3 1 2⟩) ∧
    (ok (s 0x82308800 solo) 0x82308800 ∧ decode 0x82308800 = some ⟨true, .add 3 1 2⟩ ∧ isHub (dieOfClu 16) = true ∧
      ((s 0x82308800 solo).cluster 16).solo = true ∧ ((s 0x82308800 solo).cluster 16).mode = .user) ∧
    (ok (s 0x82308800 id) 0x82308800 ∧ ((s 0x82308800 id).cluster 16).solo = false ∧
      ((s 0x82308800 id).cluster 16).continues (.add 3 1 2) = false) ∧
    (ok (s 0 id) 0 ∧ decode 0 = none) ∧ isHub (dieOfClu 0) = false ∧
    (isEvent (.refresh 0 0 0) = true ∧ { State.reset with agenda := [.event (.refresh 0 0 0)] }.agenda = .event (.refresh 0 0 0) :: []) ∧
    { (s 0 id) with agenda := [Turn.issue 16] }.agenda = .issue 16 :: [] := by decide

/-- The four clusters of the first core of H0 in sync wait, at the words given. -/
def bundled (ws : List W32) : State :=
  let s := State.reset.modCore 4 fun c => { c with imem := Mem.writeN [] 0 (ws.flatMap wordBytes) }
  ([0, 1, 2, 3] : List Nat).foldl (fun acc n => acc.modCluster (Fin.ofNat 208 (16 + n)) fun c => { c with
    record := some ⟨0, 0, 0, 0⟩, syncWait := true, pc := BitVec.ofNat 18 (4 * n) }) s

theorem witness_BundlesAndUnallocatedWords :
    let addi : W32 := encode true (.addi 3 1 5)
    let brk : W32 := encode true (.brk 7)
    let s := bundled [addi, addi, addi, addi]
    let t := bundled [addi, brk, addi, addi]
    let u := atWord 0 id
    let word_ (s : State) (c : CluIx) : W32 := (s.core 4).wordAt (s.cluster c).pc
    (s.bundleFormed 4 = true ∧ (s.core 4).imemBad = [] ∧
      (∀ c ∈ clustersOf 4, (s.cluster c).stale = [] ∧ (s.cluster c).solo = false ∧ (s.cluster c).dual = none) ∧
      ∀ c ∈ clustersOf 4, decode (word_ s c) = some ⟨true, .addi 3 1 5⟩) ∧
    (t.bundleFormed 4 = true ∧ (17 : CluIx) ∈ clustersOf 4 ∧ (t.cluster 17).mode = .user ∧ decode (word_ t 17) = some ⟨true, .brk 7⟩ ∧
      ∀ c ∈ clustersOf 4, c ≠ 17 → decode (word_ t c) = some ⟨true, .addi 3 1 5⟩) ∧
    ((u.cluster 16).atWord = true ∧ (u.cluster 16).mode = .user ∧ (u.cluster 16).stale = [] ∧ (u.core 4).imemBad = [] ∧
      decode ((u.core 4).wordAt (u.cluster 16).pc) = none) := by decide

theorem witness_EncodeDecodeRoundTrip :
    (Instr.bwait 95 31 31).isWord = true ∧ (Instr.bwait 95 31 31).wf = true ∧ (decode 0xA0511802).isSome = true := by decide

theorem witness_MemoryFormKept :
    State.reset.memOk = true ∧ (match step State.reset with | .next _ => true | _ => false) = true := by decide


theorem witness_HorizonWords_traps :
    let s := stack [(1, 1), (4, 0xC0_0001), (5, 0xC0_0000), (6, 0x100_0000), (7, 0xBF_FFFC)]
    let new (a b d : Reg) : HzSlot := ⟨s.g a, s.g b, s.g d, Series.reset⟩
    let free (a : Reg) : Bool := bits (s.g a) 0 8 == 0 && bits (s.g a) 10 2 == 0 && bits (s.g a) 32 32 == 0
    let barred := s.modDie 0 fun z => { z with wmapb := 1, wcache := [(s.physAddr (.spad 0 0xBF_FFFC) / 2 ^ 16, true)] }
    let cap := spadBytes s.myCoreIx
    s.me.mode = .user ∧ free 1 = false ∧ free 0 = true ∧ (new 0 0 0).cfg.ok = false ∧ bits (s.g 4) 0 2 ≠ 0 ∧
    (bits (s.g 5) 0 2 = 0 ∧ cap ≤ bits (s.g 5) 0 24) ∧
    (bits (s.g 6) 0 2 = 0 ∧ bits (s.g 6) 0 24 < cap ∧ bits (s.g 6) 24 40 ≠ 0 ∧ (s.spadBarred 0 [(0, 4)]).1 = none) ∧
    (bits (s.g 7) 0 2 = 0 ∧ bits (s.g 7) 0 24 < cap ∧ (barred.spadBarred 0 [(0xBF_FFFC, 0xC0_0000)]).1 = some 0xBF_FFFC) := by decide

/-- A gathering nest on a hub core, and an MXIDX that waits. -/
def gathers (swapped : Bool) : State :=
  mxed (fun z => { z with shd := plane 0x2_1011, idxq := some ⟨0, 16, 0, 0x100, [], swapped⟩ }) (hub [])

theorem witness_MatrixWords_gather :
    let s := gathers true
    let alone := mxed (fun z => { z with idxq := none }) s
    let busy := mxed (fun z => { z with run := some launched }) s
    (bit (gathers false).myCore.mx.shd[0] 17 = true ∧ (gathers false).myCore.mx.armed = none ∧
      (gathers false).myCore.mx.idxq = some ⟨0, 16, 0, 0x100, [], false⟩) ∧
    (s.myCore.mx.armed = none ∧ s.myCore.mx.idxq = some ⟨0, 16, 0, 0x100, [], true⟩ ∧ s.me.gated .m 0 = false ∧
      s.myCore.mx.run = none ∧ busy.myCore.mx.run ≠ none ∧ alone.myCore.mx.idxq = none ∧
      leastErr (mxgoErrs (spadBytes 4) s.myCore.mx.shd (mxNest s.myCore.mx.shd s.myCore.mx.ishd)) = none ∧
      bit s.myCore.mx.shd[0] 20 = false ∧ (s.mxObject s.myCore.mx.shd (mxNest s.myCore.mx.shd s.myCore.mx.ishd)).2.1 = []) := by decide

theorem witness_MatrixWords_traps :
    let s := (hub [(1, 32), (2, 0x2F_FF01), (4, 0x2F_FFC0), (5, 0), (6, 0x101), (7, 0x8001), (8, 0x80)])
    let cap := spadBytes s.myCoreIx
    let barred := s.modDie 4 fun z => { z with wmapb := 1, wcache := [(s.physAddr (.spad 4 0) / 2 ^ 16, true)] }
    let go (v : Vector Word 32) : State := mxed (fun z => { z with shd := v }) s
    let n (v : Vector Word 32) : MxNest := mxNest v s.myCore.mx.ishd
    let least (v : Vector Word 32) : Option (Cause × Nat) := leastErr (mxgoErrs cap v (n v) ++ ((go v).mxObject v (n v)).2.1)
    (s.me.mode = .user ∧ bits (s.g 1) 5 59 ≠ 0) ∧ (s.g 2).toNat % 2 ≠ 0 ∧
    ((s.g 4).toNat % 64 = 0 ∧ cap < (s.g 4).toNat + 256) ∧
    ((barred.spadBarred 4 [(0, 256)]).1 = some 0 ∧ (0 : Nat) + 256 ≤ cap) ∧
    ((s.mxSpadErrs (s.g 5) 64 256).1 = [] ∧ (s.mxSpadErrs (s.g 5) 2 0).1 = [] ∧ bits (s.g 5) 0 16 = 0 ∧ 256 < bits (s.g 6) 0 16 ∧
      bits (s.g 5) 8 8 = 0 ∧ 128 < bits (s.g 7) 0 7 + bits (s.g 7) 8 8 ∧ bit (s.g 8) 7 = true) ∧
    ((go (plane 0x1011)).myCore.mx.armed = none ∧ (go (plane 0x1011)).myCore.mx.tableDue = false) ∧
    least (vset (plane 0x1011) 8 1) = some (.aln, 8) ∧ least (vset (plane 0x1011) 28 0xFF_FFC0) = some (.xlt, 0xFF_FFC0) ∧
    least (vset (plane 0x1011) 31 1) = some (.lch, 0x301) ∧ least (plane 0x1012) = some (.lch, 0x302) ∧
    least (vset (plane 0x1011) 1 0x80) = some (.lch, 0x303) ∧ least (vset (plane 0x1011) 2 0) = some (.lch, 0x304) ∧
    least (plane 0x0011) = some (.lch, 0x305) ∧ least (vset (plane 0x1011) 28 0x2_0000_0000) = some (.lch, 0x306) ∧
    least (plane 0x41011) = some (.lch, 0x307) := by decide

/-- A row of d BF16 elements as an interleaved tensor, the matrix operand of a hub core, in the cache of its die's handle entries. -/
def weights (ty : Nat) (d : Nat) : State :=
  let w0 : Word := packWord [(63, 1), (57, ty), (0, 1)]
  let s := mxed (fun z => { z with shd := plane 0x10_1011 }) (hub [])
  (s.modMyCore fun c => { c with htcfg := 1 }).modDie 4 fun z => { z with
    lanesN := 4, hcache := [⟨0, [w0, 0x1_0000_0001, packWord [(32, d), (0, 1)], 0, 0, 0, 0, 0], [0]⟩] }

theorem witness_MatrixWords_handles :
    let s := mxed (fun z => { z with shd := plane 0x10_1011 }) (hub [])
    let found (t : State) : Option Obj := (t.localHandle 4 0 t.myCore.secure).1
    let errs (t : State) : List (Cause × Nat) := (t.mxObject t.myCore.mx.shd (mxNest t.myCore.mx.shd t.myCore.mx.ishd)).2.1
    planeHandle s.myCore.mx.shd = 0 ∧ bit (planeReg s.myCore.mx.shd 0) 20 = true ∧ found s = none ∧ errs s = [(.hdl, 0)] ∧
    ((found (weights 1 16)).map fun z => (z.cls, z.elem, z.rows * z.d3)) = some (0, some .bf16, 16) ∧ errs (weights 1 16) = [] ∧
    errs (weights 2 16) = [(.lch, 0x302)] ∧ errs (mxed (fun z => { z with shd := vset z.shd 27 16 }) (weights 1 16)) = [(.lch, 0x30A)] := by
  decide

theorem witness_PrivilegedWords_csave :
    let s := paged (hub [(1, 0x1_0000_0000), (2, 0x1_8000_0000), (3, 1)])
    let place (a : Reg) : Xlate := (s.xlate s.myCoreIx false s.myCore.secure .write (s.g a).toNat).1
    s.me.mode = .user ∧ (s.g 1).toNat % 4096 = 0 ∧ place 1 = .ok (.hub 4 0) ∧ (s.g 2).toNat % 4096 = 0 ∧ 0x100_0000 ≤ (s.g 2).toNat ∧
    place 2 = .hole 3 ∧ ((hub []).xlate 4 false false .write 0x1_8000_0000).1 = .xlt ∧ (s.g 3).toNat % 4096 ≠ 0 := by decide

theorem witness_WaitingSystemWords_refused :
    let s := hub [(1, 0x1_0000_0000)]
    let h := hregs [(1, 0x1_0000_0000), (2, 6), (3, 7), (4, 8), (5, 0x200), (6, 0x80_0000), (7, 0xFFFF_0000_0000_0000), (8, 2), (9, 4)] s
    (s.me.mode = .user ∧ 2 ^ 32 ≤ (s.g 1).toNat) ∧ h.me.mode = .handler ∧ 2 ^ 32 ≤ (h.g 1).toNat ∧
    (bits (h.g 2) 0 3 = 6 ∧ h.myCore.secure = false ∧ (secure h).myCore.secure = true) ∧
    (bits (h.g 3) 0 3 = 7 ∧ bits (h.g 4) 3 5 ≠ 0 ∧ bits (h.g 5) 9 55 ≠ 0) ∧
    (bits (h.g 0) 0 3 = 0 ∧ bits (h.g 0) 3 5 = 0 ∧ bits (h.g 0) 9 55 = 0 ∧ bits (h.g 7) 48 16 ≠ 0) ∧
    (bits (h.g 8) 0 3 = 2 ∧ bits (h.g 1) 32 32 ≠ 0 ∧ bit (h.g 6) 23 = true) ∧ (bits (h.g 9) 0 3 = 4 ∧ bits (h.g 6) 23 41 ≠ 0) := by
  decide

theorem witness_ContextOperations_words :
    let pre := (hub []).modMe fun c => { c with pend := [⟨.pre, 0x1000, noPath⟩] }
    let low := hregs [(1, 0xFF_F000)] (hub [])
    let other := saver.modMe fun c => { c with saver := false }
    let full (op : CtxOp) : State := (handler (hub [])).modMyCore fun c => { c with ctxOp := op }
    let many (op : CtxOp) : State := (full op).modCluster 17 fun c => { c with record := some ⟨0, 0, 0, 0⟩ }
    ((pre.cluster 16).nextAsync = some ⟨.pre, 0x1000, noPath⟩ ∧ (pre.cluster 16).mode = .user) ∧
    (low.me.mode = .handler ∧ (low.g 1).toNat % 4096 = 0 ∧ (low.g 1).toNat < 0x100_0000) ∧
    (other.me.saver = false ∧ (other.xlate 4 false false .write (other.g 1).toNat).1 = .ok (.hub 4 0)) ∧
    ((many .none).quiescent 4 (some 16) = false ∧ (many .checkpoint).quiescent 4 (some 16) = false ∧ (many .none).me.mode = .handler ∧
      (many .checkpoint).myCore.ctxOp ≠ .none) := by decide

theorem witness_CheckpointEvents_ckpt :
    let s (m : Mode) : State := (((ready (hub [])).modMe fun c => { c with
      ckWait := some 3, mode := m, waiting := true }).beginCheckpoint 4).modMe fun c => { c with held := true }
    let ok (m : Mode) : Prop := (s m).checkpointStopped 4 = true ∧ ((s m).die (ckHome 4)).ready = true ∧ ((s m).die 4).hubBad = [] ∧
      bit ((s m).die 4).elbase 0 = false ∧ (16 : CluIx) ∈ clustersOn 4 ∧ ((s m).cluster 16).ckWait = some 3 ∧
      ((s m).cluster 16).record.isSome = true ∧ ((s m).cluster 16).mode = m
    ok .user ∧ ok .handler := by decide

theorem witness_ResetsAndBoot_map :
    let s (f : Die → Die) : State := State.reset.modDie 4 fun y => f { y with stage := 4 }
    ((s id).die 4).bootErr = 0 ∧ ((s id).die 4).linksOk = true ∧ bit ((s id).die 4).wmapb 0 = false ∧ (s id).tableCore 4 ≠ none ∧
    bit ((s fun y => { y with wmapb := 1 }).die 4).wmapb 0 = true ∧ ((s fun y => { y with wmapb := 1 }).die 4).linksOk = true := by
  decide

theorem witness_TranslationEvents_held :
    let plain := command .cpy 0 0x10 (some { plainNest 0 0x100 with run := 16 })
    let next : CopyCmd := { plain with seq := 1, cls := 1 }
    let s := (State.reset.modEngine 4 0 fun e => { e with queue := [plain, next], hold := true, err := some .prm }).modCore 4 fun c => { c with
      xfq := [(walk0, 2)], xfAns := some true }
    ((s.core 4).engine 0).queue = [plain, next] ∧ ((s.core 4).engine 0).hold = true ∧ workOn [] [next] = some next ∧ next.seq ≠ plain.seq ∧
    (s.core 4).xfWait = [] := by decide

theorem witness_LaneWords_full :
    let s := laned (fun z => { z with buf := List.replicate 32 ((stack []).newMacro .lsafe 0 0 0 0) }) (stack [])
    let waited := laned (fun z => { z with
      buf := List.replicate 31 ((stack []).newMacro .lsafe 0 0 0 0), waiters := [(1, 9)] }) ((stack []).modCluster 1 fun c => { c with since := 9 })
    isHub s.myDieIx = false ∧ s.laneFull = true ∧ waited.laneFull = true ∧ (∀ v ∈ waited.myLanes.waiters, v.1 ≠ waited.focus) ∧
    waited.me.since = 0 ∧ (stack []).laneFull = false := by decide

theorem witness_ContinuationWords_open :
    let s := (ready (joining 1)).modDie 0 fun x => { x with qslots := vset x.qslots 15 { QSlot.reset with
      st := .active, devq := true, core := 0, rbase := 0x1000, logn := 4 } }
    let p : Loc × Loc := (.spad 0 0x1000, .spad 0 0x1000)
    (s.schedPlace 0 s.myCore.secure .write 0x1000 32 true).1 = some p ∧ s.ownPending s.focus (pathOf .a 0x1000) 0 p.1 32 = false ∧
    s.reductionOpen s.focus p.1 32 = false ∧
    (∃ q ∈ ((s.modMe fun c => { c with pend := [⟨.sqe, 1, noPath⟩] }).me.pend), q.cause = .sqe) := by decide

end Sys2Proof.Tests
end

section

/-!
Resets and boot (R12, R312, R342, R347 to R350): what a fold over the agents of a die leaves, what each reset and each stage of
boot does to the state, and from these the statement `ResetsAndBoot`.
-/

namespace Sys2Proof.Machine

/-! ### Folds over agents -/

/-- A fold keeps what each of its steps keeps. -/
theorem foldl_keeps {σ α β : Type} (g : σ → β) (f : σ → α → σ) (h : ∀ s a, g (f s a) = g s) (xs : List α) (s : σ) :
    g (xs.foldl f s) = g s := by
  induction xs generalizing s with
  | nil => rfl
  | cons x xs ih => exact (ih _).trans (h s x)

/-- What the step of an element establishes, and every other step keeps, holds after the fold of each of its elements. -/
theorem foldl_establishes {σ α : Type} (P : α → σ → Prop) (f : σ → α → σ) (hset : ∀ s a, P a (f s a))
    (hkeep : ∀ s a b, P a s → P a (f s b)) (xs : List α) (s : σ) : ∀ a ∈ xs, P a (xs.foldl f s) := by
  have kept : ∀ (a : α) (ys : List α) (t : σ), P a t → P a (ys.foldl f t) := by
    intro a ys
    induction ys with
    | nil => exact fun t h => h
    | cons y ys ih => exact fun t h => ih _ (hkeep t a y h)
  induction xs generalizing s with
  | nil => simp
  | cons x xs ih =>
    intro a ha
    rcases List.mem_cons.1 ha with rfl | ha
    · exact kept a xs _ (hset s a)
    · exact ih _ a ha

/-- A fold whose every step changes one part of a state changes that part alone. -/
theorem foldl_frame {σ α β : Type} (put : σ → β → σ) (hget : ∀ s, ∃ b, s = put s b)
    (hput : ∀ s b b', put (put s b) b' = put s b') {f : σ → α → σ} (hf : ∀ s a, ∃ b, f s a = put s b) (xs : List α) (s : σ) :
    ∃ b, xs.foldl f s = put s b := by
  induction xs generalizing s with
  | nil => exact hget s
  | cons x xs ih =>
    obtain ⟨b, hb⟩ := hf s x
    obtain ⟨b', hb'⟩ := ih (put s b)
    exact ⟨b', by rw [List.foldl_cons, hb, hb', hput]⟩

/-- An agent after a fold of changes to single agents, where making a change twice is making it once. -/
theorem foldl_read {σ ι α : Type} [DecidableEq ι] (get : σ → ι → α) (step : σ → ι → σ) (f : ι → α → α)
    (hsame : ∀ s i, get (step s i) i = f i (get s i)) (hother : ∀ s i j, j ≠ i → get (step s i) j = get s j)
    (hf : ∀ i x, f i (f i x) = f i x) (is : List ι) (s : σ) (i : ι) :
    get (is.foldl step s) i = if i ∈ is then f i (get s i) else get s i := by
  induction is generalizing s with
  | nil => simp
  | cons j is ih =>
    rw [List.foldl_cons, ih]
    by_cases e : i = j
    · subst e
      simp [hsame, hf]
    · simp [hother _ _ _ e, e]

/-! ### The cores and clusters of a die (R9, R21) -/

theorem mem_coresOf {d : DieIx} {k : CoreIx} : k ∈ coresOf d ↔ dieOf k = d := by
  simp only [coresOf, List.mem_filterMap, List.mem_range]
  constructor
  · rintro ⟨n, hn, h⟩
    simp only [hn, dite_true, Option.ite_none_right_eq_some, Option.some.injEq] at h
    obtain ⟨hd, rfl⟩ := h
    exact hd
  · intro h
    exact ⟨k.val, k.isLt, by simp [h]⟩

theorem mem_clustersOf {k : CoreIx} {c : CluIx} : c ∈ clustersOf k ↔ coreOf c = k := by
  simp only [clustersOf, coreOf, List.mem_cons, List.not_mem_nil, or_false, Fin.ext_iff]
  omega

theorem mem_clustersOn {d : DieIx} {c : CluIx} : c ∈ clustersOn d ↔ dieOfClu c = d := by
  simp [clustersOn, mem_clustersOf, mem_coresOf, dieOfClu]

theorem mem_allDies (d : DieIx) : d ∈ allDies := by
  revert d; decide

/-- The first working core of a die is one of its cores. -/
theorem State.dieOf_tableCore {s : State} {d : DieIx} {k : CoreIx} (h : s.tableCore d = some k) : dieOf k = d := by
  have hk : k ∈ (coresOf d).filter fun k => (s.core k).working := List.mem_of_getElem? h
  exact mem_coresOf.1 (List.mem_filter.1 hk).1

/-! ### Single operations -/

@[simp] theorem Mem.readN_nil_one (a : Nat) : Mem.readN [] a 1 = [0] := by
  simp [Mem.readN_eq, iota, Mem.read, Mem.blank]

@[simp] theorem Link.nearEnd_modNear (x : Link) (l : LinkIx) (d : DieIx) (f : LinkEnd → LinkEnd) :
    (x.modNear l d f).nearEnd l d = f (x.nearEnd l d) := by
  unfold Link.modNear Link.nearEnd
  split <;> rfl

/-- Changing an end twice is one change by both. -/
theorem Link.modNear_modNear (x : Link) (l : LinkIx) (d : DieIx) (f g : LinkEnd → LinkEnd) :
    (x.modNear l d f).modNear l d g = x.modNear l d fun e => g (f e) := by
  unfold Link.modNear
  split <;> rfl

/-- Without a ring nothing is written to the error log (R325). -/
theorem State.log_off {s : State} {d : DieIx} (h : bit (s.die d).elbase 0 = false) (kind detail : Nat) (at_ : Word)
    (lid synd : Nat) : s.log d kind detail at_ lid synd = s := by
  simp [State.log, h]

/-- A change of a die that leaves its memory alone leaves all memory alone. -/
theorem State.peek_modDie (s : State) (d : DieIx) (f : Die → Die) (hh : (f (s.die d)).hub = (s.die d).hub)
    (hd : (f (s.die d)).dram = (s.die d).dram) (l : Loc) (n : Nat) : (s.modDie d f).peek l n = s.peek l n := by
  have same : ∀ e, ((s.modDie d f).die e).hub = (s.die e).hub ∧ ((s.modDie d f).die e).dram = (s.die e).dram := by
    intro e
    by_cases he : e = d
    · subst he; simp [hh, hd]
    · simp [State.die_modDie_ne _ _ he]
  cases l <;> simp [State.peek, same]

/-! ### What a reset of a die leaves (R22, R347) -/

/-- A core of a die after the reset of its die. -/
def State.coreAfterReset (s : State) (warm : Bool) (k : CoreIx) (x : Core) : Core :=
  if warm then x.warm (s.blkwBit k) else x.cold (s.blkwBit k)

/-- A cluster after the reset of its die. -/
def Cluster.afterReset (warm : Bool) (x : Cluster) : Cluster := { Cluster.reset with thvec := if warm then x.thvec else 0 }

theorem State.coreAfterReset_twice (s : State) (warm : Bool) (k : CoreIx) (x : Core) :
    s.coreAfterReset warm k (s.coreAfterReset warm k x) = s.coreAfterReset warm k x := by
  cases warm <;> rfl

theorem Cluster.afterReset_twice (warm : Bool) (x : Cluster) : (x.afterReset warm).afterReset warm = x.afterReset warm := by
  cases warm <;> rfl

theorem State.cluster_resetCluster (s : State) (warm : Bool) (c : CluIx) :
    (s.resetCluster warm c).cluster c = (s.cluster c).afterReset warm :=
  s.cluster_modCluster c (Cluster.afterReset warm)

theorem State.cluster_resetCluster_ne (s : State) (warm : Bool) {c e : CluIx} (h : e ≠ c) :
    (s.resetCluster warm c).cluster e = s.cluster e :=
  s.cluster_modCluster_ne (Cluster.afterReset warm) h

/-- The cores of a die reset: the first step of `resetAgents`. -/
def State.resetCores (s : State) (d : DieIx) (warm : Bool) : State :=
  (coresOf d).foldl (fun acc k => acc.modCore k (s.coreAfterReset warm k)) s

/-- The clusters of a die reset: the second step of `resetAgents`. -/
def State.resetClusters (s : State) (d : DieIx) (warm : Bool) : State :=
  (clustersOn d).foldl (fun acc c => acc.resetCluster warm c) s

theorem State.resetCores_frame (s : State) (d : DieIx) (warm : Bool) : ∃ v, s.resetCores d warm = { s with cores := v } :=
  foldl_frame (fun (t : State) v => { t with cores := v }) (fun _ => ⟨_, rfl⟩) (fun _ _ _ => rfl) (fun _ _ => ⟨_, rfl⟩) _ _

theorem State.resetClusters_frame (s : State) (d : DieIx) (warm : Bool) :
    ∃ p : Vector Cluster 208 × List CluIx, s.resetClusters d warm = { s with clusters := p.1, runq := p.2 } :=
  foldl_frame (fun (t : State) (p : Vector Cluster 208 × List CluIx) => { t with clusters := p.1, runq := p.2 })
    (fun t => ⟨(t.clusters, t.runq), rfl⟩) (fun _ _ _ => rfl)
    (fun t c => ⟨((t.resetCluster warm c).clusters, (t.resetCluster warm c).runq), rfl⟩) (clustersOn d) s

theorem State.core_resetCores (s : State) (d : DieIx) (warm : Bool) (k : CoreIx) :
    (s.resetCores d warm).core k = if dieOf k = d then s.coreAfterReset warm k (s.core k) else s.core k := by
  rw [State.resetCores, foldl_read State.core _ (s.coreAfterReset warm) (fun t k => t.core_modCore k _)
    (fun t _ _ e => t.core_modCore_ne _ e) (s.coreAfterReset_twice warm)]
  simp only [mem_coresOf]

theorem State.cluster_resetClusters (s : State) (d : DieIx) (warm : Bool) (c : CluIx) :
    (s.resetClusters d warm).cluster c = if dieOfClu c = d then (s.cluster c).afterReset warm else s.cluster c := by
  rw [State.resetClusters, foldl_read State.cluster _ (fun _ => Cluster.afterReset warm)
    (fun t c => t.cluster_resetCluster warm c) (fun t _ _ e => t.cluster_resetCluster_ne warm e)
    (fun _ => Cluster.afterReset_twice warm)]
  simp only [mem_clustersOn]

/-- No cluster of a die that has been reset issues. -/
theorem State.runq_resetClusters (s : State) (d : DieIx) (warm : Bool) {c : CluIx} (h : dieOfClu c = d) :
    c ∉ (s.resetClusters d warm).runq :=
  foldl_establishes (fun c (t : State) => c ∉ t.runq) (fun acc c => acc.resetCluster warm c)
    (fun t c => by simp [State.resetCluster, State.dequeue])
    (fun t c e hc => by simp [State.resetCluster, State.dequeue, hc]) (clustersOn d) s c (mem_clustersOn.2 h)

/-- A reset of the agents of a die changes its cores, its clusters, the run queue and flits. -/
theorem State.resetAgents_frame (s : State) (d : DieIx) (warm : Bool) :
    ∃ v w q fs, s.resetAgents d warm = { s with cores := v, clusters := w, runq := q, flits := fs } := by
  obtain ⟨v, hv⟩ := s.resetCores_frame d warm
  obtain ⟨p, hp⟩ := (s.resetCores d warm).resetClusters_frame d warm
  obtain ⟨fs, h⟩ : ∃ fs, s.resetAgents d warm = { (s.resetCores d warm).resetClusters d warm with flits := fs } := ⟨_, rfl⟩
  exact ⟨v, p.1, p.2, fs, by rw [h, hp, hv]⟩

@[simp] theorem State.die_resetAgents (s : State) (d : DieIx) (warm : Bool) (e : DieIx) :
    (s.resetAgents d warm).die e = s.die e := by
  obtain ⟨v, w, q, fs, h⟩ := s.resetAgents_frame d warm
  rw [h]; rfl

@[simp] theorem State.hostMem_resetAgents (s : State) (d : DieIx) (warm : Bool) : (s.resetAgents d warm).hostMem = s.hostMem := by
  obtain ⟨v, w, q, fs, h⟩ := s.resetAgents_frame d warm
  rw [h]

@[simp] theorem State.out_resetAgents (s : State) (d : DieIx) (warm : Bool) : (s.resetAgents d warm).out = s.out := by
  obtain ⟨v, w, q, fs, h⟩ := s.resetAgents_frame d warm
  rw [h]

theorem State.core_resetAgents (s : State) (d : DieIx) (warm : Bool) (k : CoreIx) :
    (s.resetAgents d warm).core k = if dieOf k = d then s.coreAfterReset warm k (s.core k) else s.core k := by
  obtain ⟨p, hp⟩ := (s.resetCores d warm).resetClusters_frame d warm
  calc (s.resetAgents d warm).core k
    _ = ((s.resetCores d warm).resetClusters d warm).core k := rfl
    _ = (s.resetCores d warm).core k := by rw [hp]; rfl
    _ = _ := s.core_resetCores d warm k

theorem State.cluster_resetAgents (s : State) (d : DieIx) (warm : Bool) (c : CluIx) :
    (s.resetAgents d warm).cluster c = if dieOfClu c = d then (s.cluster c).afterReset warm else s.cluster c := by
  obtain ⟨v, hv⟩ := s.resetCores_frame d warm
  have hc : (s.resetCores d warm).cluster c = s.cluster c := by rw [hv]; rfl
  calc (s.resetAgents d warm).cluster c
    _ = ((s.resetCores d warm).resetClusters d warm).cluster c := rfl
    _ = _ := by rw [State.cluster_resetClusters, hc]

theorem State.runq_resetAgents (s : State) (d : DieIx) (warm : Bool) {c : CluIx} (h : dieOfClu c = d) :
    c ∉ (s.resetAgents d warm).runq := (s.resetCores d warm).runq_resetClusters d warm h

/-! ### Cold reset and power-on (R22, R312, R347) -/

@[simp] theorem Die.cold_stage (x : Die) (hub : Bool) : (x.cold hub).stage = 1 := by cases hub <;> rfl
@[simp] theorem Die.cold_ready (x : Die) (hub : Bool) : (x.cold hub).ready = false := by cases hub <;> rfl
@[simp] theorem Die.cold_bootErr (x : Die) (hub : Bool) : (x.cold hub).bootErr = 0 := by cases hub <;> rfl
@[simp] theorem Die.cold_hub (x : Die) (hub : Bool) : (x.cold hub).hub = x.hub := by cases hub <;> rfl
@[simp] theorem Die.cold_dram (x : Die) (hub : Bool) : (x.cold hub).dram = x.dram := by cases hub <;> rfl

/-- Changes of links alone. -/
theorem State.modLinks_frame (f : State → LinkIx → Link → Link) (ls : List LinkIx) (s : State) :
    ∃ v, ls.foldl (fun acc l => acc.modLink l (f acc l)) s = { s with links := v } :=
  foldl_frame (fun (t : State) v => { t with links := v }) (fun _ => ⟨_, rfl⟩) (fun _ _ _ => rfl) (fun _ _ => ⟨_, rfl⟩) _ _

theorem State.dropLogs_frame (s : State) (d : DieIx) : ∃ v, s.dropLogs d = { s with links := v } :=
  State.modLinks_frame _ _ _

/-- FCNT of the links of a die is 0 once its logs are dropped (R295). -/
theorem State.fcnt_dropLogs (s : State) (d : DieIx) {l : LinkIx} (h : l ∈ linksOf d) :
    (((s.dropLogs d).link l).nearEnd l d).fcnt = 0 := by
  rw [State.dropLogs, foldl_read State.link _
    (fun l x => x.modNear l d fun e => { e with log := [], ckAsked := false, fcnt := 0, floorAge := 0 })
    (fun t l => t.link_modLink l _) (fun t _ _ e => t.link_modLink_ne _ e) (fun l x => x.modNear_modNear l d _ _), if_pos h,
    Link.nearEnd_modNear]

/-- A cold reset, but for the links. -/
theorem State.coldReset_frame (s : State) (d : DieIx) :
    ∃ v, s.coldReset d = { (s.resetAgents d false).modDie d fun x => x.cold (isHub d) with links := v } :=
  State.dropLogs_frame _ _

@[simp] theorem State.die_coldReset (s : State) (d : DieIx) : (s.coldReset d).die d = (s.die d).cold (isHub d) := by
  obtain ⟨v, h⟩ := s.coldReset_frame d
  calc (s.coldReset d).die d
    _ = ((s.resetAgents d false).modDie d fun x => x.cold (isHub d)).die d := by rw [h]; rfl
    _ = _ := by simp

theorem State.die_coldReset_ne (s : State) {d e : DieIx} (he : e ≠ d) : (s.coldReset d).die e = s.die e := by
  obtain ⟨v, h⟩ := s.coldReset_frame d
  calc (s.coldReset d).die e
    _ = ((s.resetAgents d false).modDie d fun x => x.cold (isHub d)).die e := by rw [h]; rfl
    _ = _ := by simp [State.die_modDie_ne _ _ he]

theorem State.core_coldReset (s : State) (d : DieIx) (k : CoreIx) :
    (s.coldReset d).core k = if dieOf k = d then (s.core k).cold (s.blkwBit k) else s.core k := by
  obtain ⟨v, h⟩ := s.coldReset_frame d
  calc (s.coldReset d).core k
    _ = (s.resetAgents d false).core k := by rw [h]; rfl
    _ = _ := s.core_resetAgents d false k

theorem State.cluster_coldReset (s : State) (d : DieIx) (c : CluIx) :
    (s.coldReset d).cluster c = if dieOfClu c = d then Cluster.reset else s.cluster c := by
  obtain ⟨v, h⟩ := s.coldReset_frame d
  calc (s.coldReset d).cluster c
    _ = (s.resetAgents d false).cluster c := by rw [h]; rfl
    _ = _ := s.cluster_resetAgents d false c

theorem State.runq_coldReset (s : State) (d : DieIx) {c : CluIx} (h : dieOfClu c = d) : c ∉ (s.coldReset d).runq := by
  obtain ⟨v, hv⟩ := s.coldReset_frame d
  rw [hv]
  exact s.runq_resetAgents d false h

@[simp] theorem State.hostMem_coldReset (s : State) (d : DieIx) : (s.coldReset d).hostMem = s.hostMem := by
  obtain ⟨v, h⟩ := s.coldReset_frame d
  rw [h]; exact s.hostMem_resetAgents d false

theorem execColdReset_effect (s : State) (d : DieIx) :
    ∃ t, execColdReset d s = .next t ∧ (t.die d).stage = 1 ∧ (t.die d).ready = false ∧ (t.die d).bootErr = 0 ∧
      (∀ c, (dieOfClu c = d → t.cluster c = Cluster.reset ∧ c ∉ t.runq) ∧ (dieOfClu c ≠ d → t.cluster c = s.cluster c)) ∧
      (∀ k, dieOf k = d → (t.core k).secure = (s.die d).blkw.getLsbD (s.coreNo k) ∧ (∀ a, t.peek (.spad k a) 1 = [0]) ∧
        (t.core k).vq = [] ∧ (t.core k).ptroot = 0) ∧
      (∀ a, t.peek (.dram d a) 1 = s.peek (.dram d a) 1 ∧ t.peek (.hub d a) 1 = s.peek (.hub d a) 1) ∧
      (∀ l ∈ linksOf d, ((t.link l).nearEnd l d).fcnt = 0) ∧
      ∀ e, e ≠ d → t.die e = s.die e := by
  refine ⟨s.coldReset d, rfl, by simp, by simp, by simp, fun c => ⟨fun hc => ⟨?_, s.runq_coldReset d hc⟩, fun hc => ?_⟩,
    fun k hk => ?_, fun a => ?_, fun l hl => State.fcnt_dropLogs _ d hl, fun e he => s.die_coldReset_ne he⟩
  · rw [s.cluster_coldReset, if_pos hc]
  · rw [s.cluster_coldReset, if_neg hc]
  · have hcore : (s.coldReset d).core k = (s.core k).cold (s.blkwBit k) := by rw [s.core_coldReset, if_pos hk]
    subst hk
    simp [State.peek, hcore, Core.cold, Core.reset, State.blkwBit]
  · simp [State.peek]

/-- The parts of a die that power-on sets: it enters stage 1, with its memory lost. -/
def Die.PoweredOn (x : Die) : Prop := x.stage = 1 ∧ x.ready = false ∧ x.hub = [] ∧ x.dram = []

theorem Die.powered_poweredOn (x : Die) (hub : Bool) : (x.powered hub).PoweredOn := by
  simp [Die.powered, Die.PoweredOn]

/-- The agents of a die are as after reset, and its cores normal. -/
def State.Unpowered (d : DieIx) (s : State) : Prop :=
  (∀ c, dieOfClu c = d → s.cluster c = Cluster.reset) ∧ ∀ k, dieOf k = d → (s.core k).secure = false

/-- POWER_ON's first pass over a die: BLKW lost, then a cold reset. -/
def State.powerDie (s : State) (d : DieIx) : State := (s.modDie d fun x => { x with blkw := 0 }).coldReset d

theorem State.powerDie_unpowered (s : State) (d : DieIx) : (s.powerDie d).Unpowered d := by
  refine ⟨fun c hc => ?_, fun k hk => ?_⟩
  · rw [State.powerDie, State.cluster_coldReset, if_pos hc]
  · subst hk
    rw [State.powerDie, State.core_coldReset, if_pos rfl]
    simp [Core.cold, State.blkwBit]

theorem State.powerDie_keeps_unpowered (s : State) (d e : DieIx) (h : s.Unpowered d) : (s.powerDie e).Unpowered d := by
  by_cases he : d = e
  · exact he ▸ s.powerDie_unpowered d
  · obtain ⟨hclusters, hcores⟩ := h
    refine ⟨fun c hc => ?_, fun k hk => ?_⟩
    · rw [State.powerDie, State.cluster_coldReset, if_neg (hc ▸ he)]
      exact hclusters c hc
    · rw [State.powerDie, State.core_coldReset, if_neg (hk ▸ he)]
      exact hcores k hk

/-- POWER_ON's first pass over the dies. -/
def State.powerDies (s : State) : State := allDies.foldl State.powerDie s

/-- POWER_ON's second pass over the dies: their memory is lost. -/
def State.loseMemory (s : State) : State := allDies.foldl (fun acc d => acc.modDie d fun x => x.powered (isHub d)) s

theorem State.powerDies_unpowered (s : State) (d : DieIx) : s.powerDies.Unpowered d :=
  foldl_establishes State.Unpowered State.powerDie State.powerDie_unpowered
    (fun t d e h => t.powerDie_keeps_unpowered d e h) allDies s d (mem_allDies d)

theorem State.hostMem_powerDies (s : State) : s.powerDies.hostMem = s.hostMem :=
  foldl_keeps State.hostMem State.powerDie (fun t d => by simp [State.powerDie]) _ _

theorem State.loseMemory_poweredOn (s : State) (d : DieIx) : (s.loseMemory.die d).PoweredOn := by
  refine foldl_establishes (fun d (t : State) => (t.die d).PoweredOn) _ (fun t d => ?_) (fun t d e h => ?_) allDies s d (mem_allDies d)
  · simp [Die.powered_poweredOn]
  · by_cases he : d = e
    · simp [he, Die.powered_poweredOn]
    · simpa [State.die_modDie_ne _ _ he] using h

theorem State.loseMemory_frame (s : State) : ∃ v, s.loseMemory = { s with dies := v } :=
  foldl_frame (fun (t : State) v => { t with dies := v }) (fun _ => ⟨_, rfl⟩) (fun _ _ _ => rfl) (fun _ _ => ⟨_, rfl⟩) _ _

/-- POWER_ON is its two passes, with links, flits and the run queue as after reset. -/
theorem execPowerOn_eq (s : State) : execPowerOn s = .next { s.powerDies.loseMemory with
    links := Vector.replicate 9 Link.reset, flits := [], merges := [], runq := [], engineTurn := false } := rfl

theorem execPowerOn_effect (s : State) : ∃ t, execPowerOn s = .next t ∧ (∀ d, (t.die d).stage = 1 ∧ (t.die d).ready = false) ∧
    (∀ c, t.cluster c = Cluster.reset) ∧ (∀ k, (t.core k).secure = false) ∧ t.runq = [] ∧ t.hostMem = s.hostMem ∧
    ∀ d a, t.peek (.dram d a) 1 = [0] ∧ t.peek (.hub d a) 1 = [0] := by
  have hdie := s.powerDies.loseMemory_poweredOn
  have hagents := s.powerDies_unpowered
  have hhost := s.hostMem_powerDies
  obtain ⟨v, hv⟩ := s.powerDies.loseMemory_frame
  have h := execPowerOn_eq s
  generalize s.powerDies = p at *
  generalize p.loseMemory = q at *
  subst hv
  refine ⟨_, h, fun d => ?_, fun c => (hagents (dieOfClu c)).1 c rfl, fun k => (hagents (dieOf k)).2 k rfl, rfl, hhost, fun d a => ?_⟩
  · obtain ⟨hstage, hready, -, -⟩ := hdie d
    exact ⟨hstage, hready⟩
  · obtain ⟨-, -, hhub, hdram⟩ := hdie d
    exact ⟨(congrArg (Mem.readN · a 1) hdram).trans (Mem.readN_nil_one a),
      (congrArg (Mem.readN · a 1) hhub).trans (Mem.readN_nil_one a)⟩

/-! ### Warm reset (R342) -/

/-- What a warm reset restores of a die from its checkpoint before it restores the cores, with ELBASE. -/
def Die.restorable (x : Die) : Mem × Vector QSlot 16 × List Ready × List Loc × Word := (x.hub, x.qslots, x.store, x.resv, x.elbase)

/-- What restoring the cores of a die leaves alone: that part of the die, and the output of the part. -/
def State.standing (d : DieIx) (s : State) : (Mem × Vector QSlot 16 × List Ready × List Loc × Word) × List HostOut :=
  ((s.die d).restorable, s.out)

theorem State.standing_modDie (s : State) (d e : DieIx) (f : Die → Die) (hf : ∀ x, (f x).restorable = x.restorable) :
    (s.modDie e f).standing d = s.standing d := by
  by_cases h : d = e
  · subst h; simp [State.standing, hf]
  · simp [State.standing, State.die_modDie_ne _ _ h]

@[simp] theorem State.standing_modCluster (s : State) (d : DieIx) (c : CluIx) (f : Cluster → Cluster) :
    (s.modCluster c f).standing d = s.standing d := rfl
@[simp] theorem State.standing_modCore (s : State) (d : DieIx) (k : CoreIx) (f : Core → Core) :
    (s.modCore k f).standing d = s.standing d := rfl
@[simp] theorem State.standing_tick (s : State) (d : DieIx) : s.tick.standing d = s.standing d := rfl
@[simp] theorem State.standing_enqueue (s : State) (d : DieIx) (c : CluIx) : (s.enqueue c).standing d = s.standing d := rfl

theorem State.standing_resumeDual (s : State) (d : DieIx) (c : CluIx) : (s.resumeDual c).standing d = s.standing d := by
  unfold State.resumeDual
  split
  · split
    · rw [State.standing_tick, State.standing_modCluster, State.standing_modDie]
      exact fun _ => rfl
    · rfl
  · rfl

theorem State.standing_resumeCluster (s : State) (d : DieIx) (c : CluIx) (u : UnitSave) (ws : List Word) :
    (s.resumeCluster c u ws).standing d = s.standing d := by
  unfold State.resumeCluster
  dsimp only
  rw [State.standing_resumeDual, State.standing_enqueue]
  split
  · rw [State.standing_modDie, State.standing_modCluster]
    exact fun _ => rfl
  · rfl

theorem State.standing_restoreUnits (s : State) (d : DieIx) (k : CoreIx) (u : UnitSave) :
    (s.restoreUnits k u).standing d = s.standing d := by
  unfold State.restoreUnits
  dsimp only
  split
  · rfl
  · rw [State.modLanes, State.standing_modDie, State.standing_modCore]
    exact fun _ => rfl

theorem State.standing_applyImage (s : State) (d : DieIx) (k : CoreIx) (tag : BitVec 16) (len : Nat) (im : Image) (u : UnitSave) :
    (s.applyImage k tag len im u).standing d = s.standing d := by
  unfold State.applyImage
  refine (foldl_keeps (State.standing d) _ (fun t c => ?_) im.clus _).trans ?_
  · split
    · exact t.standing_resumeCluster d _ u c.2
    · rfl
  · refine (State.standing_restoreUnits _ d k u).trans ?_
    exact foldl_keeps (State.standing d) State.idleCluster (fun _ _ => rfl) (clustersOf k) s

theorem State.standing_replayLogs (s : State) (d e : DieIx) : (s.replayLogs e).standing d = s.standing d := by
  rw [State.replayLogs, foldl_keeps (State.standing d)]
  exact fun _ _ => rfl

/-- Hub SRAM and the scheduler come back as the checkpoint holds them (R342 steps 2 and 3). -/
theorem State.standing_restoreCheckpoint (s : State) (d : DieIx) (k : Ckpt) :
    (s.restoreCheckpoint d k).standing d = ((k.hub, k.qslots, k.store, k.resv, (s.die d).elbase), s.out) := by
  unfold State.restoreCheckpoint
  dsimp only
  rw [State.standing_replayLogs, State.standing_modDie, foldl_keeps (State.standing d), foldl_keeps (State.standing d),
    foldl_keeps (State.standing d)]
  · simp [State.standing, Die.restorable]
  · exact fun _ _ => rfl
  · exact fun t p => t.standing_applyImage d _ _ _ _ _
  · exact fun _ _ => rfl
  · exact fun _ => rfl

/-- The agents and the logic of a die reset, before anything is restored. -/
def State.warmed (s : State) (d : DieIx) : State := (s.resetAgents d true).modDie d Die.warm

@[simp] theorem State.die_warmed (s : State) (d : DieIx) : (s.warmed d).die d = (s.die d).warm := by
  simp [State.warmed]

@[simp] theorem State.out_warmed (s : State) (d : DieIx) : (s.warmed d).out = s.out := by
  simp [State.warmed]

/-- The die reset, and restored from its checkpoint where it has one: a warm reset but for its log entry and its messages. -/
def State.rewarmed (s : State) (d : DieIx) : State :=
  match s.committed d with
  | some k => (s.warmed d).restoreCheckpoint d k
  | none => (s.warmed d).modDie d fun y => { y with ws := [] }

/-- The number that a warm reset reports, 0 for no checkpoint (R342). -/
def restoredNum : Option Ckpt → W32
  | some k => k.num
  | none => 0

theorem State.warmReset_eq (s : State) (d : DieIx) : s.warmReset d =
    { (s.rewarmed d).log d 15 1 0 0 (restoredNum (s.committed d)).toNat with
      out := (s.rewarmed d).out ++ [.faultMessage d, .restored d (restoredNum (s.committed d))] } := by
  unfold State.warmReset State.rewarmed restoredNum
  cases s.committed d <;> rfl

/-- Where its die has no error log, a warm reset adds only its messages (R325, R342). -/
theorem execWarmReset_noLog (s : State) (d : DieIx) (hr : (s.die d).ready = true)
    (hl : bit ((s.rewarmed d).die d).elbase 0 = false) (ho : (s.rewarmed d).out = s.out) :
    execWarmReset d s = .next { s.rewarmed d with
      out := s.out ++ [.faultMessage d, .restored d (restoredNum (s.committed d))] } := by
  rw [execWarmReset, if_pos hr, s.warmReset_eq, State.log_off hl, ho]

theorem execWarmReset_fresh (s : State) (d : DieIx) (hr : (s.die d).ready = true) (he : bit (s.die d).elbase 0 = false)
    (hc : s.committed d = none) :
    ∃ t, execWarmReset d s = .next t ∧ (t.die d).ready = true ∧ (t.die d).store = [] ∧
      (∀ a, t.peek (.dram d a) 1 = s.peek (.dram d a) 1) ∧ t.out = s.out ++ [.faultMessage d, .restored d 0] ∧
      (∀ k a, dieOf k = d → (t.core k).imem.readN a 1 = [0]) ∧
      ∀ c, dieOfClu c = d → t.cluster c = { Cluster.reset with thvec := (s.cluster c).thvec } ∧ c ∉ t.runq := by
  have hb : s.rewarmed d = (s.warmed d).modDie d fun y => { y with ws := [] } := by rw [State.rewarmed, hc]
  have hdie : (s.rewarmed d).die d = { (s.die d).warm with ws := [] } := by simp [hb]
  have hdram : ((s.rewarmed d).die d).dram = (s.die d).dram := by rw [hdie]; rfl
  have hout : (s.rewarmed d).out = s.out := by simp [hb]
  have hcore : ∀ k, (s.rewarmed d).core k = (s.resetAgents d true).core k := fun k => by rw [hb]; rfl
  have hclu : ∀ c, (s.rewarmed d).cluster c = (s.resetAgents d true).cluster c := fun c => by rw [hb]; rfl
  have hq : (s.rewarmed d).runq = (s.resetAgents d true).runq := by rw [hb]; rfl
  have hnext := execWarmReset_noLog s d hr (by rw [hdie]; exact he) hout
  rw [hc] at hnext
  refine ⟨_, hnext, (congrArg Die.ready hdie).trans hr, congrArg Die.store hdie, fun a => ?_, rfl, fun k a hk => ?_,
    fun c hd => ⟨?_, ?_⟩⟩
  · exact congrArg (Mem.readN · a 1) hdram
  · have himem : ((s.rewarmed d).core k).imem = [] := by rw [hcore, s.core_resetAgents, if_pos hk]; rfl
    exact (congrArg (Mem.readN · a 1) himem).trans (Mem.readN_nil_one a)
  · exact ((hclu c).trans (s.cluster_resetAgents d true c)).trans (if_pos hd)
  · exact fun h => s.runq_resetAgents d true hd (hq ▸ h)

theorem execWarmReset_restores (s : State) (d : DieIx) (hr : (s.die d).ready = true) (he : bit (s.die d).elbase 0 = false)
    (k : Ckpt) (hc : s.committed d = some k) :
    ∃ t, execWarmReset d s = .next t ∧ (t.die d).hub = k.hub ∧ (t.die d).qslots = k.qslots ∧ (t.die d).store = k.store ∧
      (t.die d).resv = k.resv ∧ t.out = s.out ++ [.faultMessage d, .restored d k.num] := by
  have hs := (s.warmed d).standing_restoreCheckpoint d k
  have hb : s.rewarmed d = (s.warmed d).restoreCheckpoint d k := by rw [State.rewarmed, hc]
  rw [← hb] at hs
  simp only [State.standing, Die.restorable, Prod.mk.injEq, State.die_warmed, State.out_warmed] at hs
  obtain ⟨⟨hhub, hslots, hstore, hresv, hlog⟩, hout⟩ := hs
  have hnext := execWarmReset_noLog s d hr (by rw [hlog]; exact he) hout
  rw [hc] at hnext
  exact ⟨_, hnext, hhub, hslots, hstore, hresv, rfl⟩

/-! ### The stages of boot (R347 to R349) -/

theorem Die.atStage_iff (x : Die) (n : Nat) : x.atStage n = true ↔ x.stage = n ∧ x.bootErr = 0 := by
  simp [Die.atStage]

@[simp] theorem State.die_enterStage (s : State) (d : DieIx) (n : Nat) (f : Die → Die) :
    (s.enterStage d n f).die d = { f (s.die d) with stage := n, stageAge := 0 } := s.die_modDie d _

@[simp] theorem State.die_failStage (s : State) (d : DieIx) (e : Nat) :
    (s.failStage d e).die d = { s.die d with bootErr := e } :=
  s.die_modDie d fun x => { x with bootErr := e }

/-- Every byte of memory reads as before after a stage that leaves the memory of its die alone. -/
theorem State.peek_enterStage (s : State) (d : DieIx) (n : Nat) (f : Die → Die) (hh : (f (s.die d)).hub = (s.die d).hub)
    (hd : (f (s.die d)).dram = (s.die d).dram) (l : Loc) : (s.enterStage d n f).peek l 1 = s.peek l 1 :=
  s.peek_modDie d (fun x => { f x with stage := n, stageAge := 0 }) hh hd l 1

/-- From s a die has failed its stage: ERR is set, it stays there with its memory, and it has raised its fault message (R347, R348). -/
def State.Fails (s : State) (d : DieIx) (e : Nat) (t : State) : Prop :=
  (t.die d).bootErr = e ∧ (t.die d).stage = (s.die d).stage ∧ (∀ l, t.peek l 1 = s.peek l 1) ∧ t.out = s.out ++ [.faultMessage d]

theorem State.failStage_fails (s : State) (d : DieIx) (e : Nat) : s.Fails d e (s.failStage d e) :=
  ⟨by simp, by simp, fun l => s.peek_modDie d (fun x => { x with bootErr := e }) rfl rfl l 1, rfl⟩

/-! Stage 1 -/

theorem execBootRailsSettled_effect (s : State) (d : DieIx) (h1 : (s.die d).stage = 1) (h0 : (s.die d).bootErr = 0) :
    ∃ t, execBootRailsSettled d s = .next t ∧ (t.die d).stage = 2 ∧ (t.die d).orient = orientWord d ∧
      ∀ l, t.peek l 1 = s.peek l 1 := by
  have hs : (s.die d).atStage 1 = true := (Die.atStage_iff _ _).2 ⟨h1, h0⟩
  exact ⟨_, by rw [execBootRailsSettled, if_pos hs], by simp, by simp, s.peek_enterStage d 2 _ rfl rfl⟩

/-! Stage 2 -/

/-- An image without a whole header, or with another magic number, has no parts (R349). -/
theorem imageParts_unreadable {im : List Byte} (h : im.length < 64 ∨ leNat (im.take 4) ≠ 0x4B494653 ∨ imageParts im = none) :
    imageParts im = none := by
  rcases h with hlen | hmagic | hnone
  · exact if_pos (.inl hlen)
  · exact if_pos (.inr (.inl hmagic))
  · exact hnone

/-- The boot ROM finds no image that it can read (R348, R349). -/
theorem verifyImage_unreadable (d : DieIx) (m : Nat) (image : Option (List Byte))
    (h : ∀ im, image = some im → imageParts im = none) : verifyImage d m image = .error 1 := by
  unfold verifyImage
  cases image with
  | none => rfl
  | some im => simp [h im rfl]

/-- An image is genuine: its key has the fused digest, and its signature verifies (R349). -/
def Genuine (d : DieIx) (signed sig key : List Byte) : Prop :=
  Config.shake256 32 key = Config.keyDigest d.val ∧ Config.falconVerifies key sig signed = true

section
variable {d : DieIx} {m : Nat} {im signed sig key : List Byte} (hp : imageParts im = some (signed, sig, key))
include hp

theorem verifyImage_false (hg : ¬ Genuine d signed sig key) : verifyImage d m (some im) = .error 2 := by
  have hf : Config.shake256 32 key ≠ Config.keyDigest d.val ∨ (!Config.falconVerifies key sig signed) = true := by
    by_contra hn
    simp only [not_or, ne_eq, not_not, Bool.not_eq_true, Bool.not_eq_false'] at hn
    exact hg hn
  simp only [verifyImage, Option.bind_some, hp, Option.map_some, if_pos hf]

theorem verifyImage_genuine (hg : Genuine d signed sig key) : verifyImage d m (some im) =
    if imageField im 4 4 < m then .error 3 else .ok (BitVec.ofNat 32 (imageField im 4 4)) := by
  obtain ⟨hk, hv⟩ := hg
  simp [verifyImage, hp, hk, hv]

end

theorem execBootImageVerified_error (s : State) (d : DieIx) (h2 : (s.die d).stage = 2) (h0 : (s.die d).bootErr = 0) {e : Nat}
    (hv : verifyImage d (s.die d).minsvn (s.die d).image = .error e) :
    execBootImageVerified d s = .next (s.failStage d e) := by
  have hs : (s.die d).atStage 2 = true := (Die.atStage_iff _ _).2 ⟨h2, h0⟩
  simp [execBootImageVerified, hs, hv]

theorem execBootImageVerified_ok (s : State) (d : DieIx) (h2 : (s.die d).stage = 2) (h0 : (s.die d).bootErr = 0) {im : List Byte}
    {svn : W32} (hi : (s.die d).image = some im) (hv : verifyImage d (s.die d).minsvn (some im) = .ok svn) :
    ∃ t, execBootImageVerified d s = .next t ∧ (t.die d).stage = 3 ∧ (t.die d).svn = svn ∧
      (t.die d).measure = Config.shake256 64 im ∧ ∀ l, t.peek l 1 = s.peek l 1 := by
  have hs : (s.die d).atStage 2 = true := (Die.atStage_iff _ _).2 ⟨h2, h0⟩
  have hnext : execBootImageVerified d s =
      .next (s.enterStage d 3 fun x => { x with svn := svn, measure := Config.shake256 64 (x.image.getD []) }) := by
    simp [execBootImageVerified, hs, hi, hv]
  exact ⟨_, hnext, by simp, by simp, by simp [hi], s.peek_enterStage d 3 _ rfl rfl⟩

/-! Stage 3 -/

theorem execBootMemoryReady_fails (s : State) (d : DieIx) (h3 : (s.die d).stage = 3) (h0 : (s.die d).bootErr = 0)
    (hd : isHub d = false) (ht : (s.die d).memTestOk = false ∨ s.busesPass d = false) :
    execBootMemoryReady d s = .next (s.failStage d 4) := by
  have hs : (s.die d).atStage 3 = true := (Die.atStage_iff _ _).2 ⟨h3, h0⟩
  have hbad : ((s.die d).memTestOk && s.busesPass d) = false := Bool.and_eq_false_iff.2 ht
  simp [execBootMemoryReady, hs, hd, hbad]

theorem execBootMemoryReady_passes (s : State) (d : DieIx) (h3 : (s.die d).stage = 3) (h0 : (s.die d).bootErr = 0)
    (ht : isHub d = true ∨ ((s.die d).memTestOk = true ∧ s.busesPass d = true)) :
    execBootMemoryReady d s = .next (s.enterStage d 4 fun x => x.memoryReady (isHub d)) := by
  have hs : (s.die d).atStage 3 = true := (Die.atStage_iff _ _).2 ⟨h3, h0⟩
  have hok : (!isHub d && !((s.die d).memTestOk && s.busesPass d)) = false := by
    rcases ht with hh | ⟨hm, hb⟩
    · simp [hh]
    · simp [hm, hb]
  simp only [execBootMemoryReady, hs, hok, Bool.not_true, Bool.false_eq_true, if_false]

/-- Stage 3 zeroes hub SRAM, or initialises DRAM (R347). -/
theorem State.peek_memoryReady (s : State) (d : DieIx) (a : Nat) :
    let t := s.enterStage d 4 fun x => x.memoryReady (isHub d)
    (isHub d = true → t.peek (.hub d a) 1 = [0]) ∧ (isHub d = false → t.peek (.dram d a) 1 = [0]) :=
  ⟨fun h => by simp [State.peek, Die.memoryReady, h], fun h => by simp [State.peek, Die.memoryReady, h]⟩

/-! Stage 4 -/

/-- The bits of the word with which firmware enables the world map: EN, and the address from bit 16 up (R312). -/
theorem bit_mapWord (d : DieIx) (i : Nat) (hi : i < 64) : bit (mapWord d) i =
    if i < 16 then Nat.testBit 1 i else (Config.worldMap d.val).getLsbD (i - 16) := by
  have hn : packNat [(16, (Config.worldMap d.val).toNat), (0, 1)] = 2 ^ 16 * (Config.worldMap d.val).toNat + 1 := by
    simp only [packNat, List.foldl, Nat.shiftLeft_eq]
    omega
  simp only [bit, mapWord, packWord, word, hn, BitVec.getLsbD_ofNat, hi, decide_true, Bool.true_and]
  exact Nat.testBit_two_pow_mul_add _ (by decide) i

/-- A word whose bits are all of a mask sets no bit outside it. -/
theorem outside_eq_false {w : Word} {mask : Nat} (h : ∀ i, i < 64 → bit w i = true → mask.testBit i = true) :
    outside w mask = false := by
  have hz : w &&& ~~~word mask = 0 := BitVec.eq_of_getLsbD_eq fun i hi => by
    have hbit : w.getLsbD i = true → mask.testBit i = true := h i hi
    cases hw : w.getLsbD i with
    | false => simp [hw]
    | true => simp [word, hw, hbit hw, hi, BitVec.getLsbD_ofNat]
  simp [outside, hz]

/-- That word sets no reserved bit of WMAPB (R312). -/
theorem outside_mapWord (d : DieIx) : outside (mapWord d) (cregMask 0xC00) = false := by
  refine outside_eq_false fun i hi hb => ?_
  have hm : cregMask 0xC00 = 2 ^ 16 * (2 ^ 32 - 1) + 1 := rfl
  rw [bit_mapWord d i hi] at hb
  rw [hm, Nat.testBit_two_pow_mul_add _ (by decide) i]
  split
  · next h => simpa [h] using hb
  · next h =>
    rw [if_neg h] at hb
    have hlt : i - 16 < 32 := BitVec.lt_of_getLsbD hb
    exact (Nat.testBit_two_pow_sub_one 32 (i - 16)).trans (decide_eq_true hlt)

theorem State.firmwareWrite_map (s : State) (d : DieIx) (h4 : 3 ≤ (s.die d).stage) (h0 : (s.die d).bootErr = 0)
    (hk : s.tableCore d ≠ none) :
    s.firmwareWrite d 0xC00 (mapWord d) = s.modDie d fun x => { x with wmapb := mapWord d } := by
  obtain ⟨k, hk⟩ := Option.ne_none_iff_exists'.1 hk
  have hruns : (s.die d).firmwareRuns = true := by simp [Die.firmwareRuns, h4, h0]
  have hacc : cregAcc (isHub d) 0xC00 = some .sec := rfl
  have hval : cregValueBad 0xC00 (mapWord d) = false := rfl
  have hwrite : s.dieWrite k true 0xC00 (mapWord d) = .ok (s.modDie (dieOf k) fun x => { x with wmapb := mapWord d }) := rfl
  simp [State.firmwareWrite, hk, hruns, hacc, hval, outside_mapWord, hwrite, State.dieOf_tableCore hk]

/-- Firmware enables the world map, and no byte of memory changes (R312). -/
theorem State.enableMap_effect (s : State) (d : DieIx) (h4 : (s.die d).stage = 4) (h0 : (s.die d).bootErr = 0)
    (hw : bit (s.die d).wmapb 0 = false) (hk : s.tableCore d ≠ none) :
    ∃ t, s.enableMap d = .next t ∧ bit (t.die d).wmapb 0 = true ∧ ∀ l, t.peek l 1 = s.peek l 1 := by
  have hnext : s.enableMap d = .next (s.modDie d fun x => { x with wmapb := mapWord d }) := by
    simp only [State.enableMap, hw, Bool.false_eq_true, if_false, s.firmwareWrite_map d (h4 ▸ by decide) h0 hk]
  refine ⟨_, hnext, ?_, fun l => s.peek_modDie d _ rfl rfl l 1⟩
  rw [State.die_modDie]
  exact bit_mapWord d 0 (by decide)

section
variable {s : State} {d : DieIx} (h4 : (s.die d).stage = 4) (h0 : (s.die d).bootErr = 0)
include h4 h0

theorem execBootLinksTrained_fails (hl : (s.die d).linksOk = false) :
    execBootLinksTrained d s = .next (s.failStage d 5) := by
  have hs : (s.die d).atStage 4 = true := (Die.atStage_iff _ _).2 ⟨h4, h0⟩
  simp [execBootLinksTrained, hs, hl]

theorem execBootLinksTrained_waits (hl : (s.die d).linksOk = true) (hw : bit (s.die d).wmapb 0 = false) :
    execBootLinksTrained d s = .next { s with note := .waited } := by
  have hs : (s.die d).atStage 4 = true := (Die.atStage_iff _ _).2 ⟨h4, h0⟩
  simp [execBootLinksTrained, hs, hl, hw, State.stutter]

/-- Stage 4 ends: READY is set, and every link of the die has a = 8 with no turn queued (R292, R347). -/
theorem execBootLinksTrained_ready (hl : (s.die d).linksOk = true) (hw : bit (s.die d).wmapb 0 = true) :
    ∃ t, execBootLinksTrained d s = .next t ∧ (t.die d).stage = 5 ∧ (t.die d).ready = true ∧ (∀ l, t.peek l 1 = s.peek l 1) ∧
      ∀ l ∈ linksOf d, (t.link l).share = 8 ∧ (t.link l).age = 0 ∧ (t.link l).queue = [] := by
  have hs : (s.die d).atStage 4 = true := (Die.atStage_iff _ _).2 ⟨h4, h0⟩
  let r := s.enterStage d 5 fun x => { x with ready := true, mbRun := true }
  let t := (linksOf d).foldl (fun (acc : State) l => acc.modLink l Link.trained) r
  have hnext : execBootLinksTrained d s = .next t := by simp [execBootLinksTrained, hs, hl, hw, t, r]
  obtain ⟨v, hv⟩ : ∃ v, t = { r with links := v } := State.modLinks_frame (fun _ _ => Link.trained) (linksOf d) r
  have hdie : t.die d = r.die d := by rw [hv]; rfl
  refine ⟨t, hnext, by simp [hdie, r], by simp [hdie, r], fun m => ?_, fun l hm => ?_⟩
  · have hp : t.peek m 1 = r.peek m 1 := by rw [hv]; exact State.peek_congr rfl rfl rfl rfl m 1
    exact hp.trans (s.peek_enterStage d 5 _ rfl rfl m)
  · have hlink : t.link l = (r.link l).trained :=
      (foldl_read State.link _ (fun _ => Link.trained) (fun t l => t.link_modLink l _) (fun t _ _ e => t.link_modLink_ne _ e)
        (fun _ _ => rfl) (linksOf d) r l).trans (if_pos hm)
    rw [hlink]
    exact ⟨rfl, rfl, rfl⟩

end

/-! ### Firmware services (R349, R350) -/

theorem execAttestationRequest_takes (s : State) (d : DieIx) (nonce : List Byte) (h3 : 3 ≤ (s.die d).stage)
    (h0 : (s.die d).bootErr = 0) (hn : nonce.length = 32) :
    execAttestationRequest d nonce s = .next (s.modDie d fun y => { y with attest := some nonce }) := by
  simp [execAttestationRequest, h3, h0, hn]

theorem execAttestationReport_answers (s : State) (d : DieIx) (nonce : List Byte) (h : (s.die d).attest = some nonce) :
    ∃ t, execAttestationReport d s = .next t ∧ (t.die d).attest = none ∧ t.out = s.out ++ [.report d (s.report d nonce)] := by
  have hnext : execAttestationReport d s =
      .next { s.modDie d fun x => { x with attest := none } with out := s.out ++ [.report d (s.report d nonce)] } := by
    simp [execAttestationReport, h]
  exact ⟨_, hnext, congrArg Die.attest (s.die_modDie d fun x => { x with attest := none }), rfl⟩

theorem execMinsvnRaiseRequest_raises (s : State) (d : DieIx) (h : (s.die d).ready = true) :
    ∃ t, execMinsvnRaiseRequest d s = .next t ∧
      (t.die d).minsvn = max (s.die d).minsvn (min 255 (s.die d).svn.toNat) ∧ (s.die d).minsvn ≤ (t.die d).minsvn := by
  refine ⟨_, by rw [execMinsvnRaiseRequest, if_pos h], ?_, ?_⟩ <;> simp

/-! ### The statement -/

/-- Settles O46: the two resets agent by agent, each stage of boot case by case, and the services of firmware. -/
theorem resetsAndBoot : Obligations.ResetsAndBoot := by
  unfold Obligations.ResetsAndBoot
  refine ⟨execColdReset_effect, execPowerOn_effect, ?warmReset, ?boot, ?services⟩
  case warmReset => exact fun s d hr he => ⟨execWarmReset_fresh s d hr he, execWarmReset_restores s d hr he⟩
  case boot =>
    intro s d h0
    refine ⟨fun h1 => execBootRailsSettled_effect s d h1 h0, fun h2 => ?stage2, fun h3 => ?stage3, fun h4 => ?stage4,
      fun nonce h3 hn => ⟨_, execAttestationRequest_takes s d nonce h3 h0 hn, rfl⟩⟩
    case stage2 =>
      refine ⟨fun him => ?unreadable, fun im signed sig key hi hp =>
        ⟨fun hg => ?notGenuine, fun hg hlt => ?oldVersion, fun hg hle => ?verified⟩⟩
      case unreadable =>
        have hv := verifyImage_unreadable d (s.die d).minsvn (s.die d).image fun im hi => imageParts_unreadable (him im hi)
        exact ⟨_, execBootImageVerified_error s d h2 h0 hv, s.failStage_fails d 1⟩
      case notGenuine =>
        have hv : verifyImage d (s.die d).minsvn (s.die d).image = .error 2 := by rw [hi, verifyImage_false hp hg]
        exact ⟨_, execBootImageVerified_error s d h2 h0 hv, s.failStage_fails d 2⟩
      case oldVersion =>
        have hv : verifyImage d (s.die d).minsvn (s.die d).image = .error 3 := by
          rw [hi, verifyImage_genuine hp hg]; exact if_pos hlt
        exact ⟨_, execBootImageVerified_error s d h2 h0 hv, s.failStage_fails d 3⟩
      case verified =>
        have hv : verifyImage d (s.die d).minsvn (some im) = .ok (BitVec.ofNat 32 (imageField im 4 4)) := by
          rw [verifyImage_genuine hp hg]; exact if_neg (Nat.not_lt.2 hle)
        exact execBootImageVerified_ok s d h2 h0 hi hv
    case stage3 =>
      exact ⟨fun hd ht => ⟨_, execBootMemoryReady_fails s d h3 h0 hd ht, s.failStage_fails d 4⟩,
        fun ht => ⟨_, execBootMemoryReady_passes s d h3 h0 ht, by simp, s.peek_memoryReady d⟩⟩
    case stage4 =>
      exact ⟨fun hl => ⟨_, execBootLinksTrained_fails h4 h0 hl, s.failStage_fails d 5⟩, execBootLinksTrained_waits h4 h0,
        s.enableMap_effect d h4 h0, execBootLinksTrained_ready h4 h0⟩
  case services =>
    refine fun s d => ⟨fun nonce hn => ?_, execMinsvnRaiseRequest_raises s d⟩
    obtain ⟨t, hnext, hatt, hout⟩ := execAttestationReport_answers s d nonce hn
    exact ⟨t, hnext, hatt, s.report d nonce, hout, rfl, rfl, rfl, rfl, rfl, rfl, rfl, rfl, rfl, rfl, rfl⟩

end Sys2Proof.Machine
end

section

/-!
Encoding and decoding (R24, R25, R27, R47): each word's fields decode to its instruction, every part of the opcode map encodes back to
the fields it was read from, and from these the statement `EncodeDecodeRoundTrip`.
-/

namespace Sys2Proof.Laws

open Sys2Proof

/-! ### Words and their fields (R24) -/

theorem ofWord_pack (s : Bool) (x : Fields) : Fields.ofWord (x.pack s) = x := by
  obtain ⟨maj, d, a, b, f⟩ := x
  simp only [Fields.ofWord, Fields.pack, Fields.mk.injEq]
  refine ⟨?_, ?_, ?_, ?_, ?_⟩ <;> ext i hi <;>
    simp only [BitVec.getElem_extractLsb', BitVec.getLsbD_append] <;> grind

theorem pack_sync (s : Bool) (x : Fields) : (x.pack s).getLsbD 31 = s := by
  simp only [Fields.pack, BitVec.getLsbD_append]; simp

theorem pack_ofWord (w : W32) : (Fields.ofWord w).pack (w.getLsbD 31) = w := by
  ext i hi
  simp only [Fields.pack, Fields.ofWord]
  grind

theorem bytesWord_wordBytes (w : W32) : bytesWord (wordBytes w) = w :=
  join_append4 (k := 8) (l := 8) (m := 8) (n := 8) w

/-! ### From an instruction word to its fields and back -/

/-- The fields of an instruction word decode to it: `Coding.Statement` of every constructor. -/
theorem dec_fields (i : Instr) : Coding.Statement i := by
  cases i with
  | add => exact Coding.add _ _ _ | sub => exact Coding.sub _ _ _ | and => exact Coding.and _ _ _ | or => exact Coding.or _ _ _
  | xor => exact Coding.xor _ _ _ | andn => exact Coding.andn _ _ _ | min => exact Coding.min _ _ _
  | max => exact Coding.max _ _ _ | minn => exact Coding.minn _ _ _ | maxn => exact Coding.maxn _ _ _
  | addw => exact Coding.addw _ _ _ | subw => exact Coding.subw _ _ _ | shl => exact Coding.shl _ _ _
  | shr => exact Coding.shr _ _ _ | sha => exact Coding.sha _ _ _ | rol => exact Coding.rol _ _ _ | clz => exact Coding.clz _ _
  | ctz => exact Coding.ctz _ _ | popc => exact Coding.popc _ _ | mul => exact Coding.mul _ _ _
  | mulh => exact Coding.mulh _ _ _ | mulhn => exact Coding.mulhn _ _ _ | div => exact Coding.div _ _ _
  | divn => exact Coding.divn _ _ _ | rem => exact Coding.rem _ _ _ | remn => exact Coding.remn _ _ _
  | seq => exact Coding.seq _ _ _ | sne => exact Coding.sne _ _ _ | slt => exact Coding.slt _ _ _
  | sltn => exact Coding.sltn _ _ _ | sle => exact Coding.sle _ _ _ | slen => exact Coding.slen _ _ _
  | addi => exact Coding.addi _ _ _ | ori => exact Coding.ori _ _ _ | xori => exact Coding.xori _ _ _
  | slti => exact Coding.slti _ _ _ | movz => exact Coding.movz _ _ _ | movk => exact Coding.movk _ _ _
  | movn => exact Coding.movn _ _ _ | addpc => exact Coding.addpc _ _ | shadd1 => exact Coding.shadd1 _ _ _
  | shadd2 => exact Coding.shadd2 _ _ _ | shadd3 => exact Coding.shadd3 _ _ _ | shadd4 => exact Coding.shadd4 _ _ _
  | j => exact Coding.j _ | call => exact Coding.call _ | beqz => exact Coding.beqz _ _ | bnez => exact Coding.bnez _ _
  | bltz => exact Coding.bltz _ _ | bgez => exact Coding.bgez _ _ | bgtz => exact Coding.bgtz _ _
  | blez => exact Coding.blez _ _ | jr => exact Coding.jr _ | callr => exact Coding.callr _ _ | loops => exact Coding.loops _ _
  | loopx => exact Coding.loopx | ld => exact Coding.ld _ _ _ _ | ldS32 => exact Coding.ldS32 _ _ _ _
  | st => exact Coding.st _ _ _ _ | stN32 => exact Coding.stN32 _ _ _ _ | ldS8 => exact Coding.ldS8 _ _ _ _
  | ldN8 => exact Coding.ldN8 _ _ _ _ | ldS16 => exact Coding.ldS16 _ _ _ _ | ldN16 => exact Coding.ldN16 _ _ _ _
  | ldN32 => exact Coding.ldN32 _ _ _ _ | ldx => exact Coding.ldx _ _ _ _ | stN8 => exact Coding.stN8 _ _ _ _
  | stN16 => exact Coding.stN16 _ _ _ _ | stx => exact Coding.stx _ _ _ _ | ldAcq => exact Coding.ldAcq _ _ _
  | stRel => exact Coding.stRel _ _ _ | aadd => exact Coding.aadd _ _ _ _ _ _ | aand => exact Coding.aand _ _ _ _ _ _
  | aor => exact Coding.aor _ _ _ _ _ _ | axor => exact Coding.axor _ _ _ _ _ _ | amin => exact Coding.amin _ _ _ _ _ _
  | amax => exact Coding.amax _ _ _ _ _ _ | aswp => exact Coding.aswp _ _ _ _ _ _ | acas => exact Coding.acas _ _ _ _ _ _
  | vaadd => exact Coding.vaadd _ _ _ _ _ _ | vamin => exact Coding.vamin _ _ _ _ _ _ | vamax => exact Coding.vamax _ _ _ _ _ _
  | redadd => exact Coding.redadd _ _ _ _ | redmin => exact Coding.redmin _ _ _ _ | redmax => exact Coding.redmax _ _ _ _
  | fence => exact Coding.fence _ _ _ | bjoin => exact Coding.bjoin _ _ | bleave => exact Coding.bleave _ _
  | barv => exact Coding.barv _ _ _ | bara => exact Coding.bara _ _ _ | bwait => exact Coding.bwait _ _ _
  | rclaim => exact Coding.rclaim _ _ | rclaimt => exact Coding.rclaimt _ _ | rfill => exact Coding.rfill _ _
  | rawait => exact Coding.rawait _ _ _ | rawaitt => exact Coding.rawaitt _ _ _ | rrel => exact Coding.rrel _ _
  | rcfg => exact Coding.rcfg _ _ | rstat => exact Coding.rstat _ _ | spawn => exact Coding.spawn _ _ _ _
  | jdec => exact Coding.jdec _ _ _ | exit => exact Coding.exit _ | yield => exact Coding.yield _ _
  | crec => exact Coding.crec _ _ | jset => exact Coding.jset _ _ _ _ | vadd => exact Coding.vadd _ _ _ _ _
  | vsub => exact Coding.vsub _ _ _ _ _ | vmul => exact Coding.vmul _ _ _ _ _ | vmac => exact Coding.vmac _ _ _ _ _
  | vmin => exact Coding.vmin _ _ _ _ _ | vmax => exact Coding.vmax _ _ _ _ _ | vabs => exact Coding.vabs _ _ _ _
  | vneg => exact Coding.vneg _ _ _ _ | vscale => exact Coding.vscale _ _ _ _ | vexp => exact Coding.vexp _ _ _ _
  | vlog => exact Coding.vlog _ _ _ _ | vrcp => exact Coding.vrcp _ _ _ _ | vrsqrt => exact Coding.vrsqrt _ _ _ _
  | vtanh => exact Coding.vtanh _ _ _ _ | vsigm => exact Coding.vsigm _ _ _ _ | vcvt => exact Coding.vcvt _ _ _ _
  | vcvtz => exact Coding.vcvtz _ _ _ _ | vsum => exact Coding.vsum _ _ _ _ | vrmax => exact Coding.vrmax _ _ _ _
  | vdot => exact Coding.vdot _ _ _ _ | vcmpeq => exact Coding.vcmpeq _ _ _ _ _ | vcmplt => exact Coding.vcmplt _ _ _ _ _
  | vcmple => exact Coding.vcmple _ _ _ _ _ | vsel => exact Coding.vsel _ _ _ _ _ | vand => exact Coding.vand _ _ _ _ _
  | vor => exact Coding.vor _ _ _ _ _ | vxor => exact Coding.vxor _ _ _ _ _ | vshl => exact Coding.vshl _ _ _ _ _
  | vshr => exact Coding.vshr _ _ _ _ _ | vcopy => exact Coding.vcopy _ _ _ _ | vfill => exact Coding.vfill _ _ _ _ _
  | vpred => exact Coding.vpred _ _ _ _ | vfence => exact Coding.vfence _ | vbusy => exact Coding.vbusy _
  | hzcfg => exact Coding.hzcfg _ _ _ _ | hzpsh => exact Coding.hzpsh _ _ _ | hzpshR => exact Coding.hzpshR _ _
  | hzest => exact Coding.hzest _ _ | hzrd => exact Coding.hzrd _ _ _ | hzclr => exact Coding.hzclr _
  | mxcfg => exact Coding.mxcfg _ _ | mxgo => exact Coding.mxgo _ | mxwait => exact Coding.mxwait
  | mxstat => exact Coding.mxstat _ | mxidx => exact Coding.mxidx _ _ | sqp => exact Coding.sqp _
  | sqld => exact Coding.sqld _ _ _ | mxdrain => exact Coding.mxdrain _ _ _ | mxfrz => exact Coding.mxfrz
  | mxthaw => exact Coding.mxthaw | mxprog => exact Coding.mxprog _ | mxclr => exact Coding.mxclr
  | cpy => exact Coding.cpy _ _ _ _ | cpyp => exact Coding.cpyp _ _ _ | cpinv => exact Coding.cpinv _ _
  | cpquie => exact Coding.cpquie _ _ | cpwait => exact Coding.cpwait _ | cpstat => exact Coding.cpstat _ _
  | cpprog => exact Coding.cpprog _ _ | cpnest => exact Coding.cpnest _ _ _ | cpsat => exact Coding.cpsat _ _ _
  | cpsel => exact Coding.cpsel _ _ | lfmt => exact Coding.lfmt _ _ _ | lmcst => exact Coding.lmcst _ _ _
  | ldot => exact Coding.ldot _ _ _ _ | lhzc => exact Coding.lhzc _ | lrsync => exact Coding.lrsync _
  | lsafe => exact Coding.lsafe | lpoll => exact Coding.lpoll _ _ | lclr => exact Coding.lclr | lrtgt => exact Coding.lrtgt _
  | lstat => exact Coding.lstat _ _ | turn => exact Coding.turn _ _ _ | lnkq => exact Coding.lnkq _ _ _
  | getc => exact Coding.getc _ _ | setc => exact Coding.setc _ _ | brk => exact Coding.brk _ | rett => exact Coding.rett
  | csave => exact Coding.csave _ _ | crest => exact Coding.crest _ _ | ckpt => exact Coding.ckpt _
  | wscall => exact Coding.wscall _ _ _ | idle => exact Coding.idle _ | tlbinv => exact Coding.tlbinv _ _
  | fadd => exact Coding.fadd _ _ _ | fsub => exact Coding.fsub _ _ _ | fmul => exact Coding.fmul _ _ _
  | fmac => exact Coding.fmac _ _ _ | fdiv => exact Coding.fdiv _ _ _ | fsqrt => exact Coding.fsqrt _ _
  | fcmp => exact Coding.fcmp _ _ _ _ | fcvt => exact Coding.fcvt _ _ _
  | _ => exact fun h => nomatch h

theorem decode_encode {i : Instr} (s : Bool) (hw : i.isWord = true) (hf : i.wf = true) : decode (encode s i) = some ⟨s, i⟩ := by
  simp only [decode, encode, ofWord_pack, dec_fields i hw, hf, pack_sync, if_true]

theorem decodeTableWord_of_decode {w : W32} {iw : IWord} (h : decode w = some iw) : decodeTableWord 32 w.toNat = some iw.instr := by
  simp [decodeTableWord, bytesWord_wordBytes, h]

/-! ### The codes of R48 to R50, read and written again -/

theorem Sem.to_of (b : BitVec 2) : (Sem.ofBits b).toBits = b := by revert b; decide
theorem AtomType.to_of (b : BitVec 2) : (AtomType.ofBits b).toBits = b := by revert b; decide
@[simp] theorem CvtOp.to_of (b : BitVec 4) : (CvtOp.ofBits b).toBits = b := by revert b; decide
theorem Scope.to_of (b : BitVec 3) : ∀ x ∈ Scope.ofBits b, x.toBits = b := by revert b; decide
theorem ElemType.to_of (b : BitVec 4) : ∀ x ∈ ElemType.ofBits b, x.toBits = b := by revert b; decide
theorem CmpCond.to_of (b : BitVec 4) : ∀ x ∈ CmpCond.ofBits b, x.toBits = b := by revert b; decide

/-! ### From fields that decode to an instruction word -/

/-- What fields decode to, if anything, is an instruction word with those fields. -/
def Encodes (x : Fields) (r : Option Instr) : Prop := ∀ i ∈ r, i.isWord = true ∧ i.fields = x

@[simp] theorem encodes_none (x : Fields) : Encodes x none := by simp [Encodes]

@[simp] theorem encodes_some (x : Fields) (i : Instr) : Encodes x (some i) ↔ i.isWord = true ∧ i.fields = x := by simp [Encodes]

@[simp] theorem encodes_only (x : Fields) (p : Bool) (i : Instr) :
    Encodes x (only p i) ↔ (p = true → i.isWord = true ∧ i.fields = x) := by
  cases p <;> simp [Encodes, only]

theorem encodes_map {α : Type} {x : Fields} {r : Option α} {f : α → Instr}
    (h : ∀ y ∈ r, (f y).isWord = true ∧ (f y).fields = x) :
    Encodes x (r.map f) := by
  cases r with
  | none => exact encodes_none x
  | some y => exact (encodes_some x _).2 (h y rfl)

/-- The fields that an instruction word has encode. -/
theorem encodes_fields {i : Instr} (h : i.isWord = true) : Encodes i.fields (dec i.fields) := by
  rw [dec_fields i h, encodes_some]
  exact ⟨h, rfl⟩

@[simp] theorem opq_toNat (op : BitVec 6) (q : BitVec 4) : (opq op q).toNat = op.toNat <<< 4 ||| q.toNat := BitVec.toNat_append op q

@[simp] theorem bar_toNat (op : BitVec 3) (k : BitVec 7) : BitVec.toNat (w := 10) (op ++ k) = op.toNat <<< 7 ||| k.toNat :=
  BitVec.toNat_append op k

@[simp] theorem ring_toNat (op : BitVec 4) (k : BitVec 6) : BitVec.toNat (w := 10) (op ++ k) = op.toNat <<< 6 ||| k.toNat :=
  BitVec.toNat_append op k

theorem eq_ofNat {w n : Nat} {x : BitVec w} (h : x.toNat = n) : x = BitVec.ofNat w n := by
  rw [← h, BitVec.ofNat_toNat, BitVec.setWidth_eq]

/-! Formats that fill the fields of R completely -/

theorem opq_surj (f : BitVec 10) : ∃ op q, f = opq op q := ⟨_, _, (join_append (m := 6) (n := 4) f).symm⟩

theorem imm15_surj (b : BitVec 5) (f : BitVec 10) : ∃ i, b = immB i ∧ f = immF i :=
  ⟨b ++ f, (hi_append b f).symm, (lo_append b f).symm⟩

theorem imm16_surj (a b : BitVec 5) (f : BitVec 10) : ∃ f4 i, a = f4A f4 i ∧ b = half16B i ∧ f = half16F i := by
  refine ⟨a.extractLsb' 1 4, a.extractLsb' 0 1 ++ b ++ f, ?_, ?_, ?_⟩ <;> ext i hi <;> simp [f4A, half16B, half16F] <;> grind

theorem off25_surj (d a b : BitVec 5) (f : BitVec 10) : ∃ i, d = offD i ∧ a = offA i ∧ b = offB i ∧ f = offF i := by
  refine ⟨d ++ a ++ b ++ f, ?_, ?_, ?_, ?_⟩ <;> ext i hi <;> simp [offD, offA, offB, offF] <;> grind

theorem imm11_surj (b : BitVec 5) (f : BitVec 10) : ∃ o i, b = memB o i ∧ f = memF i := by
  refine ⟨b.extractLsb' 1 4, b.extractLsb' 0 1 ++ f, ?_, ?_⟩ <;> ext i hi <;> simp [memB, memF] <;> grind

theorem cregB_join {b : BitVec 5} {f : BitVec 10} (h : b.extractLsb' 2 3 = 0) : cregB (b.extractLsb' 0 2 ++ f) = b := by
  rw [cregB, hi_append (m := 2) (n := 10), ← show b.extractLsb' 2 3 = 0#3 from h]
  exact join_append (m := 3) (n := 2) b

theorem cregF_join (x : BitVec 2) (f : BitVec 10) : cregF (x ++ f) = f := lo_append x f

theorem atom_surj (f : BitVec 10) : ∃ (sem : Sem) (w : Bool) (k : BitVec 3) (o : BitVec 4),
    f = sem.toBits ++ BitVec.ofBool w ++ k ++ o := by
  refine ⟨Sem.ofBits (f.extractLsb' 8 2), f.getLsbD 7, f.extractLsb' 4 3, f.extractLsb' 0 4, ?_⟩
  rw [Sem.to_of]
  ext i hi; grind

theorem vatom_surj (f : BitVec 10) : ∃ (m k : BitVec 2) (t : AtomType) (o : BitVec 4), f = m ++ k ++ t.toBits ++ o :=
  ⟨_, _, AtomType.ofBits (f.extractLsb' 4 2), _, by
    rw [AtomType.to_of]
    exact (join_append4 (k := 2) (l := 2) (m := 2) (n := 4) f).symm⟩

theorem top_surj (d : BitVec 5) : ∃ (i : Bool) (o : Cls), d = BitVec.ofBool i ++ o := by
  refine ⟨d.getLsbD 4, d.extractLsb' 0 4, ?_⟩
  ext j hj; grind

/-! One lemma for each group of majors -/

section
variable (maj op : BitVec 6) (d a b : Reg) (q : BitVec 4) (f : BitVec 10)

theorem decInt_encodes : Encodes ⟨maj, d, a, b, opq op 0⟩ (decInt maj.toNat op.toNat d a b) := by
  unfold decInt
  split <;> simp_all [Instr.isWord, Instr.fields, BitVec.toNat_eq]

theorem decJump_encodes : Encodes ⟨0x0F, d, a, b, opq op 0⟩ (decJump op.toNat d a b) := by
  unfold decJump
  split <;> simp_all [Instr.isWord, Instr.fields, BitVec.toNat_eq]

theorem decMem_encodes : Encodes ⟨maj, d, a, b, opq op q⟩ (decMem maj.toNat op.toNat d a b q) := by
  unfold decMem
  split <;> simp_all [Instr.isWord, Instr.fields, BitVec.toNat_eq]

theorem decCont_encodes : Encodes ⟨0x1E, d, a, b, opq op q⟩ (decCont op.toNat d a b q) := by
  unfold decCont
  split <;> simp_all [Instr.isWord, Instr.fields, BitVec.toNat_eq]

theorem decMx_encodes : Encodes ⟨0x28, d, a, b, opq op q⟩ (decMx op.toNat d a b q) := by
  unfold decMx
  split <;> simp_all [Instr.isWord, Instr.fields, BitVec.toNat_eq]

theorem decCopy_encodes : Encodes ⟨0x2E, d, a, b, opq op q⟩ (decCopy op.toNat d a b q) := by
  unfold decCopy
  split <;> simp_all [Instr.isWord, Instr.fields, BitVec.toNat_eq]

theorem decLane_encodes : Encodes ⟨0x32, d, a, b, opq op q⟩ (decLane op.toNat d a b q) := by
  unfold decLane
  split <;> simp_all [Instr.isWord, Instr.fields, BitVec.toNat_eq]

theorem decSys_encodes : Encodes ⟨0x3A, d, a, b, opq op 0⟩ (decSys op.toNat d a b) := by
  unfold decSys
  split <;> simp_all [Instr.isWord, Instr.fields, BitVec.toNat_eq]

theorem decMov_encodes : Encodes ⟨0x08, d, a, b, f⟩ (dec ⟨0x08, d, a, b, f⟩) := by
  obtain ⟨f4, i, rfl, rfl, rfl⟩ := imm16_surj a b f
  obtain ⟨k, q, rfl⟩ : ∃ k q : BitVec 2, f4 = k ++ q := ⟨_, _, (join_append (m := 2) (n := 2) f4).symm⟩
  rw [Coding.dec_mov, hi_append (m := 2) (n := 2), lo_append (m := 2) (n := 2)]
  split
  iterate 3 next h => obtain rfl := eq_ofNat h; exact (encodes_some _ _).2 ⟨rfl, rfl⟩
  exact encodes_none _

theorem decBranch_encodes : Encodes ⟨0x0E, d, a, b, f⟩ (dec ⟨0x0E, d, a, b, f⟩) := by
  obtain ⟨f4, i, rfl, rfl, rfl⟩ := imm16_surj a b f
  rw [Coding.dec_branch]
  split
  iterate 6 next h => obtain rfl := eq_ofNat h; exact (encodes_some _ _).2 ⟨rfl, rfl⟩
  exact encodes_none _

theorem decAtom_encodes : Encodes ⟨0x16, d, a, b, f⟩ (dec ⟨0x16, d, a, b, f⟩) := by
  obtain ⟨sem, w, k, o, rfl⟩ := atom_surj f
  have hk : k = 0 ∨ k = 1 ∨ k = 2 ∨ k = 3 ∨ k = 4 ∨ k = 5 ∨ k = 6 ∨ k = 7 := by revert k; decide
  rw [Coding.dec_atom]
  rcases hk with rfl | rfl | rfl | rfl | rfl | rfl | rfl | rfl <;> exact (encodes_some _ _).2 ⟨rfl, rfl⟩

theorem decVatom_encodes : Encodes ⟨0x17, d, a, b, f⟩ (dec ⟨0x17, d, a, b, f⟩) := by
  obtain ⟨m, k, t, o, rfl⟩ := vatom_surj f
  rw [← Sem.to_of m, Coding.dec_vatom]
  split
  iterate 3 next h => obtain rfl := eq_ofNat h; exact (encodes_some _ _).2 ⟨rfl, rfl⟩
  exact encodes_none _

theorem decRed_encodes : Encodes ⟨0x18, d, a, b, f⟩ (decRed ⟨0x18, d, a, b, f⟩) := by
  by_cases hz : d = 0 ∧ f.extractLsb' 8 2 = 0
  · obtain ⟨rfl, h0⟩ := hz
    obtain ⟨m, k, t, o, rfl⟩ := vatom_surj f
    obtain rfl : m = 0 := h0 ▸ (by ext i hi; grind)
    show Encodes _ (dec ⟨0x18, 0, a, b, 0#2 ++ k ++ t.toBits ++ o⟩)
    rw [Coding.dec_red]
    split
    iterate 3 next h => obtain rfl := eq_ofNat h; exact (encodes_some _ _).2 ⟨rfl, rfl⟩
    exact encodes_none _
  · have hn : (d == 0 && f.extractLsb' 8 2 == 0) = false := by simpa using hz
    simp only [decRed, hn]
    split <;> simp

theorem decFence_encodes : Encodes ⟨0x1A, d, a, b, f⟩ (decFence ⟨0x1A, d, a, b, f⟩) := by
  obtain ⟨f4, i, rfl, rfl, rfl⟩ := imm16_surj a b f
  obtain ⟨p, c, rfl⟩ : ∃ (p : BitVec 1) (c : BitVec 3), f4 = p ++ c := ⟨_, _, (join_append (m := 1) (n := 3) f4).symm⟩
  simp only [decFence, f4_eq, imm16_eq, hi_append (m := 1) (n := 3), lo_append (m := 1) (n := 3)]
  refine encodes_map fun sc h => ⟨rfl, ?_⟩
  rw [Instr.fields, hi_append p d, lo_append p d, Scope.to_of c sc h]

theorem decBar_encodes : Encodes ⟨0x1B, d, a, b, f⟩ (dec ⟨0x1B, d, a, b, f⟩) := by
  obtain ⟨op, k, rfl⟩ : ∃ (op : BitVec 3) (k : BitVec 7), f = op ++ k := ⟨_, _, (join_append (m := 3) (n := 7) f).symm⟩
  rw [Coding.dec_bar]
  split <;> simp_all [Instr.isWord, Instr.fields, BitVec.toNat_eq]

theorem decRing_encodes (h : maj = 0x1C ∨ maj = 0x1D) : Encodes ⟨maj, d, a, b, f⟩ (dec ⟨maj, d, a, b, f⟩) := by
  obtain ⟨op, k, rfl⟩ : ∃ (op : BitVec 4) (k : BitVec 6), f = op ++ k := ⟨_, _, (join_append (m := 4) (n := 6) f).symm⟩
  rcases h with rfl | rfl
  · rw [Coding.dec_0x1c]
    split <;> simp_all [Instr.isWord, Instr.fields, BitVec.toNat_eq]
  · rw [Coding.dec_0x1d]
    split <;> simp_all [Instr.isWord, Instr.fields, BitVec.toNat_eq]

theorem decVecT_encodes (i : Bool) (o : Cls) (t : ElemType) :
    Encodes ⟨maj, BitVec.ofBool i ++ o, a, b, opq op t.toBits⟩ (decVecT maj.toNat op.toNat i o a b t) := by
  unfold decVecT
  split <;> simp_all [Instr.isWord, Instr.fields, BitVec.toNat_eq]

theorem decVec_encodes : Encodes ⟨maj, d, a, b, f⟩ (decVec maj.toNat ⟨maj, d, a, b, f⟩) := by
  obtain ⟨op, q, rfl⟩ := opq_surj f
  obtain ⟨i, o, rfl⟩ := top_surj d
  simp only [decVec, opq_op, opq_q, Coding.top_ofBool, Coding.low_ofBool]
  split
  · simp_all [Instr.isWord, Instr.fields, BitVec.toNat_eq]
  · split
    · simp_all [Instr.isWord, Instr.fields, BitVec.toNat_eq]
    · cases h : ElemType.ofBits q with
      | none => exact encodes_none _
      | some t =>
        rw [← ElemType.to_of q t h]
        exact decVecT_encodes maj op a b i o t

theorem decHz_encodes : Encodes ⟨0x26, d, a, b, opq op q⟩ (decHz op.toNat d a b q) := by
  obtain ⟨i, o, rfl⟩ := top_surj d
  simp only [decHz, Coding.top_ofBool, Coding.low_ofBool]
  cases i <;> split <;> simp_all [Instr.isWord, Instr.fields, BitVec.toNat_eq]

theorem decFp_encodes : Encodes ⟨0x3C, d, a, b, opq op q⟩ (decFp op.toNat d a b q) := by
  unfold decFp
  split
  case h_7 h =>
    obtain rfl := eq_ofNat h
    exact encodes_map fun cc hc => ⟨rfl, by rw [Instr.fields, CmpCond.to_of q cc hc]; rfl⟩
  all_goals simp_all [Instr.isWord, Instr.fields, BitVec.toNat_eq]

theorem decLink_encodes : Encodes ⟨0x37, d, a, b, f⟩ (dec ⟨0x37, d, a, b, f⟩) := by
  obtain ⟨op, q, rfl⟩ := opq_surj f
  by_cases hq : q = 0
  · subst hq
    rw [Coding.dec_link]
    split <;> simp_all [Instr.isWord, Instr.fields, BitVec.toNat_eq]
  · have hn : dec ⟨0x37, d, a, b, opq op q⟩ = none := by
      have h0 : ((Fields.mk 0x37 d a b (opq op q)).q == 0) = false := by rw [opq_q]; simpa using hq
      exact if_neg (by rw [h0]; decide)
    rw [hn]; exact encodes_none _

theorem decAddpc_encodes : Encodes ⟨0x09, d, a, b, f⟩ (dec ⟨0x09, d, a, b, f⟩) := by
  obtain ⟨i, rfl, rfl⟩ := imm15_surj b f
  refine (encodes_only _ _ _).2 fun h => ?_
  obtain rfl : a = 0 := beq_iff_eq.1 h
  exact ⟨rfl, by rw [Instr.fields, imm15_eq]⟩

theorem decCreg_encodes : Encodes ⟨0x38, d, a, b, f⟩ (dec ⟨0x38, d, a, b, f⟩) ∧
    Encodes ⟨0x39, d, a, b, f⟩ (dec ⟨0x39, d, a, b, f⟩) := by
  constructor
  · refine (encodes_only _ _ _).2 fun h => ?_
    simp only [Bool.and_eq_true, beq_iff_eq] at h
    obtain ⟨rfl, hb⟩ := h
    exact ⟨rfl, by rw [Instr.fields, cregB_join hb, cregF_join]⟩
  · refine (encodes_only _ _ _).2 fun h => ?_
    simp only [Bool.and_eq_true, beq_iff_eq] at h
    obtain ⟨rfl, hb⟩ := h
    exact ⟨rfl, by rw [Instr.fields, cregB_join hb, cregF_join]⟩

variable {maj d a b}

/-- An R-format group whose Q is an operand. -/
theorem encodes_q (r : Nat → BitVec 4 → Option Instr) (h : ∀ op q, Encodes ⟨maj, d, a, b, opq op q⟩ (r op.toNat q)) :
    Encodes ⟨maj, d, a, b, f⟩ (r (Fields.mk maj d a b f).op (Fields.mk maj d a b f).q) := by
  obtain ⟨op, q, rfl⟩ := opq_surj f
  rw [opq_op, opq_q]
  exact h op q

/-- An R-format group whose Q is zero. -/
theorem encodes_q0 (r : Nat → Option Instr) (h : ∀ op, Encodes ⟨maj, d, a, b, opq op 0⟩ (r op.toNat)) :
    Encodes ⟨maj, d, a, b, f⟩ (if (Fields.mk maj d a b f).q == 0 then r (Fields.mk maj d a b f).op else none) := by
  refine encodes_q f (fun op q => if q == 0 then r op else none) fun op q => ?_
  by_cases hq : q = 0
  · subst hq; exact h op
  · rw [if_neg (by simpa using hq)]; exact encodes_none _

end

/-- What decodes encodes to the fields it was read from (R27): the opcode map, major by major (R47). -/
theorem dec_encodes (x : Fields) : Encodes x (dec x) := by
  obtain ⟨maj, d, a, b, f⟩ := x
  obtain ⟨i15, hb15, hf15⟩ := imm15_surj b f
  obtain ⟨i25, hd25, ha25, hb25, hf25⟩ := off25_surj d a b f
  obtain ⟨o, i11, hb11, hf11⟩ := imm11_surj b f
  unfold dec
  split
  case h_1 h => obtain rfl := eq_ofNat h; exact encodes_q0 f (decInt 0x01 · d a b) fun op => decInt_encodes 0x01 op d a b
  case h_2 h => obtain rfl := eq_ofNat h; exact encodes_q0 f (decInt 0x02 · d a b) fun op => decInt_encodes 0x02 op d a b
  case h_3 h => obtain rfl := eq_ofNat h; exact encodes_q0 f (decInt 0x03 · d a b) fun op => decInt_encodes 0x03 op d a b
  case h_4 h => obtain rfl := eq_ofNat h; exact encodes_q0 f (decInt 0x04 · d a b) fun op => decInt_encodes 0x04 op d a b
  case h_5 h => obtain rfl := eq_ofNat h; subst hb15 hf15; exact encodes_fields (i := .addi d a i15) rfl
  case h_6 h => obtain rfl := eq_ofNat h; subst hb15 hf15; exact encodes_fields (i := .ori d a i15) rfl
  case h_7 h => obtain rfl := eq_ofNat h; subst hb15 hf15; exact encodes_fields (i := .xori d a i15) rfl
  case h_8 h => obtain rfl := eq_ofNat h; exact decMov_encodes d a b f
  case h_9 h => obtain rfl := eq_ofNat h; exact decAddpc_encodes d a b f
  case h_10 h => obtain rfl := eq_ofNat h; exact encodes_q0 f (decInt 0x0A · d a b) fun op => decInt_encodes 0x0A op d a b
  case h_11 h => obtain rfl := eq_ofNat h; subst hb15 hf15; exact encodes_fields (i := .slti d a i15) rfl
  case h_12 h => obtain rfl := eq_ofNat h; subst hd25 ha25 hb25 hf25; exact encodes_fields (i := .j i25) rfl
  case h_13 h => obtain rfl := eq_ofNat h; subst hd25 ha25 hb25 hf25; exact encodes_fields (i := .call i25) rfl
  case h_14 h => obtain rfl := eq_ofNat h; exact decBranch_encodes d a b f
  case h_15 h => obtain rfl := eq_ofNat h; exact encodes_q0 f (decJump · d a b) fun op => decJump_encodes op d a b
  case h_16 h => obtain rfl := eq_ofNat h; subst hb11 hf11; exact encodes_fields (i := .ld d a i11 o) rfl
  case h_17 h => obtain rfl := eq_ofNat h; subst hb11 hf11; exact encodes_fields (i := .ldS32 d a i11 o) rfl
  case h_18 h => obtain rfl := eq_ofNat h; subst hb11 hf11; exact encodes_fields (i := .st d a i11 o) rfl
  case h_19 h => obtain rfl := eq_ofNat h; subst hb11 hf11; exact encodes_fields (i := .stN32 d a i11 o) rfl
  case h_20 h => obtain rfl := eq_ofNat h; exact encodes_q f (decMem 0x14 · d a b) fun op q => decMem_encodes 0x14 op d a b q
  case h_21 h => obtain rfl := eq_ofNat h; exact encodes_q f (decMem 0x15 · d a b) fun op q => decMem_encodes 0x15 op d a b q
  case h_22 h => obtain rfl := eq_ofNat h; exact decAtom_encodes d a b f
  case h_23 h => obtain rfl := eq_ofNat h; exact decVatom_encodes d a b f
  case h_24 h => obtain rfl := eq_ofNat h; exact decRed_encodes d a b f
  case h_25 h => obtain rfl := eq_ofNat h; exact decFence_encodes d a b f
  case h_26 h => obtain rfl := eq_ofNat h; exact decBar_encodes d a b f
  case h_27 h => obtain rfl := eq_ofNat h; exact decRing_encodes 0x1C d a b f (.inl rfl)
  case h_28 h => obtain rfl := eq_ofNat h; exact decRing_encodes 0x1D d a b f (.inr rfl)
  case h_29 h => obtain rfl := eq_ofNat h; exact encodes_q f (decCont · d a b) fun op q => decCont_encodes op d a b q
  case h_30 h => obtain rfl := eq_ofNat h; exact decVec_encodes 0x20 d a b f
  case h_31 h => obtain rfl := eq_ofNat h; exact decVec_encodes 0x21 d a b f
  case h_32 h => obtain rfl := eq_ofNat h; exact decVec_encodes 0x22 d a b f
  case h_33 h => obtain rfl := eq_ofNat h; exact decVec_encodes 0x23 d a b f
  case h_34 h => obtain rfl := eq_ofNat h; exact decVec_encodes 0x24 d a b f
  case h_35 h => obtain rfl := eq_ofNat h; exact encodes_q f (decHz · d a b) fun op q => decHz_encodes op d a b q
  case h_36 h => obtain rfl := eq_ofNat h; exact encodes_q f (decMx · d a b) fun op q => decMx_encodes op d a b q
  case h_37 h => obtain rfl := eq_ofNat h; exact encodes_q f (decCopy · d a b) fun op q => decCopy_encodes op d a b q
  case h_38 h => obtain rfl := eq_ofNat h; exact encodes_q f (decLane · d a b) fun op q => decLane_encodes op d a b q
  case h_39 h => obtain rfl := eq_ofNat h; exact decLink_encodes d a b f
  case h_40 h => obtain rfl := eq_ofNat h; exact (decCreg_encodes d a b f).1
  case h_41 h => obtain rfl := eq_ofNat h; exact (decCreg_encodes d a b f).2
  case h_42 h => obtain rfl := eq_ofNat h; exact encodes_q0 f (decSys · d a b) fun op => decSys_encodes op d a b
  case h_43 h => obtain rfl := eq_ofNat h; exact encodes_q f (decFp · d a b) fun op q => decFp_encodes op d a b q
  case h_44 => exact encodes_none _

theorem encode_decode {w : W32} {iw : IWord} (h : decode w = some iw) :
    iw.instr.isWord = true ∧ iw.instr.wf = true ∧ encode iw.sync iw.instr = w := by
  unfold decode at h
  split at h
  case h_2 => nomatch h
  case h_1 i hi =>
    obtain ⟨hword, hfields⟩ := dec_encodes (Fields.ofWord w) i hi
    split at h
    case isFalse => nomatch h
    case isTrue hwf =>
      obtain rfl := Option.some.inj h
      exact ⟨hword, hwf, by rw [encode, hfields, pack_ofWord]⟩

/-- Settles O57: each way by the opcode map, major by major, and the packing of fields into words. -/
theorem encodeDecodeRoundTrip : Obligations.EncodeDecodeRoundTrip := by
  unfold Obligations.EncodeDecodeRoundTrip
  refine ⟨fun i sync hw hf => ?_, fun w iw h => encode_decode h, bytesWord_wordBytes⟩
  have h := decode_encode sync hw hf
  exact ⟨h, decodeTableWord_of_decode h⟩

end Sys2Proof.Laws
end

section
/-!
SUPPORT. Traps: what a synchronous cause in user mode saves, and that nothing but its cluster changes (R45, R326).
-/

namespace Sys2Proof.Machine

theorem Cause.code_lt (k : Cause) : k.code < 32 := by cases k <;> decide

theorem flagNat_lt (b : Bool) : flagNat b < 2 := by cases b <;> decide

/-- TCAUSE as a number: its four fields do not overlap (R45). -/
theorem causeWord_toNat (async bund : Bool) (path : Nat) (k : Cause) (h : path < 8) :
    (causeWord async bund path k).toNat = flagNat async * 2 ^ 15 + flagNat bund * 2 ^ 14 + path * 2 ^ 8 + k.code := by
  have hk := k.code_lt
  have ha := flagNat_lt async
  have hb := flagNat_lt bund
  simp only [causeWord, packWord, packNat, word, List.foldl, Nat.shiftLeft_eq, BitVec.toNat_ofNat]
  omega

section
variable (async bund : Bool) {path : Nat} (k : Cause) (h : path < 8)
include h

theorem bits_causeWord_cause : bits (causeWord async bund path k) 0 5 = k.code := by
  have hk := k.code_lt
  rw [bits, nbits, causeWord_toNat async bund path k h, Nat.shiftRight_zero]
  omega

theorem bits_causeWord_path : bits (causeWord async bund path k) 8 3 = path := by
  have hk := k.code_lt
  rw [bits, nbits, causeWord_toNat async bund path k h, Nat.shiftRight_eq_div_pow]
  omega

theorem bit_causeWord_async : bit (causeWord async bund path k) 15 = async := by
  have hk := k.code_lt
  have hb := flagNat_lt bund
  rw [bit, BitVec.getLsbD, Nat.testBit_eq_decide_div_mod_eq, causeWord_toNat async bund path k h]
  cases async
  · simp only [flagNat, Bool.false_eq_true, if_false, decide_eq_false_iff_not] at hb ⊢
    omega
  · simp only [flagNat, if_true, decide_eq_true_eq] at hb ⊢
    omega

theorem bit_causeWord_bund : bit (causeWord async bund path k) 14 = bund := by
  have hk := k.code_lt
  rw [bit, BitVec.getLsbD, Nat.testBit_eq_decide_div_mod_eq, causeWord_toNat async bund path k h]
  cases bund
  · simp only [flagNat, Bool.false_eq_true, if_false, decide_eq_false_iff_not]
    omega
  · simp only [flagNat, if_true, decide_eq_true_eq]
    omega

/-- Trap entry at a trap point that is the cluster's own PC (R326). -/
theorem Cluster.enterTrap_took (c : Cluster) (secure late : Bool) (tval : Word) (hp : c.trapPoint async = (c.pc, c.loops)) :
    c.TookTrap (c.enterTrap secure async bund late path k tval) secure async bund path k where
  cause := bits_causeWord_cause async bund k h
  path := bits_causeWord_path async bund k h
  async := bit_causeWord_async async bund k h
  bund := bit_causeWord_bund async bund k h
  epc := by simp [Cluster.enterTrap, hp]
  pmode := by cases hm : c.mode <;> simp [Cluster.enterTrap, hm]
  pworld := rfl
  mode := rfl
  pc := rfl
  regs := rfl
  bank := rfl
  loops := by simp [Cluster.enterTrap, hp]
  thvec := rfl
  fpflg := rfl
  fpxen := rfl
  record := rfl
  pend := rfl

end

/-- In user mode a cause is entered, and stops no cluster (R327). -/
theorem State.takeTrap_user {s : State} {c : CluIx} (hm : (s.cluster c).mode = .user) (async bund late : Bool) (path : Nat)
    (cause : Cause) (tval : Word) : s.takeTrap c async bund late path cause tval =
      s.setCluster c ((s.cluster c).enterTrap (s.core (coreOf c)).secure async bund late path cause tval) := by
  unfold State.takeTrap
  rw [if_neg (by simp [hm])]

/-- A synchronous cause in user mode (R326). -/
theorem State.trap_trapped {s : State} (hm : s.me.mode = .user) (cause : Cause) (tval : Word) {path : Nat} (hp : path < 8) :
    s.Trapped (s.trap cause tval path) cause tval path := by
  have e : s.trap cause tval path = { s.setCluster s.focus
      (s.me.enterTrap s.myCore.secure false s.bundling false path cause tval) with note := .trapped } := by
    unfold State.trap
    rw [State.takeTrap_user (c := s.focus) hm]
    rfl
  have hme : (s.trap cause tval path).me = s.me.enterTrap s.myCore.secure false s.bundling false path cause tval := by
    rw [e]
    exact s.cluster_setCluster s.focus _
  refine ⟨hme ▸ s.me.enterTrap_took false s.bundling cause hp _ _ _ rfl, hme ▸ rfl, ?_, ?_⟩
  · rw [hme, e]
  · rw [e]
    exact fun l => State.peek_congr rfl rfl rfl rfl l 1

/-- A cause in user mode for which the manual gives no value (R326; log 6). -/
theorem State.trapFree_trapped {s : State} (hm : s.me.mode = .user) (cause : Cause) {path : Nat} (hp : path < 8) :
    ({ s with freeCtr := s.freeCtr + 1 } : State).Trapped (s.trapFree cause path) cause (Config.freeWord s.freeCtr) path :=
  State.trap_trapped (s := { s with freeCtr := s.freeCtr + 1 }) hm cause _ hp

end Sys2Proof.Machine
end

section
/-!
O5: jumps, calls and branches.  Each word ends in `jump`, in a link followed by `jump`, or in `advance`, whose effects are known; what
is left is that the targets and tests of the model are those of R26, R73 and R74.
-/

namespace Sys2Proof.Machine

theorem bits_zero_two (v : Word) : bits v 0 2 = v.toNat % 4 := by
  simp [bits, nbits]

/-- The target of a relative transfer as a number (R26). -/
theorem relTarget_eq {n : Nat} (pc : PC) (k : BitVec n) : relTarget pc k = BitVec.ofInt 18 ((pc.toNat : Int) + 4 * k.toInt) := by
  rw [BitVec.ofInt_add, BitVec.ofInt_mul, BitVec.ofInt_natCast, BitVec.ofNat_toNat, BitVec.setWidth_eq]
  rfl

/-- The link as a number (R26). -/
theorem linkOf_eq (pc : PC) : linkOf pc = word ((pc.toNat + 4) % 2 ^ 18) := by
  apply BitVec.eq_of_toNat_eq
  simp [linkOf, word]

theorem regTarget_eq (v : Word) : regTarget v = BitVec.ofNat 18 v.toNat := rfl

/-- A conditional branch goes to its target or falls through (R73, R77). -/
theorem State.branch_goes (s : State) {taken : Bool} {p : Prop} (h : taken = true ↔ p) (k : BitVec 16) :
    ∃ t, s.branch taken k = .next t ∧
      (p → s.Went t 0 0 (BitVec.ofInt 18 ((s.me.pc.toNat : Int) + 4 * k.toInt))) ∧ (¬p → s.Passed t) := by
  refine ⟨_, rfl, fun hp => ?_, fun hp => ?_⟩
  · rw [if_pos (h.2 hp), relTarget_eq]
    exact s.jump_went _
  · rw [if_neg fun e => hp (h.1 e)]
    exact s.advance_passed

theorem eq_zero_iff_toInt (v : Word) : v = 0 ↔ v.toInt = 0 := by
  rw [← BitVec.toInt_inj]
  rfl

theorem slt_zero_iff (v : Word) : v.slt 0 = true ↔ v.toInt < 0 := by
  simp [BitVec.slt]

theorem zero_slt_iff (v : Word) : (0 : Word).slt v = true ↔ 0 < v.toInt := by
  simp [BitVec.slt]

/-- Settles O5: each transfer is a jump, a link with a jump, or a branch, whose targets and tests the lemmas above give. -/
theorem controlTransfers : Obligations.ControlTransfers := by
  unfold Obligations.ControlTransfers
  intro s d a j k
  refine ⟨⟨_, rfl, ?_⟩, ⟨_, rfl, ?_⟩, fun h => ⟨_, rfl, ?_⟩, fun h => ⟨_, rfl, ?_⟩, ?_⟩
  · rw [relTarget_eq]
    exact s.jump_went _
  · rw [relTarget_eq, linkOf_eq]
    exact s.link_went 31 _ _
  · rw [if_neg (by simp [bits_zero_two, h])]
    exact s.jump_went _
  · rw [if_neg (by simp [bits_zero_two, h]), linkOf_eq]
    exact s.link_went d _ _
  · simp only [List.forall_mem_cons, List.not_mem_nil, false_implies, implies_true, and_true]
    have hz := eq_zero_iff_toInt (s.g d)
    have hn := slt_zero_iff (s.g d)
    have hp := zero_slt_iff (s.g d)
    exact ⟨s.branch_goes (by rw [beq_iff_eq]; exact hz) k, s.branch_goes (by rw [bne_iff_ne]; exact hz.not) k,
      s.branch_goes hn k, s.branch_goes (by rw [Bool.not_eq_true', ← Bool.not_eq_true, hn, not_lt]) k,
      s.branch_goes hp k, s.branch_goes (by rw [Bool.not_eq_true', ← Bool.not_eq_true, hp, not_lt]) k⟩

end Sys2Proof.Machine
end

section
/-!
O32: the words of a unit that the die of the core does not have.
-/

namespace Sys2Proof.Machine

/-- AUT in user mode, with the model's free value (R28; log 6). -/
theorem State.trapFree_aut {s : State} (hm : s.me.mode = .user) : ∃ t tval, (.next (s.trapFree .aut) : Result) = .next t ∧
    ({ s with freeCtr := s.freeCtr + 1 } : State).Trapped t .aut tval 7 :=
  ⟨_, _, rfl, State.trapFree_trapped hm .aut (by decide)⟩

theorem State.onMatrix_stack {s : State} (h : isHub s.myDieIx = false) (act : State) :
    s.onMatrix act = .next (s.trapFree .aut) := by
  simp [State.onMatrix, h]

theorem State.onLanes_hub {s : State} (h : isHub s.myDieIx = true) (act : State) :
    s.onLanes act = .next (s.trapFree .aut) := by
  simp [State.onLanes, h]

/-- LMCST looks at the lanes' barred sectors on a stack core alone, so that on a hub core it is AUT like the others. -/
theorem execLmcst_hub {s : State} (h : isHub s.myDieIx = true) (a b : Reg) (o : Cls) :
    exec (.lmcst a b o) s = .next (s.trapFree .aut) := by
  change execLmcst a b o s = _
  simp only [execLmcst, h, if_true]
  exact State.onLanes_hub h _

/-- Settles O32: every matrix word is `onMatrix` of what it does, and every lane word `onLanes`. -/
theorem absentUnitsRaiseAut : Obligations.AbsentUnitsRaiseAut := by
  unfold Obligations.AbsentUnitsRaiseAut
  intro s d a b o hm
  refine ⟨fun hd => ?_, fun hd => ?_⟩
  · have aut : ∀ act, ∃ t tval, s.onMatrix act = .next t ∧
        ({ s with freeCtr := s.freeCtr + 1 } : State).Trapped t .aut tval 7 := fun act =>
      State.onMatrix_stack hd act ▸ State.trapFree_aut hm
    simp only [List.forall_mem_cons, List.not_mem_nil, false_implies, implies_true, and_true]
    exact ⟨aut _, aut _, aut _, aut _, aut _, aut _, aut _, aut _, aut _, aut _, aut _, aut _⟩
  · have aut : ∀ act, ∃ t tval, s.onLanes act = .next t ∧
        ({ s with freeCtr := s.freeCtr + 1 } : State).Trapped t .aut tval 7 := fun act =>
      State.onLanes_hub hd act ▸ State.trapFree_aut hm
    simp only [List.forall_mem_cons, List.not_mem_nil, false_implies, implies_true, and_true]
    exact ⟨aut _, execLmcst_hub hd a b o ▸ State.trapFree_aut hm, aut _, aut _, aut _, aut _, aut _, aut _, aut _, aut _⟩

end Sys2Proof.Machine
end

section
/-!
O40: trap entry by BRK, return by RETT, and the causes that come between words.
-/

namespace Sys2Proof.Machine

/-- With no FENCE that waits, the trap point is the PC (R45, R218). -/
theorem Cluster.trapPoint_of_fences {c : Cluster} (h : c.fences = []) (async : Bool) : c.trapPoint async = (c.pc, c.loops) := by
  cases async <;> simp [Cluster.trapPoint, h]

/-- A pending cause of a cluster in user mode is taken: the cluster without it enters the trap (R52, R326). -/
theorem State.takeAsync_user {s : State} {c : CluIx} (hm : (s.cluster c).mode = .user) (p : Pend) :
    s.takeAsync c p = s.setCluster c (({ s.cluster c with
      pend := (s.cluster c).pend.filter fun q => q.cause != p.cause
      saver := (s.cluster c).saver || p.cause == .pre } : Cluster).enterTrap (s.core (coreOf c)).secure true false false p.path
        p.cause p.tval) := by
  unfold State.takeAsync
  rw [State.takeTrap_user (by simpa using hm), State.cluster_modCluster]
  exact s.setCluster_setCluster c _ _

/-- RETT in handler mode with an aligned TEPC (R328). -/
theorem execRett_handler {s : State} (hm : s.me.mode = .handler) (ha : s.me.tepc.toNat % 4 = 0) :
    exec .rett s = .next { s.modMe (fun c => c.rett s.myCore.dbgStep) with note := .done } := by
  change execRett s = _
  simp [execRett, bits_zero_two, hm, ha]

/-- Settles O40: BRK is a trap in user mode, RETT is a jump with the mode set, and a pending cause is taken or added. -/
theorem trapEntryAndReturn : Obligations.TrapEntryAndReturn := by
  unfold Obligations.TrapEntryAndReturn
  refine ⟨fun s k hm => ⟨_, rfl, State.trap_trapped hm .dbg _ (by decide)⟩, fun s hm ha => ?_, fun s c p hn hm hf hp => ?_,
    fun s c hr => ?_⟩
  · refine ⟨_, execRett_handler hm ha, ?_⟩
    have hme : ({ s.modMe (fun c => c.rett s.myCore.dbgStep) with note := .done } : State).me = s.me.rett s.myCore.dbgStep :=
      s.me_modMe fun c => c.rett s.myCore.dbgStep
    rw [hme]
    exact ⟨rfl, rfl, by simp [Cluster.rett], by simp [Cluster.rett], by simp [Cluster.rett], by simp [Cluster.rett],
      by simp [Cluster.rett], by simp [Cluster.rett], by simp [Cluster.rett], by simp [Cluster.rett], by simp [Cluster.rett],
      s.onlyMe_modMe _, s.sameMemory_modMe _⟩
  · have e : exec (.asyncTrapEntry c) s = .next (s.takeAsync c p) := by
      change execAsyncTrapEntry c s = _
      simp [execAsyncTrapEntry, hn]
    refine ⟨_, e, ?_⟩
    rw [State.takeAsync_user hm, State.cluster_setCluster]
    have took := fun secure tval => Cluster.enterTrap_took true false p.cause hp
      { s.cluster c with
        pend := (s.cluster c).pend.filter fun q => q.cause != p.cause
        saver := (s.cluster c).saver || p.cause == .pre } secure false tval (Cluster.trapPoint_of_fences hf true)
    exact ⟨rfl, (took _ _).cause, (took _ _).path, (took _ _).async, (took _ _).bund, (took _ _).epc, rfl, rfl, rfl, rfl, rfl⟩
  · refine ⟨_, if_pos hr, ?_⟩
    simp only [State.pendOn, State.modCluster, hr, if_true]
    rfl

end Sys2Proof.Machine
end

section
/-!
O55: what a step runs.  The turn of a cluster is `issueBy`, whose equation is known; each clause is one of its branches.
-/

namespace Sys2Proof.Machine

/-- A word that is no instruction, of a cluster in user mode: UDI, and nothing but its cluster has changed (R27, R326). -/
theorem State.unallocated_trapped {s : State} {c : CluIx} (hm : (s.cluster c).mode = .user) :
    ({ s with focus := c, freeCtr := s.freeCtr + 1 } : State).Trapped (s.unallocated c) .udi (Config.freeWord s.freeCtr) noPath :=
  State.trapFree_trapped (s := { s with focus := c }) hm .udi (by decide)

/-- The cluster of a word that is no instruction, and memory (R27, R326). -/
theorem State.unallocated_took {s : State} {c : CluIx} (hm : (s.cluster c).mode = .user) :
    (s.cluster c).TookTrap ((s.unallocated c).cluster c) (s.core (coreOf c)).secure false s.bundling noPath .udi ∧
      s.SameMemory (s.unallocated c) := by
  have h := State.unallocated_trapped hm
  have hf : (s.unallocated c).focus = c := congrArg State.focus h.only
  have htrap := h.trap
  simp only [State.me, hf] at htrap
  exact ⟨htrap, h.memory⟩

/-- Sync wait moves nothing but the wait (R30). -/
theorem State.enterSync_waits (s : State) (c : CluIx) :
    ((s.enterSync c).cluster c).syncWait = true ∧ ((s.enterSync c).cluster c).regs = (s.cluster c).regs ∧
      ((s.enterSync c).cluster c).pc = (s.cluster c).pc ∧ s.SameMemory (s.enterSync c) := by
  have e : (s.enterSync c).cluster c =
      if (s.cluster c).syncWait then s.cluster c else { s.cluster c with syncWait := true, syncAge := 0 } :=
    s.cluster_modCluster c fun x => if x.syncWait then x else { x with syncWait := true, syncAge := 0 }
  rw [e]
  refine ⟨?_, ?_, ?_, fun l => State.peek_congr rfl rfl rfl rfl l 1⟩
  · split
    · assumption
    · rfl
  · split <;> rfl
  · split <;> rfl

theorem decodeFor_stack {c : CluIx} {w : W32} {i : Instr} (hw : decode w = some ⟨true, i⟩) (hd : isHub (dieOfClu c) = false) :
    decodeFor c w = none := by
  simp [decodeFor, hw, hd]

theorem decodeFor_none {c : CluIx} {w : W32} (hw : decode w = none) : decodeFor c w = none := by
  simp [decodeFor, hw]

theorem decodeFor_hub {c : CluIx} {w : W32} {iw : IWord} (hw : decode w = some iw) (hd : iw.sync = true → isHub (dieOfClu c) = true) :
    decodeFor c w = some iw := by
  cases hs : iw.sync
  · simp [decodeFor, hw, hs]
  · simp [decodeFor, hw, hs, hd hs]

/-- The turn of a cluster that stands at a plain word, by what the word decodes to (R26, R27, R30, R35). -/
theorem State.issueBy_cases {s : State} {c : CluIx} {w : W32} (hw : w = (s.core (coreOf c)).wordAt (s.cluster c).pc)
    (ha : (s.cluster c).atWord = true) (hn : (s.cluster c).nextAsync = none) (hd : (s.cluster c).dual = none)
    (hs : (s.cluster c).stale = []) (hi : (s.core (coreOf c)).imemBad = []) :
    (∀ i, decode w = some ⟨false, i⟩ → s.issueBy exec c = exec i { s with focus := c, note := .done }) ∧
    (∀ i, decode w = some ⟨true, i⟩ → isHub (dieOfClu c) = true → (s.cluster c).solo = true → (s.cluster c).mode = .user →
      s.issueBy exec c = exec i { s with focus := c, note := .done }) ∧
    (∀ i, decode w = some ⟨true, i⟩ → isHub (dieOfClu c) = true → (s.cluster c).solo = false →
      (s.cluster c).continues i = false → s.issueBy exec c = .next (s.enterSync c)) ∧
    ((decode w = none ∨ ∃ i, decode w = some ⟨true, i⟩ ∧ isHub (dieOfClu c) = false) →
      s.issueBy exec c = .next (s.unallocated c)) := by
  have h := State.issueBy_plain exec s c ha hn hd hs hi
  rw [← hw] at h
  refine ⟨fun i e => ?_, fun i e hub solo user => ?_, fun i e hub solo cont => ?_, fun e => ?_⟩
  · rw [h, decodeFor_hub e (by simp)]
    simp [Cluster.issuesAlone]
  · rw [h, decodeFor_hub e fun _ => hub]
    simp [Cluster.issuesAlone, solo, user]
  · rw [h, decodeFor_hub e fun _ => hub]
    simp [Cluster.issuesAlone, solo, cont]
  · have none : decodeFor c w = none := by
      rcases e with e | ⟨i, e, stack⟩
      · exact decodeFor_none e
      · exact decodeFor_stack e stack
    rw [h, none]

/-- Settles O55: a lone cluster's turn and a turn of the agenda are both `issueBy`, and an event of the agenda is its `exec`. -/
theorem stepRunsDecodedWord : Obligations.StepRunsDecodedWord := by
  unfold Obligations.StepRunsDecodedWord
  refine ⟨?_, step_event⟩
  intro s c w x k hw ha hn hd hs hi runs
  have of_turn : ∀ s0 t0 : State, step s0 = t0.issueBy exec c → t0.cluster c = x → t0.core (coreOf c) = k →
      t0.bundling = s.bundling → s.SameMemory t0 → runs s0 t0 := by
    intro s0 t0 h hx hk hb hm
    have cases := State.issueBy_cases (s := t0) (c := c) (w := w) (by rw [hx, hk]; exact hw) (by rw [hx]; exact ha)
      (by rw [hx]; exact hn) (by rw [hx]; exact hd) (by rw [hx]; exact hs) (by rw [hk]; exact hi)
    rw [hx, ← h] at cases
    obtain ⟨lone, solo, sync, none⟩ := cases
    refine ⟨lone, solo, fun i e hub hsolo cont => ⟨_, sync i e hub hsolo cont, ?_⟩, fun e user => ⟨_, none e, ?_⟩⟩
    · obtain ⟨waits, regs, pc, mem⟩ := t0.enterSync_waits c
      exact ⟨waits, hx ▸ regs, hx ▸ pc, fun l => (mem l).trans (hm l)⟩
    · obtain ⟨took, mem⟩ := State.unallocated_took (s := t0) (c := c) (by rw [hx]; exact user)
      rw [hx, hk, hb] at took
      exact ⟨took, fun l => (mem l).trans (hm l)⟩
  have hr : (s.cluster c).record.isNone = false := by
    simp only [Cluster.atWord, Bool.and_eq_true] at ha
    simpa using ha.1.1.1.1
  refine ⟨fun cs hg hq he => ?_, fun rest hg => ?_⟩
  · exact of_turn _ _ (step_lone s c cs hg hq he) rfl rfl rfl fun l => State.peek_congr rfl rfl rfl rfl l 1
  · refine of_turn _ _ ?_ rfl rfl rfl fun l => State.peek_congr rfl rfl rfl rfl l 1
    rw [step_agenda s _ rest hg]
    exact if_neg (by rw [show ({ s with agenda := rest } : State).cluster c = s.cluster c from rfl, hr]; simp)

end Sys2Proof.Machine
end

section
/-!
O58: the manual's worked encodings.  Each is a closed word, which the decoder evaluates.
-/

namespace Sys2Proof.Laws

/-- Settles O58: the decoder is evaluated on each word. -/
theorem specWordsDecode : Obligations.SpecWordsDecode := by
  unfold Obligations.SpecWordsDecode
  simp only [List.forall_mem_cons, List.not_mem_nil, false_implies, implies_true, and_true]
  exact ⟨⟨rfl, rfl, rfl, rfl, rfl, rfl, rfl, rfl, rfl, rfl, rfl, rfl⟩,
    ⟨rfl, rfl, rfl, rfl, rfl, rfl, rfl, rfl, rfl, rfl, rfl, rfl, rfl, rfl⟩, rfl, rfl, rfl, rfl, rfl, rfl, rfl⟩

end Sys2Proof.Laws
end

section
/-!
O59: the state after power-on.  Each table of agents holds one reset agent, or for the dies one of two, so that a claim about every
agent is one about these.
-/

namespace Sys2Proof.Machine

@[simp] theorem State.reset_cluster (c : CluIx) : State.reset.cluster c = Cluster.reset := by
  simp [State.cluster, State.reset, Vector.get_eq_getElem]

@[simp] theorem State.reset_core (k : CoreIx) : State.reset.core k = Core.reset := by
  simp [State.core, State.reset, Vector.get_eq_getElem]

@[simp] theorem State.reset_link (l : LinkIx) : State.reset.link l = Link.reset := by
  simp [State.link, State.reset, Vector.get_eq_getElem]

/-- A die after power-on: a stack or a hub, with ORIENT from its straps (R9, R43). -/
theorem State.reset_die (d : DieIx) : State.reset.die d = Die.reset (isHub d) (orientWord d) := by
  fin_cases d <;> rfl

@[simp] theorem Die.reset_slot (hub : Bool) (orient : Word) {i : Nat} (h : i < 16) :
    ((Die.reset hub orient).slot i).st = .free := by
  have e : (Die.reset hub orient).slot i = QSlot.reset := by
    change (Vector.replicate 16 QSlot.reset).toList.getD i QSlot.reset = _
    rw [Vector.toList_replicate, List.getD_replicate _ h]
  rw [e]
  rfl

/-- A cluster after power-on stands at word 0 with no loop (R26, R75). -/
theorem Cluster.reset_aligned : Cluster.reset.Aligned where
  pc := rfl
  thvec := rfl
  start := by simp [Cluster.reset, Loops.reset, pcAligned]
  stop := by simp [Cluster.reset, Loops.reset, pcAligned]
  depth := by decide

theorem Core.reset_memOk : Core.reset.memOk = true := by
  simp [Core.memOk, Core.reset, Matrix.memOk, Matrix.reset, Engine.reset, Mem.wf, Mem.wfFrom]

theorem Die.reset_memOk (hub : Bool) (orient : Word) : (Die.reset hub orient).memOk = true := by
  simp [Die.memOk, Die.reset, ethOk, EthPort.reset, Lanes.reset, Mem.wf, Mem.wfFrom]

/-- Memory with nothing listed is in canonical form. -/
theorem State.reset_memOk : State.reset.memOk = true := by
  rw [State.memOk_iff]
  exact ⟨fun k => by rw [State.reset_core]; exact Core.reset_memOk,
    fun d => by rw [State.reset_die]; exact Die.reset_memOk _ _, rfl, rfl⟩

/-- Every byte of the part, and of what it reaches, reads zero after power-on (log 4). -/
theorem State.reset_peek (l : Loc) : State.reset.peek l 1 = [0] := by
  cases l with
  | spad k a =>
    change (State.reset.core k).spad.readN a 1 = _
    rw [State.reset_core]
    exact Mem.readN_nil_one a
  | hub d a =>
    change (State.reset.die d).hub.readN a 1 = _
    rw [State.reset_die]
    exact Mem.readN_nil_one a
  | dram d a =>
    change (State.reset.die d).dram.readN a 1 = _
    rw [State.reset_die]
    exact Mem.readN_nil_one a
  | host d a => exact Mem.readN_nil_one a
  | span p d h o => exact Mem.readN_nil_one _
  | send d p a => rfl
  | peer d h a => rfl
  | tensor d h a => rfl

/-- Settles O59: the values of the reset agents, one by one, with the lemmas above on memory and alignment. -/
theorem resetValues : Obligations.ResetValues := by
  unfold Obligations.ResetValues
  refine ⟨fun c => ?_, fun k => ?_, fun d => ?_, fun l => ?_, rfl, rfl, State.reset_memOk, fun c => ?_, State.reset_peek⟩
  · rw [State.reset_cluster]
    exact ⟨rfl, rfl, rfl, rfl, rfl, rfl, rfl, rfl, rfl, rfl⟩
  · rw [State.reset_core]
    exact ⟨rfl, rfl, rfl, rfl, rfl, rfl, rfl, rfl, rfl, rfl, fun a => rfl⟩
  · rw [State.reset_die]
    exact ⟨rfl, rfl, rfl, rfl, rfl, rfl, rfl, rfl, rfl, rfl, rfl, rfl, rfl, rfl, rfl, rfl, rfl, rfl, rfl, rfl,
      fun i hi => Die.reset_slot _ _ hi⟩
  · rw [State.reset_link]
    exact ⟨rfl, rfl, rfl⟩
  · rw [State.reset_cluster]
    exact Cluster.reset_aligned

end Sys2Proof.Machine
end

section
/-!
O37: GETC.  A register that passes the checks of R39 is read once no posted scalar access is on its way; what the named registers hold
is their entry of the tables of R38.
-/

namespace Sys2Proof.Machine

/-- GETC's checks pass for an allocated register of a present unit, of the secure-only range in the secure world alone (R39). -/
theorem State.getcErr_none {s : State} {a : Nat} (hal : cregAcc (isHub s.myDieIx) a ≠ none) (hab : s.cregAbsent s.myCoreIx a = false)
    (hs : a < 0xC00 ∨ s.myCore.secure = true) : s.getcErr a = none := by
  obtain ⟨acc, h⟩ := Option.ne_none_iff_exists'.1 hal
  have hsec : 0xC00 ≤ a → s.myCore.secure = true := fun hle => hs.resolve_left (by omega)
  simpa [State.getcErr, h, hab] using hsec

/-- GETC while a scalar store of the cluster is on its way (R225). -/
theorem execGetc_waits {s : State} {c : BitVec 12} (d : Reg) (he : s.getcErr c.toNat = none) (hp : s.postedScalar s.focus = true) :
    exec (.getc d c) s = .next s.stall := by
  change execGetc d c s = _
  simp [execGetc, he, hp]

/-- GETC of a register that may be read now (R87). -/
theorem execGetc_reads {s : State} {c : BitVec 12} (d : Reg) (he : s.getcErr c.toNat = none) (hg : s.me.gatedCreg = false)
    (hp : s.postedScalar s.focus = false) : exec (.getc d c) s = .next (s.finish d (s.cregRead s.focus c.toNat)) := by
  change execGetc d c s = _
  simp [execGetc, he, hg, hp]

/-- A word that cannot complete yet leaves its PC, the registers and memory (R32). -/
theorem State.stall_stays (s : State) :
    s.stall.me.pc = s.me.pc ∧ (∀ r, s.stall.me.g r = s.me.g r) ∧ s.SameMemory s.stall := by
  have hme : s.stall.me = { s.me with waiting := true } := s.me_modMe fun c => { c with waiting := true }
  refine ⟨by rw [hme], fun r => by rw [hme]; rfl, fun l => State.peek_congr rfl rfl rfl rfl l 1⟩

/-- MODE as a sum (R45). -/
theorem mode_word (solo pworld pmode secure handler : Bool) :
    packWord [(4, flagNat solo), (3, flagNat pworld), (2, flagNat pmode), (1, flagNat secure), (0, flagNat handler)] =
      word (flagNat handler + 2 * flagNat secure + 4 * flagNat pmode + 8 * flagNat pworld + 16 * flagNat solo) := by
  simp only [packWord, packNat, List.foldl, Nat.shiftLeft_eq]
  congr 1
  omega

/-- LADDR as a sum (R75). -/
theorem loop_word (start stop : Nat) : packWord [(32, start), (0, stop)] = word (start * 2 ^ 32 + stop) := by
  simp only [packWord, packNat, List.foldl, Nat.shiftLeft_eq]
  congr 1
  omega

theorem vget_of_lt {α : Type} {n : Nat} (v : Vector α n) {i : Nat} (d : α) (h : i < n) : vget v i d = v[i] := by
  unfold vget
  rw [List.getD_eq_getElem _ _ (by simpa using h), Vector.getElem_toList]

/-- GETC of a register named by its address, in words that hold what is read (R38). -/
theorem execGetc_wrote {s : State} {d : Reg} {c : BitVec 12} {v : Word} (hg : s.me.gatedCreg = false)
    (hp : s.postedScalar s.focus = false) (he : s.getcErr c.toNat = none) (hv : s.cregRead s.focus c.toNat = v) :
    ∃ t, exec (.getc d c) s = .next t ∧ s.Wrote t d v :=
  ⟨_, execGetc_reads d he hg hp, hv ▸ s.finish_wrote d _⟩

/-- Settles O37: the checks and the wait of GETC, and the entries of the register tables one by one. -/
theorem registersRead : Obligations.RegistersRead := by
  unfold Obligations.RegistersRead
  intro s d hg
  refine ⟨fun hp c hal hab hs => ?_, fun hp c hal hab hs => ?_, fun hp => ?_, fun hp hsec => ?_⟩
  · obtain ⟨pc, regs, mem⟩ := s.stall_stays
    exact ⟨_, execGetc_waits d (State.getcErr_none hal hab hs) hp, pc, regs, mem⟩
  · exact execGetc_wrote hg hp (State.getcErr_none hal hab hs) rfl
  · have plain : ∀ (c : BitVec 12) (v : Word), (∀ hub, cregAcc hub c.toNat ≠ none) → s.cregAbsent s.myCoreIx c.toNat = false →
        c.toNat < 0xC00 → s.cregRead s.focus c.toNat = v → ∃ t, exec (.getc d c) s = .next t ∧ s.Wrote t d v :=
      fun c v hal hab hlt hv => execGetc_wrote hg hp (State.getcErr_none (hal _) hab (.inl hlt)) hv
    have count : ∀ i (h : i < 4), (vget s.me.loops.cnt i 0).setWidth 64 = (s.me.loops.cnt[i]).setWidth 64 := fun i h => by
      rw [vget_of_lt _ _ h]
    have range : packWord [(32, (vget s.me.loops.start 0 0).toNat), (0, (vget s.me.loops.stop 0 0).toNat)] =
        word (s.me.loops.start[0].toNat * 2 ^ 32 + s.me.loops.stop[0].toNat) := by
      rw [loop_word, vget_of_lt _ _ (by decide), vget_of_lt _ _ (by decide)]
    have ring : ∀ k (h : k < 64), (s.myCore.ring k).cfg = s.myCore.rings[k].cfg := fun k h => by
      rw [Core.ring, vget_of_lt _ _ h]
    simp only [List.forall_mem_cons, List.not_mem_nil, false_implies, implies_true, and_true]
    exact ⟨plain 0x001 _ (by decide) rfl (by decide) rfl, plain 0x002 _ (by decide) rfl (by decide) rfl,
      plain 0x003 _ (by decide) rfl (by decide) rfl, plain 0x005 _ (by decide) rfl (by decide) rfl,
      plain 0x004 _ (by decide) rfl (by decide) (mode_word _ _ _ _ _), plain 0x008 _ (by decide) rfl (by decide) rfl,
      plain 0x009 _ (by decide) rfl (by decide) rfl, plain 0x040 _ (by decide) rfl (by decide) rfl,
      plain 0x041 _ (by decide) rfl (by decide) rfl, plain 0x018 _ (by decide) rfl (by decide) rfl,
      plain 0x010 _ (by decide) rfl (by decide) (count 0 (by decide)), plain 0x013 _ (by decide) rfl (by decide) (count 3 (by decide)),
      plain 0x014 _ (by decide) rfl (by decide) range, plain 0x020 _ (by decide) rfl (by decide) rfl,
      plain 0x021 _ (by decide) rfl (by decide) rfl, plain 0x03F _ (by decide) rfl (by decide) rfl,
      plain 0x100 _ (by decide) rfl (by decide) rfl, plain 0x102 _ (by decide) rfl (by decide) rfl,
      plain 0x300 _ (by decide) rfl (by decide) rfl, plain 0x110 _ (by decide) rfl (by decide) (ring 0 (by decide)),
      plain 0x14F _ (by decide) rfl (by decide) (ring 63 (by decide)), plain 0x480 _ (by decide) rfl (by decide) rfl,
      plain 0x4FA _ (by decide) rfl (by decide) rfl, plain 0x800 _ (by decide) rfl (by decide) rfl,
      plain 0x801 _ (by decide) rfl (by decide) rfl, plain 0x809 _ (by decide) rfl (by decide) rfl,
      plain 0x903 _ (by decide) rfl (by decide) rfl, plain 0xA08 _ (by decide) rfl (by decide) rfl⟩
  · have secure : ∀ (c : BitVec 12) (v : Word), (∀ hub, cregAcc hub c.toNat ≠ none) → s.cregAbsent s.myCoreIx c.toNat = false →
        s.cregRead s.focus c.toNat = v → ∃ t, exec (.getc d c) s = .next t ∧ s.Wrote t d v :=
      fun c v hal hab hv => execGetc_wrote hg hp (State.getcErr_none (hal _) hab (.inr hsec)) hv
    simp only [List.forall_mem_cons, List.not_mem_nil, false_implies, implies_true, and_true]
    exact ⟨secure 0xC00 _ (by decide) rfl rfl, secure 0xC01 _ (by decide) rfl rfl, secure 0xC03 _ (by decide) rfl rfl,
      secure 0xC20 _ (by decide) rfl rfl⟩

end Sys2Proof.Machine
end

section
/-!
O38: SETC of OWNTAG while a save of the core has been asked for.  `Core.writeOwntag` then writes the tag of the image too (R331), which
the statement, whose written state changes OWNTAG alone, leaves out: a handler that writes OWNTAG in a save refutes it.
-/

namespace Sys2Proof.Machine

/-- SETC in handler mode of OWNTAG, a register of access H that has no reserved bit below 16 (R39, R329, R336). -/
theorem State.setcErr_owntag {s : State} {v : Word} (hm : s.me.mode = .handler) (hv : outside v 0xFFFF = false) :
    s.setcErr 0x306 v = none := by
  have acc : cregAcc (isHub s.myDieIx) 0x306 = some .h := rfl
  have mask : cregMask 0x306 = 0xFFFF := rfl
  have bad : cregValueBad 0x306 v = false := rfl
  have absent : s.cregAbsent s.myCoreIx 0x306 = false := rfl
  simp [State.setcErr, acc, mask, bad, absent, hv, State.setcBarred, hm]

/-- SETC of OWNTAG that may take effect (R87, R336). -/
theorem execSetc_owntag {s : State} {a : Reg} (hm : s.me.mode = .handler) (hv : outside (s.g a) 0xFFFF = false)
    (hg : s.me.gatedCreg = false) (hp : s.postedScalar s.focus = false) : exec (.setc 0x306 a) s =
      .next (s.schedWord (s.modMyCore fun x => x.writeOwntag ((s.g a).setWidth 16)).advance) := by
  change execSetc 0x306 a s = _
  have err : s.setcErr (0x306 : BitVec 12).toNat (s.g a) = none := State.setcErr_owntag hm hv
  simp only [execSetc, err, hg, hp, Bool.or_self, Bool.false_eq_true, if_false]
  rfl

/-- A word whose accesses the scheduler makes, when it makes none. -/
theorem State.schedWord_of_die {s t : State} (h : t.die s.myDieIx = s.die s.myDieIx) : s.schedWord t = t := by
  simp [State.schedWord, State.schedWaited, h]

/-- While a save has been asked for and has not taken OWNTAG, a write of it reaches the tag of the image (R331). -/
theorem Core.writeOwntag_saving {x : Core} {img : Nat} {trap : Bool} (h : x.ctxOp = .saving img trap) (ho : x.owntag ≠ 0xFFFF)
    (v : BitVec 16) : (x.writeOwntag v).cxTag = v := by
  simp only [Core.writeOwntag, h]
  exact if_neg ho

/-- A handler of the secure world on core 0, of which a save has been asked for under the tag 1. -/
def State.savingHandler : State :=
  (State.reset.setCluster 0 { Cluster.reset with mode := .handler }).setCore 0
    { Core.reset with secure := true, ctxOp := .saving 0 false, cxTag := 1 }

/-- Refutes O38: in a save, SETC of OWNTAG with g0 sets the tag of the image to 0 too, where the statement keeps it at 1. -/
theorem not_registersWritten : ¬ Obligations.RegistersWritten := by
  unfold Obligations.RegistersWritten
  intro h
  obtain ⟨-, handler⟩ := h .savingHandler 0 rfl rfl
  obtain ⟨-, -, -, shared, -, -⟩ := handler rfl rfl
  have hv : outside (State.savingHandler.g 0) 0xFFFF = false := rfl
  obtain ⟨t, ht, hpass, -⟩ := shared (0x306, 0xFFFF, _) (.tail _ (.tail _ (.tail _ (.tail _ (.head _))))) hv
  rw [execSetc_owntag (s := .savingHandler) (a := 0) rfl hv rfl rfl, State.schedWord_of_die (by rfl)] at ht
  obtain rfl := Host.Outcome.next.inj ht
  have written : (State.advance (.modMyCore .savingHandler fun x =>
      x.writeOwntag ((State.savingHandler.g 0).setWidth 16))).myCore.cxTag = 0 :=
    Core.writeOwntag_saving (x := State.savingHandler.myCore) rfl (by decide) _
  rw [hpass.only] at written
  exact absurd written (by decide)

end Sys2Proof.Machine
end

section
/-!
O39: what user mode and the non-secure world may not do.  Each word's checks name a cause, and the trap layer says what a cause in user
mode does; CSAVE alone forms a list of causes, of which the lowest number is taken.
-/

namespace Sys2Proof.Machine

/-! ### The cause of the lowest number (R52) -/

theorem mem_of_firstOf {xs : List (Cause × Option Nat)} {y : Cause × Option Nat} (h : firstOf xs = some y) : y ∈ xs := by
  induction xs with
  | nil => cases h
  | cons x xs ih =>
    rw [firstOf] at h
    cases hx : firstOf xs with
    | none =>
      rw [hx] at h
      cases h
      exact List.mem_cons_self
    | some z =>
      simp only [hx] at h
      split at h
      · cases h
        exact List.mem_cons_self
      · exact List.mem_cons_of_mem _ (ih (hx.trans h))

/-- A cause that no later one of the list undercuts is the one taken. -/
theorem firstOf_cons {x : Cause × Option Nat} {xs : List (Cause × Option Nat)} (h : ∀ y ∈ xs, x.1.code ≤ y.1.code) :
    firstOf (x :: xs) = some x := by
  rw [firstOf]
  cases hx : firstOf xs with
  | none => rfl
  | some y => simp only [if_pos (h y (mem_of_firstOf hx))]

/-- A cause that the first of the others undercuts is not taken. -/
theorem firstOf_cons_lt {x y : Cause × Option Nat} {xs : List (Cause × Option Nat)} (h : firstOf xs = some y)
    (hlt : y.1.code < x.1.code) : firstOf (x :: xs) = some y := by
  rw [firstOf, h]
  simp only [if_neg (Nat.not_le.2 hlt)]

/-! ### The checks of CSAVE (R334) -/

/-- What CSAVE finds of the mapping and of the handler that may save, after its alignment and mode. -/
def State.csaveLater (s : State) (v : Word) : List (Cause × Option Nat) :=
  (if v.toNat < 0x100_0000 then [(.lch, some 0x540)]
   else match (s.xlate s.myCoreIx false s.myCore.secure .write v.toNat).1 with
    | .ok _ => []
    | .xlt | .hole _ => [(.xlt, some v.toNat)]
    | _ => [(.prm, some v.toNat)]) ++
  (if s.me.saver then [] else [(.lch, some 0x541)])

theorem State.csaveErrs_user {s : State} {v : Word} (hm : s.me.mode = .user) : s.csaveErrs v =
    (if v.toNat % 4096 ≠ 0 then [(.aln, some v.toNat)] else []) ++ (.prm, none) :: s.csaveLater v := by
  unfold State.csaveErrs State.csaveLater
  rw [if_pos hm]
  simp only [List.append_assoc, List.singleton_append]
  rfl

/-- The address of a CSAVE above the scratchpad window has no mapping (R334). -/
def State.csaveUnmapped (s : State) (v : Word) : Prop :=
  0x100_0000 ≤ v.toNat ∧ ((s.xlate s.myCoreIx false s.myCore.secure .write v.toNat).1 = .xlt ∨
    ∃ n, (s.xlate s.myCoreIx false s.myCore.secure .write v.toNat).1 = .hole n)

theorem State.csaveSaver_code (s : State) :
    ∀ y ∈ (if s.me.saver then [] else [(Cause.lch, some 0x541)] : List (Cause × Option Nat)), 7 ≤ y.1.code := by
  cases s.me.saver <;> simp [Cause.code]

theorem State.csaveLater_mapped {s : State} {v : Word} (h : ¬s.csaveUnmapped v) : ∀ y ∈ s.csaveLater v, 5 ≤ y.1.code := by
  intro y hy
  rcases List.mem_append.1 hy with hy | hy
  · split at hy
    · simp_all [Cause.code]
    · next hle =>
      have hplace := fun hp => h ⟨Nat.not_lt.1 hle, hp⟩
      split at hy
      · cases hy
      · next hp => exact absurd (.inl hp) hplace
      · next n hp => exact absurd (.inr ⟨n, hp⟩) hplace
      · simp_all [Cause.code]
  · exact le_trans (by decide) (s.csaveSaver_code y hy)

theorem State.csaveLater_unmapped {s : State} {v : Word} (h : s.csaveUnmapped v) :
    s.csaveLater v = (.xlt, some v.toNat) :: (if s.me.saver then [] else [(.lch, some 0x541)]) := by
  obtain ⟨hle, hplace⟩ := h
  rw [State.csaveLater, if_neg (Nat.not_lt.2 hle)]
  rcases hplace with hp | ⟨n, hp⟩ <;> rw [hp] <;> rfl

/-- CSAVE whose checks name a cause (R334). -/
theorem execCsave_err {s : State} {d a : Reg} {e : Cause × Option Nat} (h : firstOf (s.csaveErrs (s.g a)) = some e) :
    exec (.csave d a) s = .next (s.trapErr e) := by
  change execCsave d a s = _
  simp [execCsave, h]

theorem State.csaveErrs_mapped {s : State} {v : Word} (hm : s.me.mode = .user) (ha : v.toNat % 4096 = 0)
    (h : ¬s.csaveUnmapped v) : firstOf (s.csaveErrs v) = some (.prm, none) := by
  rw [State.csaveErrs_user hm, if_neg (by simp [ha]), List.nil_append]
  exact firstOf_cons (State.csaveLater_mapped h)

theorem State.csaveErrs_unmapped {s : State} {v : Word} (hm : s.me.mode = .user) (ha : v.toNat % 4096 = 0)
    (h : s.csaveUnmapped v) : firstOf (s.csaveErrs v) = some (.xlt, some v.toNat) := by
  rw [State.csaveErrs_user hm, if_neg (by simp [ha]), List.nil_append, State.csaveLater_unmapped h]
  exact firstOf_cons_lt (firstOf_cons fun y hy => le_trans (by simp [Cause.code]) (s.csaveSaver_code y hy)) (by simp [Cause.code])

/-- Of a misaligned address ALN comes first, whatever the mapping. -/
theorem State.csaveErrs_misaligned {s : State} {v : Word} (hm : s.me.mode = .user) (ha : v.toNat % 4096 ≠ 0) :
    firstOf (s.csaveErrs v) = some (.aln, some v.toNat) := by
  rw [State.csaveErrs_user hm, if_pos ha, List.singleton_append]
  refine firstOf_cons fun y hy => ?_
  rcases List.mem_cons.1 hy with rfl | hy
  · simp [Cause.code]
  by_cases h : s.csaveUnmapped v
  · rw [State.csaveLater_unmapped h] at hy
    rcases List.mem_cons.1 hy with rfl | hy
    · simp [Cause.code]
    · exact le_trans (by simp [Cause.code]) (s.csaveSaver_code y hy)
  · exact le_trans (by simp [Cause.code]) (State.csaveLater_mapped h y hy)

/-! ### The checks of GETC and SETC (R39) -/

/-- GETC whose checks name a cause (R87). -/
theorem execGetc_err {s : State} {d : Reg} {c : BitVec 12} {k : Cause} (h : s.getcErr c.toNat = some k) :
    exec (.getc d c) s = .next (s.trapFree k) := by
  change execGetc d c s = _
  simp [execGetc, h]

/-- SETC whose checks name a cause (R87). -/
theorem execSetc_err {s : State} {a : Reg} {c : BitVec 12} {k : Cause} (h : s.setcErr c.toNat (s.g a) = some k) :
    exec (.setc c a) s = .next (s.trapFree k) := by
  change execSetc c a s = _
  simp [execSetc, h]

/-- A value sets a reserved bit of a register, or one that a field does not take (R39; log 40). -/
def reservedSet (acc : Option CAcc) (a : Nat) (v : Word) : Bool :=
  outside v (if acc = some .r then readMask a else cregMask a) || cregValueBad a v

theorem State.setcErr_eq {s : State} {a : Nat} {v : Word} {acc : CAcc} (h : cregAcc (isHub s.myDieIx) a = some acc) :
    s.setcErr a v = if reservedSet (some acc) a v then some .udi else if s.cregAbsent s.myCoreIx a then some .aut
      else if s.setcBarred a acc then some .prm else none := by
  simp [State.setcErr, h, reservedSet]

/-- SETC with a reserved bit: UDI before all else (R52, R39). -/
theorem State.setcErr_reserved {s : State} {a : Nat} {v : Word} (hal : cregAcc (isHub s.myDieIx) a ≠ none)
    (hr : reservedSet (cregAcc (isHub s.myDieIx) a) a v = true) : s.setcErr a v = some .udi := by
  obtain ⟨acc, h⟩ := Option.ne_none_iff_exists'.1 hal
  rw [h] at hr
  simp [State.setcErr_eq h, hr]

/-- SETC of a register of a unit that the core lacks (R39). -/
theorem State.setcErr_absent {s : State} {a : Nat} {v : Word} (hal : cregAcc (isHub s.myDieIx) a ≠ none)
    (hr : reservedSet (cregAcc (isHub s.myDieIx) a) a v = false) (hab : s.cregAbsent s.myCoreIx a = true) :
    s.setcErr a v = some .aut := by
  obtain ⟨acc, h⟩ := Option.ne_none_iff_exists'.1 hal
  rw [h] at hr
  simp [State.setcErr_eq h, hr, hab]

/-- SETC in user mode of a present register that is read-only, or of access H or S (R37, R39). -/
theorem State.setcErr_barred {s : State} {a : Nat} {v : Word} {acc : CAcc} (hm : s.me.mode = .user)
    (h : cregAcc (isHub s.myDieIx) a = some acc) (hacc : acc ≠ .w) (hr : reservedSet (cregAcc (isHub s.myDieIx) a) a v = false)
    (hab : s.cregAbsent s.myCoreIx a = false) : s.setcErr a v = some .prm := by
  have barred : s.setcBarred a acc = true := by
    cases acc with
    | w => exact absurd rfl hacc
    | r => rfl
    | h => simp [State.setcBarred, hm]
    | sec => simp [State.setcBarred, hm]
  rw [h] at hr
  simp [State.setcErr_eq h, hr, hab, barred]

theorem State.getcErr_absent {s : State} {a : Nat} (hal : cregAcc (isHub s.myDieIx) a ≠ none)
    (hab : s.cregAbsent s.myCoreIx a = true) : s.getcErr a = some .aut := by
  obtain ⟨acc, h⟩ := Option.ne_none_iff_exists'.1 hal
  simp [State.getcErr, h, hab]

/-- GETC of the secure-only range in the non-secure world (R39). -/
theorem State.getcErr_secure {s : State} {a : Nat} (hal : cregAcc (isHub s.myDieIx) a ≠ none)
    (hab : s.cregAbsent s.myCoreIx a = false) (ha : 0xC00 ≤ a) (hs : s.myCore.secure = false) : s.getcErr a = some .prm := by
  obtain ⟨acc, h⟩ := Option.ne_none_iff_exists'.1 hal
  simp [State.getcErr, h, hab, ha, hs]

/-! ### The other words -/

theorem execRett_user {s : State} (hm : s.me.mode = .user) (ha : bits s.me.tepc 0 2 = 0) :
    exec .rett s = .next (s.trapFree .prm) := by
  change execRett s = _
  simp [execRett, ha, hm]

theorem execCkpt_user {s : State} (d : Reg) (hm : s.me.mode = .user) : exec (.ckpt d) s = .next (s.trapFree .prm) := by
  change execCkpt d s = _
  simp [execCkpt, hm]

theorem execTlbinv_user {s : State} (a b : Reg) (hm : s.me.mode = .user) : exec (.tlbinv a b) s = .next (s.trapFree .prm) := by
  change execTlbinv a b s = _
  simp [execTlbinv, hm]

theorem execCrest_user {s : State} (d a : Reg) (hm : s.me.mode = .user) (ha : (s.g a).toNat % 4096 = 0) :
    exec (.crest d a) s = .next (s.trapFree .prm) := by
  change execCrest d a s = _
  simp [execCrest, ha, hm]

theorem execCrest_misaligned {s : State} (d a : Reg) (ha : (s.g a).toNat % 4096 ≠ 0) :
    exec (.crest d a) s = .next (s.trap .aln (s.g a)) := by
  change execCrest d a s = _
  simp [execCrest, ha]

/-- A cause that CSAVE names with the address it was given. -/
theorem State.trapErr_addr (s : State) (k : Cause) (v : Word) : s.trapErr (k, some v.toNat) = s.trap k v := by
  simp [State.trapErr, word]

/-- Settles O39: each clause names the cause of a word's checks, and a cause in user mode is a trap with nothing else. -/
theorem privilegedWords : Obligations.PrivilegedWords := by
  unfold Obligations.PrivilegedWords
  intro s d a b c hm u raises acc v reserved
  have raised : ∀ {i : Instr} {k : Cause}, exec i s = .next (s.trapFree k) → raises i k := fun h =>
    ⟨_, _, h, State.trapFree_trapped hm _ (by decide)⟩
  have trapped : ∀ {i : Instr} {k : Cause}, exec i s = .next (s.trap k v) → ∃ t, exec i s = .next t ∧ s.Trapped t k v 7 :=
    fun h => ⟨_, h, State.trap_trapped hm _ _ (by decide)⟩
  refine ⟨fun h => raised (execRett_user hm h), raised (execCkpt_user d hm), raised (execTlbinv_user a b hm), fun hv => ?_,
    fun hv => ?_, fun hal => ?_, fun hal hab => ?_, fun hal hr => raised (execSetc_err (State.setcErr_reserved hal hr)),
    fun hab => ⟨fun h hr => ?_, fun hal hc hs => ?_, fun h hr => ?_⟩⟩
  · refine ⟨raised (execCrest_user d a hm hv), fun hu => ?_, fun hu => ?_⟩
    · exact raised (execCsave_err (State.csaveErrs_mapped hm hv hu))
    · exact trapped ((execCsave_err (State.csaveErrs_unmapped hm hv hu)).trans (congrArg _ (s.trapErr_addr _ v)))
  · simp only [List.forall_mem_cons, List.not_mem_nil, false_implies, implies_true, and_true]
    exact ⟨trapped ((execCsave_err (State.csaveErrs_misaligned hm hv)).trans (congrArg _ (s.trapErr_addr _ v))),
      trapped (execCrest_misaligned d a hv)⟩
  · have get : s.getcErr c.toNat = some .udi := by simp [State.getcErr, show cregAcc (isHub s.myDieIx) c.toNat = none from hal]
    have set : s.setcErr c.toNat v = some .udi := by simp [State.setcErr, show cregAcc (isHub s.myDieIx) c.toNat = none from hal]
    exact ⟨raised (execGetc_err get), raised (execSetc_err set)⟩
  · exact ⟨raised (execGetc_err (State.getcErr_absent hal hab)), fun hr => raised (execSetc_err (State.setcErr_absent hal hr hab))⟩
  · exact raised (execSetc_err (State.setcErr_barred hm h (by decide) hr hab))
  · exact raised (execGetc_err (State.getcErr_secure hal hab hc hs))
  · rcases h with h | h
    · exact raised (execSetc_err (State.setcErr_barred hm h (by decide) hr hab))
    · exact raised (execSetc_err (State.setcErr_barred hm h (by decide) hr hab))

end Sys2Proof.Machine
end

section
/-!
SUPPORT. What counting, logging and the reads of tables leave alone: every cluster, and which of them issues.
-/

namespace Sys2Proof.Machine

/-- The clusters of a state, and the one in focus. -/
def State.actors (s : State) : Vector Cluster 208 × CluIx := (s.clusters, s.focus)

@[simp] theorem State.actors_setDie (s : State) (d : DieIx) (x : Die) : (s.setDie d x).actors = s.actors := rfl
@[simp] theorem State.actors_modDie (s : State) (d : DieIx) (f : Die → Die) : (s.modDie d f).actors = s.actors := rfl
@[simp] theorem State.actors_countUnc (s : State) (d : DieIx) (n : Nat) : (s.countUnc d n).actors = s.actors := rfl

@[simp] theorem State.actors_touchRows (s : State) (d : DieIx) (a n : Nat) : (s.touchRows d a n).actors = s.actors := by
  unfold State.touchRows
  exact foldl_keeps State.actors _ (fun s r => s.actors_setDie d (s.touchRow d r)) _ s

@[simp] theorem State.actors_poke (s : State) (l : Loc) (bs : List Byte) : (s.poke l bs).1.actors = s.actors := by
  cases l with
  | dram d a => exact (State.actors_touchRows _ d a bs.length).trans rfl
  | _ => rfl

@[simp] theorem State.actors_pokePhys (s : State) (d : DieIx) (pa : Nat) (w : Word) : (s.pokePhys d pa w).actors = s.actors := by
  unfold State.pokePhys
  split
  · exact s.actors_poke _ _
  · rfl

@[simp] theorem State.actors_logNew (s : State) (d : DieIx) (kind detail : Nat) (at_ : Word) (lid synd : Nat) :
    (s.logNew d kind detail at_ lid synd).actors = s.actors := by
  unfold State.logNew
  dsimp only
  split
  · rfl
  · simp

@[simp] theorem State.actors_log (s : State) (d : DieIx) (kind detail : Nat) (at_ : Word) (lid synd : Nat) :
    (s.log d kind detail at_ lid synd).actors = s.actors := by
  unfold State.log
  dsimp only
  split
  · rfl
  · split
    · split <;> simp
    · simp

@[simp] theorem State.actors_noteUnc (s : State) (l : Loc) (n lid : Nat) : (s.noteUnc l n lid).actors = s.actors := by
  unfold State.noteUnc
  split
  · exact foldl_keeps State.actors _ (fun s w => by simp) _ s
  · rfl

@[simp] theorem State.actors_correctBeats (s : State) (d : DieIx) (bs : List Nat) : (s.correctBeats d bs).actors = s.actors := by
  refine foldl_keeps State.actors _ (fun s b => ?_) bs s
  split
  · rfl
  · split
    · rfl
    · simp [State.correctBeat]

@[simp] theorem State.actors_readDram (s : State) (l : Loc) (n : Nat) : (s.readDram l n).actors = s.actors := by
  unfold State.readDram
  split
  · simp
  · rfl

@[simp] theorem State.actors_noteTable (s : State) (d : DieIx) (pa n : Nat) : (s.noteTable d pa n).actors = s.actors := by
  unfold State.noteTable
  split
  · simp
  · rfl

/-- A region's bit of the world map read, through its cache or from memory (R312). -/
@[simp] theorem State.actors_secureRegion (s : State) (d : DieIx) (region : Nat) : (s.secureRegion d region).2.actors = s.actors := by
  unfold State.secureRegion
  dsimp only
  split
  · rfl
  · split
    · rfl
    · simp

/-- The bytes of a vector word's operands looked up in the world map (R312). -/
theorem State.actors_spadBarred (s : State) (k : CoreIx) (rs : List (Nat × Nat)) : (s.spadBarred k rs).2.actors = s.actors := by
  unfold State.spadBarred
  dsimp only
  split
  · rfl
  · exact foldl_keeps (fun acc : Option Nat × State => acc.2.actors) _ (fun acc r =>
      foldl_keeps (fun acc : Option Nat × State => acc.2.actors) _ (fun acc u => by simp) _ acc) rs (none, s)

theorem State.me_of_actors {s t : State} (h : t.actors = s.actors) : t.me = s.me := by
  obtain ⟨hc, hf⟩ := Prod.mk.inj h
  rw [State.me, State.cluster, hc, hf]
  rfl

theorem State.myCoreIx_of_actors {s t : State} (h : t.actors = s.actors) : t.myCoreIx = s.myCoreIx := by
  obtain ⟨-, hf⟩ := Prod.mk.inj h
  rw [State.myCoreIx, hf]
  rfl

end Sys2Proof.Machine
end

section
/-!
O21: a vector word whose operands fail a check.  Every vector word is `vecIssue` of its operation; the check takes the least value of the
first kind of fault that there is.
-/

namespace Sys2Proof.Machine

theorem leastOf_eq_min? (xs : List Nat) : leastOf xs = xs.min? := by
  cases xs <;> rfl

/-- PATH of a vector cause as a number (R45). -/
theorem vecPath_eq (k : Cause) : vecPath k = if k = .aln ∨ k = .xlt ∨ k = .prm then 1 else 7 := by
  cases k <;> rfl

theorem vecPath_lt (k : Cause) : vecPath k < 8 := by
  cases k <;> decide

/-- A word with bit 0 set has a reserved field that is not zero, the least of the LCH codes (R139). -/
theorem VecArgs.lchs_reserved {v : VecArgs} (h : bit v.ga 0 = true) : leastOf v.lchs = some 0x101 := by
  have bad : v.reservedOk = false := by simp [VecArgs.reservedOk, h]
  rw [leastOf_eq_min?, List.min?_eq_some_iff]
  refine ⟨by simp [VecArgs.lchs, bad], fun n hn => ?_⟩
  simp only [VecArgs.lchs, List.mem_append, List.mem_ite_nil_left, List.mem_ite_nil_right, List.mem_singleton] at hn
  omega

/-- The addresses of a command's operands that lie outside the scratchpad (R139). -/
def VecArgs.outside (v : VecArgs) (cap : Nat) : List Nat := (v.dest ++ v.sources ++ v.mask).flatMap (Shape.outOf cap)

/-- The misaligned bases of a command as addresses, of which the lowest is ALN's value. -/
def VecArgs.alnValues (v : VecArgs) : List Nat := v.alns.map fun a => (a % 2 ^ 64).toNat

section
variable {v : VecArgs} {cap : Nat}

/-- With the bases aligned and inside, a closed byte is PRM (R139, R312). -/
theorem VecArgs.check_barred (ha : v.alns = []) (ho : v.outside cap = []) (z : Nat) : v.check cap (some z) = some (.prm, z) := by
  rw [VecArgs.outside] at ho
  unfold VecArgs.check
  rw [ha, ho]
  rfl

/-- With the bases aligned, inside and open, a bit 0 that is set is LCH 0x101 (R139). -/
theorem VecArgs.check_reserved (ha : v.alns = []) (ho : v.outside cap = []) (h : bit v.ga 0 = true) :
    v.check cap none = some (.lch, 0x101) := by
  rw [VecArgs.outside] at ho
  unfold VecArgs.check
  rw [ha, ho, VecArgs.lchs_reserved h]
  rfl

/-- A misaligned base is ALN before all else, with the lowest of them (R52, R138). -/
theorem VecArgs.check_misaligned {n : Nat} (h : leastOf v.alnValues = some n) (w : Option Nat) : v.check cap w = some (.aln, n) := by
  rw [VecArgs.alnValues] at h
  unfold VecArgs.check
  rw [h]

theorem VecArgs.alnValues_least (h : v.alns ≠ []) : ∃ n, leastOf v.alnValues = some n ∧
    (∃ z ∈ v.alns, n = (z % 2 ^ 64).toNat) ∧ ∀ z ∈ v.alns, n ≤ (z % 2 ^ 64).toNat := by
  have hne : v.alnValues.min? ≠ none := fun e => h (List.map_eq_nil_iff.1 (List.min?_eq_none_iff.1 e))
  obtain ⟨n, hn⟩ := Option.ne_none_iff_exists'.1 hne
  obtain ⟨hmem, hle⟩ := List.min?_eq_some_iff.1 hn
  obtain ⟨z, hz, rfl⟩ := List.mem_map.1 hmem
  exact ⟨_, (leastOf_eq_min? _).trans hn, ⟨z, hz, rfl⟩, fun y hy => hle _ (List.mem_map_of_mem hy)⟩

end

/-- A vector word whose check names a cause (R139, R155). -/
theorem State.vecIssue_err {s u : State} {op : VecOp} {imm : Bool} {ty : ElemType} {a b : Reg} {w : Option Nat} {k : Cause}
    {n : Nat} (o : Cls) (hc : bits (s.g a) 24 16 ≠ 0)
    (hw : s.spadBarred s.myCoreIx (s.vecArgs op imm ty (s.g a) (s.g b)).ranges = (w, u))
    (hk : (s.vecArgs op imm ty (s.g a) (s.g b)).check (spadBytes s.myCoreIx) w = some (k, n)) :
    s.vecIssue op imm ty o a b =
      .next ((u.modMe fun c => { c with vlca := s.g a, vlcb := s.g b }).trap k (word n) (vecPath k)) := by
  have hu : u.myCoreIx = s.myCoreIx := State.myCoreIx_of_actors (by rw [← s.actors_spadBarred s.myCoreIx _, hw])
  unfold State.vecIssue
  simp only [vCount, if_neg hc, hw, hu, hk]

/-- What such a word does in user mode (R139, R326). -/
theorem State.vecIssue_traps {s u : State} {op : VecOp} {imm : Bool} {ty : ElemType} {a b : Reg} {w : Option Nat} {k : Cause}
    {n : Nat} (o : Cls) (hm : s.me.mode = .user) (hc : bits (s.g a) 24 16 ≠ 0)
    (hw : s.spadBarred s.myCoreIx (s.vecArgs op imm ty (s.g a) (s.g b)).ranges = (w, u))
    (hk : (s.vecArgs op imm ty (s.g a) (s.g b)).check (spadBytes s.myCoreIx) w = some (k, n)) :
    ∃ t, s.vecIssue op imm ty o a b = .next t ∧ (u.modMe fun c => { c with vlca := s.g a, vlcb := s.g b }).Trapped t k (word n)
      (if k = .aln ∨ k = .xlt ∨ k = .prm then 1 else 7) := by
  refine ⟨_, State.vecIssue_err o hc hw hk, ?_⟩
  rw [← vecPath_eq]
  refine State.trap_trapped ?_ _ _ (vecPath_lt k)
  have hu : u.me = s.me := State.me_of_actors (by rw [← s.actors_spadBarred s.myCoreIx _, hw])
  rw [State.me_modMe, hu]
  exact hm

/-- Settles O21: each of the words is `vecIssue`, whose trap and whose check the lemmas above give. -/
theorem vectorChecksTrap : Obligations.VectorChecksTrap := by
  unfold Obligations.VectorChecksTrap
  intro s o a b ty imm x y hm hc p hp v cap outside_
  have issue : exec p.1 s = s.vecIssue p.2.1 p.2.2 ty o a b := by
    revert p
    simp only [List.forall_mem_cons, List.not_mem_nil, false_implies, implies_true, and_true]
    refine ⟨rfl, rfl, rfl, rfl, rfl, rfl, rfl, rfl, rfl, rfl, rfl, rfl, rfl, rfl, rfl, rfl, rfl, rfl, rfl, rfl, rfl, rfl, rfl, rfl,
      rfl, rfl, rfl, rfl, rfl, rfl, rfl, rfl⟩
  refine ⟨fun w u cause tval hw hk => ?_, fun ha ho => ⟨v.check_barred ha ho, v.check_reserved ha ho⟩, fun ha => ?_⟩
  · rw [issue]
    exact State.vecIssue_traps o hm hc hw hk
  · obtain ⟨n, hn, hmem, hle⟩ := v.alnValues_least ha
    exact ⟨n, v.check_misaligned hn, hmem, hle⟩

end Sys2Proof.Machine
end

section
/-!
O47: the recovery events.  With the error log off (R325) each event is one or two changes of single agents, which the lemmas of this part
give; the scrub of SRAM is a whole-word write, which makes the word good (R323).
-/

namespace Sys2Proof.Machine

/-! ### Bytes and memories -/

@[simp] theorem length_leBytes (n x : Nat) : (leBytes n x).length = n := by
  induction n generalizing x with
  | zero => rfl
  | succ n ih => simp [leBytes, ih]

theorem Mem.readN_one (m : Mem) (a : Nat) : m.readN a 1 = [m.read a] := by
  simp [Mem.readN_eq, iota]

/-- The bytes written are read back. -/
theorem Mem.readN_writeN {m : Mem} (h : m.wf = true) (a : Nat) (bs : List Byte) : (m.writeN a bs).readN a bs.length = bs := by
  rw [Mem.readN_eq]
  refine List.ext_getElem (by simp [iota]) fun i h1 h2 => ?_
  simp [iota, Mem.read_writeN _ _ _ _ h, h2]

/-- A byte outside those written reads as before. -/
theorem Mem.readN_writeN_outside {m : Mem} (h : m.wf = true) {a b : Nat} (bs : List Byte) (hb : b < a ∨ a + bs.length ≤ b) :
    (m.writeN a bs).readN b 1 = m.readN b 1 := by
  rw [Mem.readN_one, Mem.readN_one, Mem.read_writeN _ _ _ _ h, if_neg (by omega)]

/-- A write of a whole word discards nothing and leaves the word good (R323). -/
theorem Mem.put_word (m : Mem) (bad : List Nat) (w : Nat) (bs : List Byte) (h : bs.length = 8) :
    ∃ bad', Mem.put 8 m bad (w * 8) bs = (m.writeN (w * 8) bs, bad', []) ∧ w ∉ bad' := by
  let hit := bad.filter fun v => w * 8 < (v + 1) * 8 ∧ v * 8 < w * 8 + bs.length
  let whole := hit.filter fun v => w * 8 ≤ v * 8 ∧ (v + 1) * 8 ≤ w * 8 + bs.length
  have hwhole : ∀ v ∈ hit, v ∈ whole := by
    intro v hv
    have hv' := (List.mem_filter.1 hv).2
    simp only [decide_eq_true_eq] at hv'
    exact List.mem_filter.2 ⟨hv, by simp only [decide_eq_true_eq]; omega⟩
  have hlost : hit.filter (fun v => !whole.contains v) = [] :=
    List.filter_eq_nil_iff.2 fun v hv => by simpa using hwhole v hv
  refine ⟨bad.filter fun v => !whole.contains v, ?_, ?_⟩
  · change (if (hit.filter fun v => !whole.contains v).isEmpty then m.writeN (w * 8) bs else _, _,
      hit.filter fun v => !whole.contains v) = _
    rw [hlost]
    rfl
  · intro hmem
    obtain ⟨hb, hn⟩ := List.mem_filter.1 hmem
    have hw : w ∈ hit := List.mem_filter.2 ⟨hb, by simp only [decide_eq_true_eq]; omega⟩
    simp [hwhole w hw] at hn

/-! ### Clusters (R34, R321) -/

/-- A cause that is not pending yet joins the others (R52). -/
theorem Cluster.addPend_new {c : Cluster} {k : Cause} (h : ∀ p ∈ c.pend, p.cause ≠ k) (v : Word) :
    c.addPend k v = { c with pend := c.pend ++ [⟨k, v, noPath⟩] } := by
  have hf : c.pend.filter (fun p => p.cause != k) = c.pend := List.filter_eq_self.2 fun p hp => by simpa using h p hp
  rw [Cluster.addPend, hf]

theorem execSyncWaitWatchdog_fires {s : State} {c : CluIx} (hr : (s.cluster c).record.isSome = true)
    (hs : (s.cluster c).syncWait = true) (h0 : 0 < (s.core (coreOf c)).syncwd.toNat)
    (hlt : (s.core (coreOf c)).syncwd.toNat < (s.cluster c).syncAge) (hn : ∀ p ∈ (s.cluster c).pend, p.cause ≠ .wdg) :
    exec (.syncWaitWatchdog c) s = .next (s.setCluster c { s.cluster c with pend := (s.cluster c).pend ++ [⟨.wdg, 1, noPath⟩] }) := by
  have hany : (s.cluster c).pend.any (fun p => p.cause == .wdg) = false := by
    rw [List.any_eq_false]
    exact fun p hp => by simpa using hn p hp
  change execSyncWaitWatchdog c s = _
  rw [← Cluster.addPend_new hn]
  simp [execSyncWaitWatchdog, hr, hs, h0.ne', hlt, hany, State.modCluster]

/-- A word whose error was detected for the first or second time is performed again (R321). -/
theorem execPipelineReplay_again {s : State} {c : CluIx} (hr : (s.cluster c).record.isSome = true) (hh : (s.cluster c).held = false)
    (hb : s.hasBegun c = false) (hl : bit (s.die (dieOfClu c)).elbase 0 = false) (h : (s.cluster c).replays < 2) :
    exec (.pipelineReplay c) s = .next (s.setCluster c ((s.cluster c).again ((s.cluster c).replays + 1))) := by
  change execPipelineReplay c s = _
  have hn : (s.cluster c).record.isNone = false := by simpa [Option.isSome_iff_ne_none] using hr
  simp only [execPipelineReplay, hn, hh, hb, Bool.or_self, Bool.false_eq_true, if_false, if_pos h]
  rw [State.log_off (by exact hl)]
  rfl

/-- The third time the cluster takes MCK (R321). -/
theorem execPipelineReplay_mck {s : State} {c : CluIx} (hr : (s.cluster c).record.isSome = true) (hh : (s.cluster c).held = false)
    (hb : s.hasBegun c = false) (hl : bit (s.die (dieOfClu c)).elbase 0 = false) (h : 2 ≤ (s.cluster c).replays) :
    exec (.pipelineReplay c) s = .next (s.setCluster c (((s.cluster c).again 0).addPend .mck 2)) := by
  change execPipelineReplay c s = _
  have hn : (s.cluster c).record.isNone = false := by simpa [Option.isSome_iff_ne_none] using hr
  simp only [execPipelineReplay, hn, hh, hb, Bool.or_self, Bool.false_eq_true, if_false, if_neg (Nat.not_lt.2 h)]
  rw [State.log_off (by exact hl)]
  rfl

/-! ### Links (R318) -/

theorem State.linkBusy_of {s : State} {l : LinkIx}
    (h : (∃ f ∈ s.flits, f.link = some l) ∨ ∃ c ∈ allClusters, s.requestOn l c = true) : s.linkBusy l = true := by
  rw [State.linkBusy, Bool.or_eq_true, List.any_eq_true, List.any_eq_true]
  rcases h with ⟨f, hf, hl⟩ | h
  · exact .inl ⟨f, hf, by simp [hl]⟩
  · exact .inr h

/-- A link that does not retrain, with something under way (R318). -/
theorem execFlitCrcRetry_busy {s : State} {l : LinkIx} (hr : (s.link l).retraining = false) (hb : s.linkBusy l = true) :
    exec (.flitCrcRetry l) s = if (s.link l).retries < 16 then .next (s.modLink l fun x => { x with retries := x.retries + 1 })
      else .next (s.modLink l fun x => { x with retraining := true }) := by
  change execFlitCrcRetry l s = _
  simp [execFlitCrcRetry, hr, hb]

/-! ### Accesses that cannot be delivered (R310, R347) -/

theorem State.dropFlit_flits (s : State) (f : Flit) : (s.dropFlit f).flits = dropFirst (fun g => g.seq == f.seq) s.flits := by
  unfold State.dropFlit State.recordFlit
  split <;> rfl

theorem State.dropFlit_peek (s : State) (f : Flit) (l : Loc) : (s.dropFlit f).peek l 1 = s.peek l 1 := by
  refine State.peek_congr ?_ ?_ ?_ ?_ l 1 <;> (unfold State.dropFlit State.recordFlit; split <;> rfl)

theorem State.dropFlit_dies (s : State) (f : Flit) : (s.dropFlit f).dies = s.dies := by
  unfold State.dropFlit State.recordFlit
  split <;> rfl

/-- With the logs off a refused store is dropped alone (R325). -/
theorem State.logRefused_off {s : State} (h : ∀ d, bit (s.die d).elbase 0 = false) (here : DieIx) (home : Option DieIx)
    (addr lid : Nat) : s.logRefused here home addr lid = s := by
  unfold State.logRefused
  rw [State.log_off (h here)]
  cases home with
  | none => rfl
  | some d => exact State.log_off (h d) ..

/-- A posted access of a cluster that its home has not taken in time (R347). -/
theorem execFlitSendTimeout_posted {s : State} {n : Nat} {f : Flit} (hf : s.flits.find? (fun f => f.seq = n) = some f)
    (hh : s.homeReady f.dst = false) (ha : 3200000 ≤ f.age) (hg : f.agent = 0) (hl : ∀ d, bit (s.die d).elbase 0 = false) :
    exec (.flitSendTimeout n) s = .next (s.dropFlit f) := by
  change execFlitSendTimeout n s = _
  have he : f.engine = none := by simp [Flit.engine, hg]
  have hage : ¬f.age < sendTimeout := Nat.not_lt.2 ha
  have hoff : ∀ d, bit ((s.dropFlit f).die d).elbase 0 = false := fun d => by
    rw [State.die, s.dropFlit_dies]
    exact hl d
  simp only [execFlitSendTimeout, hf, hh, hage, he, State.flitRefused, State.logRefused_off hoff]
  rfl

theorem mem_allClusters (c : CluIx) : c ∈ allClusters := by
  simp only [allClusters, List.mem_filterMap, List.mem_range]
  exact ⟨c.val, c.isLt, by simp [c.isLt]⟩

/-- The one element that passes a test is the one found. -/
theorem find?_unique {α : Type} {p : α → Bool} {xs : List α} {a : α} (hm : a ∈ xs) (hp : p a = true)
    (hu : ∀ b, p b = true → b = a) :
    xs.find? p = some a := by
  obtain ⟨b, hb⟩ := Option.isSome_iff_exists.1 (List.find?_isSome.2 ⟨a, hm, hp⟩)
  rw [hb, hu b (List.find?_some hb)]

/-- A load or atomic that its home has not taken in time (R310, R347). -/
theorem execFlitSendTimeout_remote {s : State} {n : Nat} {c : CluIx} {r : Remote} (hf : ∀ f ∈ s.flits, f.seq ≠ n)
    (hr : (s.cluster c).remote = some r) (hn : r.seq = n)
    (hu : ∀ c' r', (s.cluster c').remote = some r' → r'.seq = n → c' = c) (he : r.executed = false)
    (hh : s.homeReady r.loc = false) (ha : 3200000 ≤ r.age) : exec (.flitSendTimeout n) s = .next (s.remoteTimeout c r) := by
  change execFlitSendTimeout n s = _
  have hnone : s.flits.find? (fun f => f.seq = n) = none :=
    List.find?_eq_none.2 fun f hm => by simpa using hf f hm
  have hage : ¬r.age < sendTimeout := Nat.not_lt.2 ha
  unfold execFlitSendTimeout
  rw [hnone]
  dsimp only
  rw [find?_unique (mem_allClusters c) (by simp [hr, hn]) fun b hb => ?_]
  · simp only [hr, he, hh, hage]
    rfl
  · cases hq : (s.cluster b).remote with
    | none => simp [hq] at hb
    | some q => exact hu b q hq (by simpa [hq] using hb)

/-- A cause met when data returns, in user mode: the word awaits nothing more, and the trap is taken (R33, R323). -/
theorem State.lateTrap_user {s : State} {c : CluIx} (hm : (s.cluster c).mode = .user) (r : Remote) (k : Cause) (p : Path) :
    s.lateTrap c r k p = { s.setCluster c (({ s.cluster c with remote := none } : Cluster).enterTrap (s.core (coreOf c)).secure false
      r.bundled r.bundled p.code k r.tval) with note := .late } := by
  have hm' : ((s.modCluster c fun x => { x with remote := none }).cluster c).mode = .user := by simpa using hm
  unfold State.lateTrap
  rw [State.takeTrap_user hm', State.cluster_modCluster]
  exact congrArg (fun t : State => { t with note := .late }) (s.setCluster_setCluster c _ _)

/-- A load or atomic refused late, with the log off (R310, R347). -/
theorem State.remoteTimeout_user {s : State} {c : CluIx} {r : Remote} (hm : (s.cluster c).mode = .user)
    (hl : ∀ d, bit (s.die d).elbase 0 = false) : ∃ p : Path, s.remoteTimeout c r = { s.setCluster c
      (({ s.cluster c with remote := none } : Cluster).enterTrap (s.core (coreOf c)).secure false r.bundled r.bundled p.code .prm
        r.tval) with note := .late } := by
  unfold State.remoteTimeout
  rw [State.log_off (hl _)]
  exact ⟨_, State.lateTrap_user hm r .prm _⟩

theorem Path.code_lt (p : Path) : p.code < 8 := by cases p <;> decide

/-! ### Patrol scrub (R323, R324) -/

theorem State.countUnc_unc (s : State) (d : DieIx) : ((s.countUnc d 1).die d).unc = min (2 ^ 32 - 1) ((s.die d).unc + 1) := by
  rw [State.countUnc, State.die_modDie]
  exact Nat.min_comm _ _

/-- Counting an error leaves memory alone. -/
@[simp] theorem State.countUnc_peek (s : State) (d : DieIx) (n : Nat) (l : Loc) (m : Nat) : (s.countUnc d n).peek l m = s.peek l m :=
  s.peek_modDie d _ rfl rfl l m

@[simp] theorem State.countUnc_elbase (s : State) (d e : DieIx) (n : Nat) :
    ((s.countUnc d n).die e).elbase = (s.die e).elbase := by
  by_cases h : e = d
  · subst h
    simp [State.countUnc]
  · simp [State.countUnc, State.die_modDie_ne _ _ h]

/-- What a read of lane memory corrects is counted apart, with the log off (R320, R325). -/
theorem State.correctBeats_keeps {s : State} {d : DieIx} (h : bit (s.die d).elbase 0 = false) (bs : List Nat) :
    ((s.correctBeats d bs).die d).unc = (s.die d).unc ∧ ∀ l, (s.correctBeats d bs).peek l 1 = s.peek l 1 := by
  have kept : bit ((s.correctBeats d bs).die d).elbase 0 = false ∧ ((s.correctBeats d bs).die d).unc = (s.die d).unc ∧
      ∀ l, (s.correctBeats d bs).peek l 1 = s.peek l 1 := by
    unfold State.correctBeats
    refine List.foldlRecOn (motive := fun t : State => bit (t.die d).elbase 0 = false ∧ (t.die d).unc = (s.die d).unc ∧
      ∀ l, t.peek l 1 = s.peek l 1) bs _ ⟨h, rfl, fun _ => rfl⟩ fun t ht b _ => ?_
    obtain ⟨hoff, hunc, hpeek⟩ := ht
    split
    · exact ⟨hoff, hunc, hpeek⟩
    · split
      · exact ⟨hoff, hunc, hpeek⟩
      · rw [State.correctBeat, State.log_off (by simpa using hoff)]
        exact ⟨by simpa using hoff, by simpa using hunc, fun l => (t.peek_modDie d _ rfl rfl l 1).trans (hpeek l)⟩
  exact kept.2

/-- The shadows of lane memory are no part of what is counted or of memory (R277). -/
theorem State.touchRows_keeps (s : State) (d : DieIx) (a n : Nat) :
    ((s.touchRows d a n).die d).unc = (s.die d).unc ∧ ∀ l, (s.touchRows d a n).peek l 1 = s.peek l 1 := by
  unfold State.touchRows
  refine List.foldlRecOn (motive := fun t : State => (t.die d).unc = (s.die d).unc ∧ ∀ l, t.peek l 1 = s.peek l 1)
    (unitsOf 2048 a n) _ ⟨rfl, fun _ => rfl⟩ fun t ht r _ => ?_
  obtain ⟨hunc, hpeek⟩ := ht
  refine ⟨by simpa [State.touchRow] using hunc, fun l => (?_ : _ = _).trans (hpeek l)⟩
  exact t.peek_modDie d (fun _ => t.touchRow d r) rfl rfl l 1

theorem State.readDram_keeps {s : State} {d : DieIx} (h : bit (s.die d).elbase 0 = false) (a n : Nat) :
    ((s.readDram (.dram d a) n).die d).unc = (s.die d).unc ∧ ∀ l, (s.readDram (.dram d a) n).peek l 1 = s.peek l 1 := by
  obtain ⟨hu, hp⟩ := State.correctBeats_keeps h ((s.framesMoved d a n).flatMap fun f => iota (8 * f) 8)
  obtain ⟨hu', hp'⟩ := (s.correctBeats d ((s.framesMoved d a n).flatMap fun f => iota (8 * f) 8)).touchRows_keeps d a n
  exact ⟨hu'.trans hu, fun l => (hp' l).trans (hp l)⟩

/-- Scrub finds a data beat that cannot be corrected (R323, R324). -/
theorem execPatrolScrub_dram {s : State} {d : DieIx} {a : Nat} (hl : bit (s.die d).elbase 0 = false)
    (h : a / 128 ∈ (s.die d).dramBad ∨ s.beatFails d (a / 128) = true) :
    exec (.patrolScrub d .dram a) s = .next ((s.countUnc d 1).readDram (.dram d (a / 128 * 128)) 128) := by
  change execPatrolScrub d .dram a s = _
  have hbad : ((s.die d).dramBad.contains (a / 128) || s.beatFails d (a / 128)) = true := by simpa using h
  simp only [execPatrolScrub, hbad, if_true]
  rw [State.log_off (by simpa using hl)]

/-- The poison word as bytes (R323). -/
def poisonBytes : List Byte := leBytes 8 Config.poisonWord.toNat

theorem length_poisonBytes : poisonBytes.length = 8 := length_leBytes 8 _

/-- A word of poison is read back (R323). -/
theorem Mem.readN_poison {m : Mem} (h : m.wf = true) (a : Nat) :
    (m.writeN a poisonBytes).readN a 8 = leBytes 8 Config.poisonWord.toNat := by
  have e := Mem.readN_writeN h a poisonBytes
  rwa [length_poisonBytes] at e

/-- Poison stored over a word of hub SRAM (R323). -/
theorem State.store_hub (s : State) (d : DieIx) (w : Nat) : ∃ bad, w ∉ bad ∧ s.store (.hub d (w * 8)) poisonBytes =
    s.setDie d { s.die d with hub := (s.die d).hub.writeN (w * 8) poisonBytes, hubBad := bad } := by
  obtain ⟨bad, e, hw⟩ := Mem.put_word (s.die d).hub (s.die d).hubBad w poisonBytes length_poisonBytes
  refine ⟨bad, hw, ?_⟩
  simp only [State.store, State.mergeBeats, State.poke, e]
  rfl

/-- Poison stored over a word of a scratchpad (R323). -/
theorem State.store_spad (s : State) (k : CoreIx) (w : Nat) : ∃ bad, w ∉ bad ∧ ∃ dirty, s.store (.spad k (w * 8)) poisonBytes =
    s.setCore k { s.core k with spad := (s.core k).spad.writeN (w * 8) poisonBytes, spadBad := bad, sdirty := dirty } := by
  obtain ⟨bad, e, hw⟩ := Mem.put_word (s.core k).spad (s.core k).spadBad w poisonBytes length_poisonBytes
  refine ⟨bad, hw, insertAll (unitsOf 4096 (w * 8) poisonBytes.length) (s.core k).sdirty, ?_⟩
  simp only [State.store, State.mergeBeats, State.poke, e]
  rfl

theorem State.dieOf_coreAt {s : State} {d : DieIx} {n : Nat} {k : CoreIx} (h : s.coreAt d n = some k) : dieOf k = d :=
  mem_coresOf.1 (List.mem_filter.1 (List.mem_of_getElem? h)).1

/-- Scrub writes poison over a bad word of hub SRAM (R323). -/
theorem execPatrolScrub_hub {s : State} {d : DieIx} {a : Nat} (hl : bit (s.die d).elbase 0 = false) (h : a / 8 ∈ (s.die d).hubBad) :
    ∃ bad, a / 8 ∉ bad ∧ exec (.patrolScrub d .hubSram a) s = .next ((s.setDie d { s.die d with
      hub := (s.die d).hub.writeN (a / 8 * 8) poisonBytes, hubBad := bad }).countUnc d 1) := by
  obtain ⟨bad, hw, e⟩ := s.store_hub d (a / 8)
  refine ⟨bad, hw, ?_⟩
  change execPatrolScrub d .hubSram a s = _
  have hbad : (s.die d).hubBad.contains (a / 8) = true := by simpa using h
  simp only [execPatrolScrub, hbad, if_true, State.scrubWord]
  rw [← poisonBytes, e, State.log_off (by simpa using hl)]

/-- Scrub writes poison over a bad word of a scratchpad (R323). -/
theorem execPatrolScrub_spad {s : State} {d : DieIx} {a n : Nat} {k : CoreIx} (hk : s.coreAt d n = some k)
    (hl : bit (s.die d).elbase 0 = false) (h : a / 8 ∈ (s.core k).spadBad) :
    ∃ bad, a / 8 ∉ bad ∧ ∃ dirty, exec (.patrolScrub d (.scratchpad n) a) s = .next ((s.setCore k { s.core k with
      spad := (s.core k).spad.writeN (a / 8 * 8) poisonBytes, spadBad := bad, sdirty := dirty }).countUnc d 1) := by
  obtain ⟨bad, hw, dirty, e⟩ := s.store_spad k (a / 8)
  refine ⟨bad, hw, dirty, ?_⟩
  change execPatrolScrub d (.scratchpad n) a s = _
  have hbad : (s.core k).spadBad.contains (a / 8) = true := by simpa using h
  simp only [execPatrolScrub, hk, hbad, if_true, State.scrubWord]
  rw [← poisonBytes, e, State.log_off (by simpa using hl)]

/-- Scrub writes poison over a bad word of an instruction memory (R323, R333). -/
theorem execPatrolScrub_imem {s : State} {d : DieIx} {a n : Nat} {k : CoreIx} (hk : s.coreAt d n = some k)
    (hl : bit (s.die d).elbase 0 = false) (h : a / 8 ∈ (s.core k).imemBad) :
    ∃ dirty, exec (.patrolScrub d (.imem n) a) s = .next ((s.setCore k { s.core k with
      imem := (s.core k).imem.writeN (8 * (a / 8)) poisonBytes, imemBad := (s.core k).imemBad.filter (· != a / 8)
      idirty := dirty }).countUnc d 1) := by
  obtain rfl := State.dieOf_coreAt hk
  refine ⟨insertNat (8 * (a / 8) / 4096) (s.core k).idirty, ?_⟩
  change execPatrolScrub _ (.imem n) a s = _
  have hbad : (s.core k).imemBad.contains (a / 8) = true := by simpa using h
  simp only [execPatrolScrub, hk, hbad, if_true, State.scrubImem]
  rw [State.log_off (by simpa using hl)]
  rfl

/-- Settles O47: each clause is one event, whose next state the lemmas above give. -/
theorem recoveryEvents : Obligations.RecoveryEvents := by
  unfold Obligations.RecoveryEvents
  refine ⟨fun s c => ⟨fun hr hs h0 hlt hn => ⟨_, execSyncWaitWatchdog_fires hr hs h0 hlt hn, rfl⟩, fun hr hh hb hl =>
      ⟨fun h => ⟨_, execPipelineReplay_again hr hh hb hl h, rfl⟩, fun h => ⟨_, execPipelineReplay_mck hr hh hb hl h, rfl⟩⟩⟩,
    fun s l => ⟨fun hr hb => ⟨fun h => ?_, fun h => ?_⟩, fun hr => ⟨_, if_pos hr, rfl⟩⟩,
    fun s n f hf hh ha hg hl => ?_, fun s n c r hf hr hn hu he hh ha hm hl => ?_,
    fun s d a hl => ⟨fun h => ?_, fun h hwf => ?_, fun n k hk h hwf => ?_, fun n k hk h hwf => ?_⟩⟩
  · exact ⟨_, (execFlitCrcRetry_busy hr (State.linkBusy_of hb)).trans (if_pos h), rfl⟩
  · exact ⟨_, (execFlitCrcRetry_busy hr (State.linkBusy_of hb)).trans (if_neg (Nat.not_lt.2 h)), rfl⟩
  · have hseq : f.seq = n := by simpa using List.find?_some hf
    exact ⟨_, execFlitSendTimeout_posted hf hh ha hg hl, s.dropFlit_peek f, hseq ▸ s.dropFlit_flits f⟩
  · refine ⟨_, execFlitSendTimeout_remote hf hr hn hu he hh ha, ?_⟩
    obtain ⟨p, e⟩ := State.remoteTimeout_user (r := r) hm hl
    have hc : (s.remoteTimeout c r).cluster c = ({ s.cluster c with remote := none } : Cluster).enterTrap
        (s.core (coreOf c)).secure false r.bundled r.bundled p.code .prm r.tval := by
      rw [e]
      exact s.cluster_setCluster c _
    have took := Cluster.enterTrap_took false r.bundled .prm p.code_lt { s.cluster c with remote := none }
      (s.core (coreOf c)).secure r.bundled r.tval rfl
    rw [← hc] at took
    refine ⟨?_, ?_, ?_, ?_, took.cause, took.async, ?_, took.mode, took.epc, took.pc, took.regs⟩
    · rw [e]
      exact fun l => State.peek_congr rfl rfl rfl rfl l 1
    · rw [e]
      rfl
    · rw [e]
      exact fun x hx => s.cluster_setCluster_ne _ hx
    · rw [hc]
      rfl
    · rw [hc]
      rfl
  · obtain ⟨hu, hp⟩ := State.readDram_keeps (s := s.countUnc d 1) (by simpa using hl) (a / 128 * 128) 128
    exact ⟨_, execPatrolScrub_dram hl h, hu.trans (State.countUnc_unc s d), fun l => (hp l).trans (s.countUnc_peek d 1 l 1)⟩
  · obtain ⟨bad, hw, e⟩ := execPatrolScrub_hub hl h
    refine ⟨_, e, (State.countUnc_unc _ d).trans (by simp), by simpa [State.countUnc] using hw, ?_, fun b hb => ?_⟩
    · rw [State.countUnc_peek]
      simpa [State.peek] using Mem.readN_poison hwf (a / 8 * 8)
    · rw [State.countUnc_peek]
      simpa [State.peek] using Mem.readN_writeN_outside hwf poisonBytes (a := a / 8 * 8) hb
  · obtain ⟨bad, hw, dirty, e⟩ := execPatrolScrub_spad hk hl h
    refine ⟨_, e, State.countUnc_unc _ d, by simpa [State.countUnc] using hw, ?_⟩
    rw [State.countUnc_peek]
    simpa [State.peek] using Mem.readN_poison hwf (a / 8 * 8)
  · obtain ⟨dirty, e⟩ := execPatrolScrub_imem hk hl h
    refine ⟨_, e, State.countUnc_unc _ d, by simp [State.countUnc], ?_⟩
    have hread := Mem.readN_poison hwf (8 * (a / 8))
    rw [Nat.mul_comm] at hread ⊢
    simpa [State.countUnc] using hread

end Sys2Proof.Machine
end

section
/-!
O56: bundles of ADDI words with at most one BRK, and words that are no instruction.  A bundle is fetched, tried word by word, and then
takes effect or takes its traps; each of these stages has its lemma, an induction over the words in cluster order.
-/

namespace Sys2Proof.Machine

/-- A change of a core that leaves its scratchpad alone leaves all memory alone. -/
theorem State.peek_modCore (s : State) (k : CoreIx) (f : Core → Core) (h : (f (s.core k)).spad = (s.core k).spad) (l : Loc) (n : Nat) :
    (s.modCore k f).peek l n = s.peek l n := by
  have same : ∀ j, ((s.modCore k f).core j).spad = (s.core j).spad := by
    intro j
    by_cases hj : j = k
    · subst hj; simp [h]
    · simp [State.core_modCore_ne _ _ hj]
  cases l with
  | spad j a => exact congrArg (Mem.readN · a n) (same j)
  | _ => rfl

/-- The fold of a step that one element alone takes. -/
theorem foldl_single {σ α : Type} {f : σ → α → σ} {a : α} {xs : List α} (hm : a ∈ xs) (hn : xs.Nodup)
    (hf : ∀ s b, b ≠ a → f s b = s) (s : σ) : xs.foldl f s = f s a := by
  have idle : ∀ ys : List α, a ∉ ys → ∀ t, ys.foldl f t = t := by
    intro ys
    induction ys with
    | nil => exact fun _ _ => rfl
    | cons y ys ih =>
      intro ha t
      rw [List.foldl_cons, hf t y fun e => ha (e ▸ List.mem_cons_self)]
      exact ih (fun h => ha (List.mem_cons_of_mem _ h)) t
  induction xs generalizing s with
  | nil => cases hm
  | cons x xs ih =>
    obtain ⟨hx, hn⟩ := List.nodup_cons.1 hn
    rw [List.foldl_cons]
    rcases List.mem_cons.1 hm with rfl | hm
    · exact idle xs hx _
    · rw [hf s x fun e => hx (e ▸ hm)]
      exact ih hm hn s

theorem clustersOf_nodup (k : CoreIx) : (clustersOf k).Nodup := by
  simp [clustersOf, Fin.ext_iff]

/-! ### Fetching a bundle (R30, R31) -/

/-- A cluster's word in a bundle: fetched as it stands, a word of a bundle, and no wait to go on with. -/
structure State.InBundle (s : State) (c : CluIx) (i : Instr) : Prop where
  word : s.fetch c = ((s.core (coreOf c)).wordAt (s.cluster c).pc, s)
  decoded : decodeFor c ((s.core (coreOf c)).wordAt (s.cluster c).pc) = some ⟨true, i⟩
  together : (s.cluster c).issuesAlone ⟨true, i⟩ = false

theorem State.bundleWords_eq {s : State} {i : CluIx → Instr} {cs : List CluIx} (h : ∀ c ∈ cs, s.InBundle c (i c)) :
    s.bundleWords cs = (some (cs.map fun c => (c, i c)), s) := by
  induction cs with
  | nil => rfl
  | cons c cs ih =>
    obtain ⟨word, decoded, together⟩ := h c List.mem_cons_self
    simp only [State.bundleWords, word, decoded, together, ih fun d hd => h d (List.mem_cons_of_mem _ hd), Bool.false_eq_true, if_false,
      List.map_cons]

/-! ### A word tried (R31) -/

/-- A cluster after ADDI (R68, R77). -/
def Cluster.addi (x : Cluster) (d a : Reg) (im : BitVec 15) : Cluster := (x.setG d (x.g a + simm15 im)).advance

/-- ADDI tried in a state: it completes, and changes its cluster alone. -/
theorem State.tryWord_addi (s : State) (c : CluIx) (d a : Reg) (im : BitVec 15) :
    s.tryWord (c, .addi d a im) = { s.setCluster c ((s.cluster c).addi d a im) with focus := c, note := .done } := by
  have h : wordMeaning (.addi d a im) { s with focus := c, note := .done } =
      .next (State.finish { s with focus := c, note := .done } d ((s.cluster c).g a + simm15 im)) := by
    unfold wordMeaning
    rw [show barsDual (.addi d a im) = false from rfl, Bool.and_false]
    rfl
  unfold State.tryWord
  rw [h]
  simp only [State.finish, State.advance, State.setG, State.modMe_modMe]
  rfl

theorem Core.withRings_spad (x was : Core) : (x.withRings was).spad = x.spad := by
  unfold Core.withRings
  rfl

/-- What a word reads of configuration registers and rings is no cluster, no byte of memory and no note (R31). -/
theorem State.operandsOf_keeps (s s0 : State) (k : CoreIx) (i : Instr) : (s.operandsOf s0 k i).clusters = s.clusters ∧
    (s.operandsOf s0 k i).note = s.note ∧ ∀ l n, (s.operandsOf s0 k i).peek l n = s.peek l n := by
  have config : ∀ l n, ((s.modCore k fun x => x.withConfig (s0.core k)).modDie (dieOf k) fun x =>
      x.withConfig (s0.die (dieOf k))).peek l n = s.peek l n := fun l n =>
    (State.peek_modDie _ _ _ rfl rfl l n).trans (s.peek_modCore k _ rfl l n)
  unfold State.operandsOf
  split
  · exact ⟨rfl, rfl, fun _ _ => rfl⟩
  · dsimp only
    split
    · exact ⟨rfl, rfl, config⟩
    · exact ⟨rfl, rfl, fun l n =>
        (State.peek_modCore _ k (fun x => x.withRings (s0.core k)) (Core.withRings_spad _ _) l n).trans (config l n)⟩

/-- ADDI reads no register plane and no unit, and waits for none, so that its view is that of its operands (R31). -/
theorem State.viewed_addi (s s0 : State) (k : CoreIx) (d a : Reg) (im : BitVec 15) :
    s.viewed s0 k (.addi d a im) = (s.operandsOf s0 k (.addi d a im)).modMx k id := rfl

theorem State.merged_addi (t s s0 : State) (k : CoreIx) (c : CluIx) (d a : Reg) (im : BitVec 15) :
    t.merged s s0 k (c, .addi d a im) = (t.operandsOf s k (.addi d a im)).modMx k id := rfl

theorem State.wordAfter_addi_eq (s s0 alone : State) (c : CluIx) (d a : Reg) (im : BitVec 15) :
    s.wordAfter s0 alone (c, .addi d a im) =
      ((s.viewed s0 (coreOf c) (.addi d a im)).tryWord (c, .addi d a im)).merged s s0 (coreOf c) (c, .addi d a im) := by
  have only : readsOnly (.addi d a im) = false := rfl
  have shared : readsShared (.addi d a im) = false := rfl
  simp only [State.wordAfter, only, shared, Bool.false_eq_true, if_false]

/-- ADDI after the words before it: it completes, and changes its cluster alone. -/
theorem State.wordAfter_addi (s s0 alone : State) (c : CluIx) (d a : Reg) (im : BitVec 15) :
    let t := s.wordAfter s0 alone (c, .addi d a im)
    t.note = .done ∧ t.clusters = (s.setCluster c ((s.cluster c).addi d a im)).clusters ∧ ∀ l, t.peek l 1 = s.peek l 1 := by
  intro t
  let u := (s.operandsOf s0 (coreOf c) (.addi d a im)).modMx (coreOf c) id
  let v := u.tryWord (c, .addi d a im)
  have ht : t = (v.operandsOf s (coreOf c) (.addi d a im)).modMx (coreOf c) id := by
    rw [← State.merged_addi v s s0 _ c]
    exact s.wordAfter_addi_eq s0 alone c d a im
  obtain ⟨hc, -, hp⟩ := s.operandsOf_keeps s0 (coreOf c) (.addi d a im)
  obtain ⟨hc', hn', hp'⟩ := v.operandsOf_keeps s (coreOf c) (.addi d a im)
  have hv : v = { u.setCluster c ((u.cluster c).addi d a im) with focus := c, note := .done } := u.tryWord_addi c d a im
  have hu : u.clusters = s.clusters := hc
  refine ⟨?_, ?_, fun l => ?_⟩
  · rw [ht]
    exact hn'.trans (by rw [hv])
  · rw [ht]
    refine hc'.trans ?_
    rw [hv]
    change (u.setCluster c ((u.cluster c).addi d a im)).clusters = _
    simp only [State.setCluster, State.cluster, hu]
  · calc t.peek l 1 = (v.operandsOf s (coreOf c) (.addi d a im)).peek l 1 := by
          rw [ht]
          exact State.peek_modCore _ _ _ rfl l 1
      _ = v.peek l 1 := hp' l 1
      _ = u.peek l 1 := by
          rw [hv]
          exact State.peek_congr rfl rfl rfl rfl l 1
      _ = (s.operandsOf s0 (coreOf c) (.addi d a im)).peek l 1 := State.peek_modCore _ _ _ rfl l 1
      _ = s.peek l 1 := hp l 1

/-! ### The words of a bundle in turn (R31) -/

theorem State.cluster_of_setCluster {s t : State} {c : CluIx} {x : Cluster} (h : t.clusters = (s.setCluster c x).clusters) :
    t.cluster c = x ∧ ∀ j, j ≠ c → t.cluster j = s.cluster j := by
  have e : ∀ j, t.cluster j = (s.setCluster c x).cluster j := fun j => by rw [State.cluster, h]; rfl
  exact ⟨(e c).trans (s.cluster_setCluster c x), fun j hj => (e j).trans (s.cluster_setCluster_ne x hj)⟩

/-- ADDI words one after another: none traps or waits, each changes its own cluster, and no byte of memory changes. -/
theorem State.runWords_addi (s0 : State) (d a : CluIx → Reg) (im : CluIx → BitVec 15) (cs : List CluIx) (hn : cs.Nodup)
    (traps : List CluIx) (waits : Bool) (s : State) :
    let r := State.runWords s0 (cs.map fun c => (c, .addi (d c) (a c) (im c))) (traps, waits, s)
    r.1 = traps ∧ r.2.1 = waits ∧ (∀ l, r.2.2.peek l 1 = s.peek l 1) ∧
      ∀ c, r.2.2.cluster c = if c ∈ cs then (s.cluster c).addi (d c) (a c) (im c) else s.cluster c := by
  induction cs generalizing s with
  | nil => exact ⟨rfl, rfl, fun _ => rfl, fun c => by simp [State.runWords]⟩
  | cons c cs ih =>
    obtain ⟨hc, hn⟩ := List.nodup_cons.1 hn
    let alone := s0.tryWord (c, .addi (d c) (a c) (im c))
    let here := s.wordAfter s0 alone (c, .addi (d c) (a c) (im c))
    have ha : alone.note = .done := by
      change (s0.tryWord _).note = _
      rw [State.tryWord_addi]
    obtain ⟨hnote, hclu, hpeek⟩ := s.wordAfter_addi s0 alone c (d c) (a c) (im c)
    obtain ⟨hme, hothers⟩ := State.cluster_of_setCluster hclu
    have step : State.runWords s0 ((c :: cs).map fun c => (c, .addi (d c) (a c) (im c))) (traps, waits, s) =
        State.runWords s0 (cs.map fun c => (c, .addi (d c) (a c) (im c))) (traps, waits, here) := by
      simp only [List.map_cons, State.runWords]
      rw [show (s0.tryWord (c, .addi (d c) (a c) (im c))).note = .done from ha, show (s.wordAfter s0 _ _).note = .done from hnote]
      have quiet : (Note.done == Note.waited) = false := rfl
      simp [here, alone, quiet]
    rw [step]
    obtain ⟨htraps, hwaits, hmem, hall⟩ := ih hn here
    refine ⟨htraps, hwaits, fun l => (hmem l).trans (hpeek l), fun e => ?_⟩
    rw [hall e]
    by_cases he : e = c
    · subst he
      simp [hc, here, hme]
    · simp [he, here, hothers e he]

/-- Of words that trap alone at one cluster and are ADDI at the others, the one traps. -/
theorem State.runWords_traps (s0 : State) (b : CluIx) (i : CluIx → Instr) (cs : List CluIx)
    (hb : (s0.tryWord (b, i b)).note = .trapped) (ha : ∀ c ∈ cs, c ≠ b → ∃ d a im, i c = .addi d a im)
    (traps : List CluIx) (waits : Bool) (s : State) :
    (State.runWords s0 (cs.map fun c => (c, i c)) (traps, waits, s)).1 = traps ++ cs.filter (· == b) := by
  induction cs generalizing traps waits s with
  | nil => simp [State.runWords]
  | cons c cs ih =>
    have rest := ih fun e he => ha e (List.mem_cons_of_mem _ he)
    simp only [List.map_cons, State.runWords]
    by_cases hc : c = b
    · subst hc
      rw [rest]
      simp [hb]
    · obtain ⟨d, a, im, hi⟩ := ha c List.mem_cons_self hc
      obtain ⟨hnote, -, -⟩ := s.wordAfter_addi s0 (s0.tryWord (c, .addi d a im)) c d a im
      have halone : (s0.tryWord (c, .addi d a im)).note = .done := by rw [State.tryWord_addi]
      have quiet : (Note.done == Note.trapped) = false := rfl
      rw [rest, hi, hnote, halone]
      simp [hc, quiet]

/-! ### A bundle of ADDI words (R26, R30, R77) -/

theorem Cluster.bundled_bundled (c : Cluster) : c.bundled.bundled = c.bundled := by
  simp only [Cluster.bundled, Option.map_map]
  rfl

/-- The clusters of a core after its bundle has issued. -/
def State.leaveBundle (s : State) (k : CoreIx) : State :=
  (clustersOf k).foldl (fun (acc : State) c => acc.modCluster c Cluster.bundled) s

theorem State.cluster_leaveBundle (s : State) (k : CoreIx) (c : CluIx) :
    (s.leaveBundle k).cluster c = if c ∈ clustersOf k then (s.cluster c).bundled else s.cluster c :=
  foldl_read State.cluster (fun s c => s.modCluster c Cluster.bundled) (fun _ => Cluster.bundled)
    (fun s c => s.cluster_modCluster c _) (fun s _ _ h => s.cluster_modCluster_ne _ h) (fun _ => Cluster.bundled_bundled) _ s c

theorem State.peek_leaveBundle (s : State) (k : CoreIx) (l : Loc) : (s.leaveBundle k).peek l 1 = s.peek l 1 := by
  unfold State.leaveBundle
  exact foldl_keeps (fun s : State => s.peek l 1) (fun acc c => acc.modCluster c Cluster.bundled)
    (fun _ _ => State.peek_congr rfl rfl rfl rfl l 1) _ s

/-- ADDI in a bundle writes its register, moves on, and ends the sync wait (R30, R68, R77). -/
theorem Cluster.addi_bundled (x : Cluster) (d a : Reg) (im : BitVec 15) :
    x.Takes (x.addi d a im).bundled d (x.g a + im.signExtend 64) ∧ x.Follows (x.addi d a im).bundled ∧
      (x.addi d a im).bundled.syncWait = false := by
  have hg : ∀ r, (x.addi d a im).bundled.g r = (x.setG d (x.g a + im.signExtend 64)).g r := fun r => Cluster.advance_g _ r
  have hf : x.Follows (x.addi d a im) := by
    simpa [Cluster.Follows, Cluster.addi] using (x.setG d (x.g a + simm15 im)).advance_follows
  exact ⟨(x.setG_takes d _).congr hg, hf, rfl⟩

/-- A formed bundle whose words are fetched as they stand (R30 to R33). -/
theorem execBundleIssue_eq {s : State} {k : CoreIx} {i : CluIx → Instr} (hf : s.bundleFormed k = true)
    (h : ∀ c ∈ clustersOf k, s.InBundle c (i c)) :
    let ws := (clustersOf k).map fun c => (c, i c)
    let s1 : State := { s with bundling := true }
    let r := State.runWords s1 ws ([], false, s1)
    exec (.bundleIssue k) s =
      if !r.1.isEmpty then .next { s1.bundleTraps ws r.1 r.2.2 with focus := s.focus, bundling := false, note := .trapped }
      else if r.2.1 then s.stutter
      else .next { r.2.2.leaveBundle k with focus := s.focus, bundling := false, note := .done } := by
  intro ws s1 r
  change execBundleIssue k s = _
  simp only [execBundleIssue, hf, State.bundleWords_eq h]
  rfl

/-- A formed bundle of ADDI words takes effect (R30, R31). -/
theorem execBundleIssue_addi {s : State} {k : CoreIx} {d a : CluIx → Reg} {im : CluIx → BitVec 15} (hf : s.bundleFormed k = true)
    (h : ∀ c ∈ clustersOf k, s.InBundle c (.addi (d c) (a c) (im c))) :
    ∃ t, exec (.bundleIssue k) s = .next t ∧ s.SameMemory t ∧
      ∀ c, t.cluster c = if c ∈ clustersOf k then ((s.cluster c).addi (d c) (a c) (im c)).bundled else s.cluster c := by
  have words := State.runWords_addi { s with bundling := true } d a im (clustersOf k) (clustersOf_nodup k) [] false
    { s with bundling := true }
  have e := execBundleIssue_eq (i := fun c => .addi (d c) (a c) (im c)) hf h
  dsimp only at words e
  revert words e
  generalize State.runWords { s with bundling := true } _ _ = r
  rintro ⟨htraps, hwaits, hmem, hall⟩ e
  rw [htraps, hwaits] at e
  refine ⟨_, e, fun l => ?_, fun c => ?_⟩
  · refine (State.peek_congr rfl rfl rfl rfl l 1).trans ((State.peek_leaveBundle r.2.2 k l).trans ((hmem l).trans ?_))
    exact State.peek_congr rfl rfl rfl rfl l 1
  · refine (State.cluster_leaveBundle r.2.2 k c).trans ?_
    rw [hall c]
    split <;> rfl

/-! ### A bundle in which one word traps (R33) -/

/-- The one trap of a bundle is that of its word tried on the state before the bundle. -/
theorem State.bundleTraps_one {s : State} {b : CluIx} {i : CluIx → Instr} {cs traps : List CluIx} (hm : b ∈ cs) (hn : cs.Nodup)
    (ht : ∀ c, traps.contains c = (c == b)) (hb : (s.tryWord (b, i b)).note = .trapped) (last : State) :
    s.bundleTraps (cs.map fun c => (c, i c)) traps last = s.tryWord (b, i b) := by
  unfold State.bundleTraps
  rw [List.foldl_map, foldl_single hm hn fun t c hc => if_neg (by rw [ht, beq_iff_eq]; exact hc)]
  rw [if_pos (by rw [ht]; exact beq_self_eq_true b)]
  exact if_pos (by rw [hb]; rfl)

/-- A formed bundle in which one word traps, tried alone, and the others are ADDI: that trap is its effect (R33). -/
theorem execBundleIssue_trap {s : State} {k : CoreIx} {b : CluIx} {i : CluIx → Instr} (hf : s.bundleFormed k = true)
    (hm : b ∈ clustersOf k) (h : ∀ c ∈ clustersOf k, s.InBundle c (i c))
    (ha : ∀ c ∈ clustersOf k, c ≠ b → ∃ d a im, i c = .addi d a im)
    (hb : (State.tryWord { s with bundling := true } (b, i b)).note = .trapped) :
    exec (.bundleIssue k) s = .next { State.tryWord { s with bundling := true } (b, i b) with
      focus := s.focus, bundling := false, note := .trapped } := by
  have htraps := State.runWords_traps { s with bundling := true } b i (clustersOf k) hb ha [] false { s with bundling := true }
  rw [List.nil_append] at htraps
  have hmem : b ∈ (clustersOf k).filter (· == b) := List.mem_filter.2 ⟨hm, by simp⟩
  have hne : ((clustersOf k).filter (· == b)).isEmpty = false := by
    simpa using List.ne_nil_of_mem hmem
  have hcon : ∀ c, ((clustersOf k).filter (· == b)).contains c = (c == b) := by
    intro c
    by_cases hc : c = b
    · subst hc
      simpa using hm
    · simp [hc]
  rw [execBundleIssue_eq hf h, htraps, hne, State.bundleTraps_one hm (clustersOf_nodup k) hcon hb]
  rfl

/-- BRK tried in user mode, outside DUAL records: it traps (R328). -/
theorem State.tryWord_brk {s : State} {c : CluIx} (hd : (s.cluster c).dual = none) (n : BitVec 5) :
    s.tryWord (c, .brk n) = State.trap { s with focus := c, note := .done } .dbg (n.setWidth 64) := by
  have h : wordMeaning (.brk n) { s with focus := c, note := .done } =
      .next (State.trap { s with focus := c, note := .done } .dbg (n.setWidth 64)) := by
    unfold wordMeaning
    have hr : (State.me { s with focus := c, note := .done }).dualRuns = false := by
      change (s.cluster c).dualRuns = false
      simp [Cluster.dualRuns, hd]
    rw [hr, Bool.false_and]
    rfl
  unfold State.tryWord
  rw [h]

/-- Only a core of a hub die forms bundles (R30, R35). -/
theorem State.bundleFormed_hub {s : State} {k : CoreIx} (h : s.bundleFormed k = true) : isHub (dieOf k) = true :=
  (Bool.and_eq_true _ _ ▸ h).1

/-- A word with S = 1 of a formed bundle, of a cluster outside SOLO and DUAL, which does not go on with a wait. -/
theorem State.inBundle {s : State} {k : CoreIx} {c : CluIx} {i : Instr} (hc : c ∈ clustersOf k) (hf : s.bundleFormed k = true)
    (hi : (s.core k).imemBad = []) (hs : (s.cluster c).stale = []) (ho : (s.cluster c).solo = false)
    (hcont : (s.cluster c).continues i = false)
    (hw : decode ((s.core k).wordAt (s.cluster c).pc) = some ⟨true, i⟩) : s.InBundle c i := by
  obtain rfl := mem_clustersOf.1 hc
  exact ⟨s.fetch_plain c hs hi, decodeFor_hub hw fun _ => State.bundleFormed_hub hf,
    by simp [Cluster.issuesAlone, ho, hcont]⟩

/-- A cluster at a word that is no instruction, fetched as it stands (R27, R35). -/
theorem execUnallocatedWord_traps {s : State} {c : CluIx} (ha : (s.cluster c).atWord = true) (hs : (s.cluster c).stale = [])
    (hi : (s.core (coreOf c)).imemBad = [])
    (hd : decodeFor c ((s.core (coreOf c)).wordAt (s.cluster c).pc) = none) :
    exec (.unallocatedWord c) s = .next (s.unallocated c) := by
  change execUnallocatedWord c s = _
  simp [execUnallocatedWord, s.fetch_plain c hs hi, ha, hd]

theorem State.unallocated_others {s : State} {c j : CluIx} (hm : (s.cluster c).mode = .user) (hj : j ≠ c) :
    (s.unallocated c).cluster j = s.cluster j := by
  rw [(State.unallocated_trapped hm).only]
  exact s.cluster_setCluster_ne _ hj

section
variable {s : State} {k : CoreIx} {d a : CluIx → Reg} {im : CluIx → BitVec 15} (hf : s.bundleFormed k = true)
  (hi : (s.core k).imemBad = [])
  (hplain : ∀ c ∈ clustersOf k, (s.cluster c).stale = [] ∧ (s.cluster c).solo = false ∧ (s.cluster c).dual = none)
include hf hi hplain

/-- The first clause of O56: a bundle of four ADDI words. -/
theorem bundle_addi
    (hw : ∀ c ∈ clustersOf k, decode ((s.core k).wordAt (s.cluster c).pc) = some ⟨true, .addi (d c) (a c) (im c)⟩) :
    ∃ t, exec (.bundleIssue k) s = .next t ∧ s.SameMemory t ∧ (∀ c, c ∉ clustersOf k → t.cluster c = s.cluster c) ∧
      ∀ c ∈ clustersOf k, (s.cluster c).Takes (t.cluster c) (d c) ((s.cluster c).g (a c) + (im c).signExtend 64) ∧
        (s.cluster c).Follows (t.cluster c) ∧ (t.cluster c).syncWait = false := by
  have hin : ∀ c ∈ clustersOf k, s.InBundle c (.addi (d c) (a c) (im c)) := fun c hc => by
    obtain ⟨hs, ho, -⟩ := hplain c hc
    exact State.inBundle hc hf hi hs ho rfl (hw c hc)
  obtain ⟨t, e, hmem, hall⟩ := execBundleIssue_addi hf hin
  refine ⟨t, e, hmem, fun c hc => by rw [hall c, if_neg hc], fun c hc => ?_⟩
  rw [hall c, if_pos hc]
  exact Cluster.addi_bundled _ _ _ _

/-- The second clause of O56: a bundle of three ADDI words and a BRK in user mode. -/
theorem bundle_brk {b : CluIx} {n : BitVec 5} (hb : b ∈ clustersOf k) (hm : (s.cluster b).mode = .user)
    (hw : decode ((s.core k).wordAt (s.cluster b).pc) = some ⟨true, .brk n⟩)
    (hothers : ∀ c ∈ clustersOf k, c ≠ b →
      decode ((s.core k).wordAt (s.cluster c).pc) = some ⟨true, .addi (d c) (a c) (im c)⟩) :
    ∃ t, exec (.bundleIssue k) s = .next t ∧ s.SameMemory t ∧ (∀ c, c ≠ b → t.cluster c = s.cluster c) ∧
      (s.cluster b).TookTrap (t.cluster b) (s.core k).secure false true noPath .dbg ∧ (t.cluster b).tval = n.setWidth 64 := by
  let i (c : CluIx) : Instr := if c = b then .brk n else .addi (d c) (a c) (im c)
  have hin : ∀ c ∈ clustersOf k, s.InBundle c (i c) := fun c hc => by
    obtain ⟨hs, ho, -⟩ := hplain c hc
    by_cases he : c = b
    · subst he
      exact State.inBundle hc hf hi hs ho (by simp [i, Cluster.continues]) (by simpa [i] using hw)
    · exact State.inBundle hc hf hi hs ho (by simp [i, he, Cluster.continues]) (by simpa [i, he] using hothers c hc he)
  obtain ⟨-, -, hdual⟩ := hplain b hb
  have htry : State.tryWord { s with bundling := true } (b, i b) =
      State.trap { s with bundling := true, focus := b, note := .done } .dbg (n.setWidth 64) := by
    rw [show i b = .brk n from if_pos rfl]
    exact State.tryWord_brk (s := { s with bundling := true }) hdual n
  have htrap := State.trap_trapped (s := { s with bundling := true, focus := b, note := .done }) hm .dbg (n.setWidth 64)
    (path := noPath) (by decide)
  rw [← htry] at htrap
  have hfocus : (State.tryWord { s with bundling := true } (b, i b)).focus = b := by rw [htrap.only]; rfl
  have hcluster := htrap.trap
  have htval := htrap.tval
  simp only [State.me, hfocus] at hcluster htval
  refine ⟨_, execBundleIssue_trap hf hb hin (fun c _ he => ⟨d c, a c, im c, if_neg he⟩) (by rw [htrap.only]), ?_, ?_, ?_, ?_⟩
  · exact fun l => (State.peek_congr rfl rfl rfl rfl l 1).trans ((htrap.memory l).trans (State.peek_congr rfl rfl rfl rfl l 1))
  · intro c hc
    change (State.tryWord { s with bundling := true } (b, i b)).cluster c = _
    rw [htrap.only]
    exact s.cluster_setCluster_ne _ hc
  · obtain rfl := mem_clustersOf.1 hb
    exact hcluster
  · exact htval

end

/-- Settles O56: a bundle of ADDI words takes effect, one with a BRK takes its trap alone, and a word that is no instruction is UDI. -/
theorem bundlesAndUnallocatedWords : Obligations.BundlesAndUnallocatedWords := by
  unfold Obligations.BundlesAndUnallocatedWords
  constructor
  · intro s k d a im hf hi hplain word_ addi
    exact ⟨bundle_addi hf hi hplain, fun b hb n hm hw hothers => bundle_brk hf hi hplain hb hm hw hothers⟩
  · intro s c x k ha hm hs hi hd
    have hnone : decodeFor c (k.wordAt x.pc) = none := by
      rcases hd with hd | ⟨i, hd, hub⟩
      · exact decodeFor_none hd
      · exact decodeFor_stack hd hub
    obtain ⟨took, mem⟩ := State.unallocated_took hm
    exact ⟨_, execUnallocatedWord_traps ha hs hi hnone, took, fun j hj => State.unallocated_others hm hj, mem⟩

end Sys2Proof.Machine
end

section
/-!
O22: the integer elements of the vector unit.  Every element operation goes through three definitions of the model: the value of a code
(`intValue`), the range of a type (`intRange`) and the code of a result (`intCode`).  The lemmas below say what these are for codes in
range, then what each group of operations gives, for every width.
-/

namespace Sys2Proof.Machine

/-! ### Values, ranges and codes of an integer type (R107) -/

theorem nbits_zero_of_lt {k c : Nat} (hc : c < 2 ^ k) : nbits c 0 k = c := Nat.mod_eq_of_lt hc

/-- The sign bit splits the codes in range into two halves. -/
theorem nbit_sign {n c : Nat} (hc : c < 2 ^ (n + 1)) : nbit c n = decide (2 ^ n ≤ c) := by
  by_cases h : 2 ^ n ≤ c
  · rw [nbit, Nat.testBit_of_two_pow_le_and_two_pow_add_one_gt h hc, decide_eq_true h]
  · rw [nbit, Nat.testBit_lt_two_pow (Nat.lt_of_not_le h), decide_eq_false h]

/-- A code read as two's complement is its balanced residue. -/
theorem sextNat_eq_bmod {k c : Nat} (hk : 0 < k) (hc : c < 2 ^ k) : sextNat c k = (c : Int).bmod (2 ^ k) := by
  obtain ⟨n, rfl⟩ := Nat.exists_eq_succ_of_ne_zero hk.ne'
  have hp : 2 ^ (n + 1) = 2 * 2 ^ n := Nat.pow_succ'
  have hmod : (c : Int) % ((2 ^ (n + 1) : Nat) : Int) = c := Int.emod_eq_of_lt (by omega) (by exact_mod_cast hc)
  have hcast : (2 : Int) ^ (n + 1) = ((2 * 2 ^ n : Nat) : Int) := by rw [← hp]; norm_cast
  rw [sextNat, Nat.succ_sub_one, nbit_sign hc, nbits_zero_of_lt hc, Int.bmod, hmod, hcast, hp]
  by_cases h : 2 ^ n ≤ c
  · rw [if_pos (decide_eq_true h), if_neg (by omega)]
  · rw [if_neg (by simpa using h), if_pos (by omega)]

/-- The value of a code in range: signed the balanced residue, unsigned the code. -/
theorem intValue_eq {k c : Nat} (sg : Bool) (hk : 0 < k) (hc : c < 2 ^ k) :
    intValue sg k c = if sg then (c : Int).bmod (2 ^ k) else c := by
  rw [intValue, nbits_zero_of_lt hc, sextNat_eq_bmod hk hc]

/-- A signed value lies in its type's range. -/
theorem intValue_mem_range {k c : Nat} (hk : 0 < k) (hc : c < 2 ^ k) :
    -2 ^ (k - 1) ≤ intValue true k c ∧ intValue true k c ≤ 2 ^ (k - 1) - 1 := by
  obtain ⟨n, rfl⟩ := Nat.exists_eq_succ_of_ne_zero hk.ne'
  have hp : 2 ^ (n + 1) = 2 * 2 ^ n := Nat.pow_succ'
  have hcast : (2 : Int) ^ n = ((2 ^ n : Nat) : Int) := by norm_cast
  have hpos := Nat.two_pow_pos n
  rw [intValue_eq true hk hc, if_pos rfl, Nat.succ_eq_add_one, Nat.add_sub_cancel, hcast]
  have hge := Int.le_bmod (x := c) (m := 2 ^ (n + 1)) (by omega)
  have hlt := Int.bmod_lt (x := c) (m := 2 ^ (n + 1)) (by omega)
  omega

/-- The nearest value in a range that is not empty, by cases. -/
theorem clampInt_eq_ite {lo hi : Int} (h : lo ≤ hi) (x : Int) :
    clampInt (lo, hi) x = if x < lo then lo else if hi < x then hi else x := by
  simp only [clampInt]
  split
  · omega
  · split <;> omega

/-- The range of an integer type is not empty. -/
theorem intRange_nonempty (sg : Bool) (k : Nat) : (intRange sg k).1 ≤ (intRange sg k).2 := by
  have hpos (n : Nat) : (0 : Int) < 2 ^ n := by positivity
  cases sg with
  | false => have := hpos k; simp only [intRange, Bool.false_eq_true, if_false]; omega
  | true => have := hpos (k - 1); simp only [intRange, if_true]; omega

/-- A code shifted left by the width or more has no bit left. -/
theorem mul_two_pow_mod_of_le {k c : Nat} (a : Nat) (h : k ≤ c) : a * 2 ^ c % 2 ^ k = 0 :=
  Nat.mod_eq_zero_of_dvd ((Nat.pow_dvd_pow 2 h).mul_left a)

/-! ### The element operations (R147, R151) -/

/-- A left shift moves the code and drops what leaves the width. -/
theorem shiftElem_left (sg : Bool) (k a b : Nat) : shiftElem sg k true a b = a * 2 ^ (b % 64) % 2 ^ k := by
  have hb : nbits b 0 6 = b % 64 := rfl
  simp only [shiftElem, if_true, hb]
  split
  · next h => rw [mul_two_pow_mod_of_le a h]
  · rw [Nat.shiftLeft_eq, intCode]
    norm_cast

/-- A right shift divides the value and rounds down. -/
theorem shiftElem_right (sg : Bool) (k a b : Nat) : shiftElem sg k false a b = intCode k (intValue sg k a / 2 ^ (b % 64)) := by
  have hb : nbits b 0 6 = b % 64 := rfl
  simp only [shiftElem, hb]
  rw [if_neg Bool.false_ne_true]
  exact congrArg (intCode k) (Int.shiftRight_eq_div_pow (intValue sg k a) (b % 64))

section
variable {t : ElemType} {sg : Bool} {k : Nat} (hf : elemFmt t = none) (hi : elemInt t = some (sg, k))
include hf hi

/-- The elementwise arithmetic of an integer type is `intElem`, without flags. -/
theorem vecElem_arith (sat : Bool) (a b d : Nat) {op : VecOp}
    (hop : op ∈ ([.add, .sub, .mul, .mac, .min, .max, .abs, .neg] : List VecOp)) :
    vecElem op t sat a b d = ⟨intElem sg k sat op a b d, 0⟩ := by
  revert op
  simp [vecElem, hf, hi]

theorem vecElem_shl (sat : Bool) (a b d : Nat) : vecElem .shl t sat a b d = ⟨shiftElem sg k true a b, 0⟩ := by
  simp [vecElem, hf, hi]

theorem vecElem_shr (sat : Bool) (a b d : Nat) : vecElem .shr t sat a b d = ⟨shiftElem sg k false a b, 0⟩ := by
  simp [vecElem, hf, hi]

/-- Without SAT the sums, products and the lesser or greater value are coded modulo 2^k, and no flag is raised. -/
theorem vecElem_wraps (a b d : Nat) :
    let val := intValue sg k
    ∀ p ∈ ([(.add, val a + val b), (.sub, val a - val b), (.mul, val a * val b), (.mac, val a * val b + val d),
        (.min, if val a ≤ val b then val a else val b), (.max, if val a ≤ val b then val b else val a)] : List (VecOp × Int)),
      vecElem p.1 t false a b d = ⟨intCode k p.2, 0⟩ := by
  have arith {op : VecOp} := vecElem_arith hf hi false a b d (op := op)
  simp only [List.forall_mem_cons, List.not_mem_nil, false_implies, implies_true, and_true]
  refine ⟨arith (by simp), arith (by simp), arith (by simp), arith (by simp), ?_, ?_⟩
  · rw [← min_def]
    exact arith (by simp)
  · rw [← max_def]
    exact arith (by simp)

/-- With SAT the sums and products are clamped to the type's range first. -/
theorem vecElem_saturates (a b d : Nat) :
    let val := intValue sg k
    ∀ p ∈ ([(.add, val a + val b), (.sub, val a - val b), (.mul, val a * val b), (.mac, val a * val b + val d)] :
        List (VecOp × Int)),
      (vecElem p.1 t true a b d).code = intCode k (clampInt (intRange sg k) p.2) := by
  have arith {op : VecOp} (hop) := congrArg Rounded.code (vecElem_arith hf hi true a b d (op := op) hop)
  simp only [List.forall_mem_cons, List.not_mem_nil, false_implies, implies_true, and_true]
  exact ⟨arith (by simp), arith (by simp), arith (by simp), arith (by simp)⟩

end

/-- A negation or magnitude leaves the signed range -m .. m - 1 only from -m, and then saturates to m - 1. -/
theorem clampInt_of_negated {m v w : Int} (hm : 0 < m) (hv : -m ≤ v ∧ v ≤ m - 1) (hw : w = -v ∨ 0 ≤ v ∧ w = v) :
    clampInt (-m, m - 1) w = if v = -m then m - 1 else w := by
  simp only [clampInt]
  split <;> omega

/-- What an operation on one signed element gives whose exact result is the value's negation or the value, not negative. -/
theorem intCode_negated {k a : Nat} (hk : 0 < k) (ha : a < 2 ^ k) (sat : Bool) {w : Int}
    (hw : w = -intValue true k a ∨ 0 ≤ intValue true k a ∧ w = intValue true k a) :
    intCode k (if sat then clampInt (intRange true k) w else w) =
      intCode k (if sat ∧ intValue true k a = (intRange true k).1 then (intRange true k).2 else w) := by
  cases sat with
  | false => simp
  | true =>
    have h := clampInt_of_negated (by positivity) (intValue_mem_range hk ha) hw
    simp [intRange, h]

theorem intElem_neg {k a : Nat} (hk : 0 < k) (ha : a < 2 ^ k) (sat : Bool) (b d : Nat) :
    intElem true k sat .neg a b d = intCode k (if sat ∧ intValue true k a = (intRange true k).1 then (intRange true k).2
      else -intValue true k a) :=
  intCode_negated hk ha sat (.inl rfl)

theorem intElem_abs {k a : Nat} (hk : 0 < k) (ha : a < 2 ^ k) (sat : Bool) (b d : Nat) :
    intElem true k sat .abs a b d = intCode k (if sat ∧ intValue true k a = (intRange true k).1 then (intRange true k).2
      else if intValue true k a < 0 then -intValue true k a else intValue true k a) := by
  have habs (x : Int) : (x.natAbs : Int) = if x < 0 then -x else x := by
    split <;> omega
  have hw (x : Int) : (x.natAbs : Int) = -x ∨ 0 ≤ x ∧ (x.natAbs : Int) = x := by omega
  rw [← habs]
  exact intCode_negated hk ha sat (hw _)

/-- The six integer types are no float types, and have the sign and width R107 gives. -/
theorem elemInt_types : ∀ t ∈ ([(.s8, true, 8), (.s16, true, 16), (.s32, true, 32), (.n8, false, 8), (.n16, false, 16),
    (.n32, false, 32)] : List (ElemType × Bool × Nat)), elemFmt t.1 = none ∧ elemInt t.1 = some t.2 ∧ 0 < t.2.2 := by
  simp [elemFmt, elemInt]

/-- Settles O22: the four groups of operations at any sign and width, over the values and ranges of R107. -/
theorem vectorIntegerElements : Obligations.VectorIntegerElements := by
  unfold Obligations.VectorIntegerElements
  rintro ⟨t, sg, k⟩ ht k' val lo hi a b d ha hb hd
  obtain ⟨hf, hint, hk⟩ := elemInt_types _ ht
  have hval {c : Nat} (hc : c < 2 ^ k) : val c = intValue sg k c := (intValue_eq sg hk hc).symm
  have hrange : intRange sg k = (lo, hi) := by cases sg <;> rfl
  have hclamp (x : Int) : clampInt (intRange sg k) x = if x < lo then lo else if hi < x then hi else x := by
    have hne := intRange_nonempty sg k
    rw [hrange] at hne ⊢
    exact clampInt_eq_ite hne x
  rw [hval ha, hval hb, hval hd]
  refine ⟨fun p hp => ?_, fun p hp => ?_, fun hs sat => ?_, ?_, ?_⟩
  · rw [vecElem_wraps hf hint a b d p hp]
    exact ⟨rfl, rfl⟩
  · rw [← hclamp]
    exact vecElem_saturates hf hint a b d p hp
  · obtain rfl : sg = true := hs
    rw [vecElem_arith hf hint sat a b d (by simp), vecElem_arith hf hint sat a b d (by simp)]
    exact ⟨intElem_neg hk ha sat b d, intElem_abs hk ha sat b d⟩
  · rw [vecElem_shl hf hint]
    exact shiftElem_left sg k a b
  · rw [vecElem_shr hf hint]
    exact shiftElem_right sg k a b

end Sys2Proof.Machine
end

section
/-!
The sums of a chunk, of a lane's block and of the reduction tree: the statements `MatrixChunkArithmetic` (R123, R165), `LaneBlockSums`
(R119) and `ReductionTreeOrder` (R122).
-/

namespace Sys2Proof.Machine

/-! ### The exact sum of a chunk of integers (R123) -/

/-- An integer as a number. -/
def Num.ofInt (v : Int) : Num := .fin (decide (v < 0)) v.natAbs 0

theorem dyadicOf_natAbs (v : Int) (e : Int) : dyadicOf (decide (v < 0)) v.natAbs e = ⟨v, e⟩ := by
  unfold dyadicOf
  rcases lt_or_ge v 0 with h | h
  · simp [h, abs_of_neg]
  · simp [not_lt.2 h, abs_of_nonneg h]

/-- The product of two integers has their product as its value, and is finite with no flag. -/
theorem Num.mul_ofInt (a b : Int) : ∃ n m, (Num.ofInt a).mul (Num.ofInt b) = (.fin n m 0, 0) ∧ dyadicOf n m 0 = ⟨a * b, 0⟩ := by
  refine ⟨_, _, rfl, ?_⟩
  unfold dyadicOf
  rw [Nat.cast_mul]
  by_cases ha : a < 0 <;> by_cases hb : b < 0 <;> simp [ha, hb, abs_of_neg, abs_of_nonneg, not_lt.1]

/-- Integers are summed exactly. -/
theorem Dyadic.add_integer (x y : Int) : (⟨x, 0⟩ : Dyadic).add ⟨y, 0⟩ = ⟨x + y, 0⟩ := by
  unfold Dyadic.add
  split
  · simp_all
  · split <;> simp_all

theorem foldl_add_integers (ts : List Int) (x : Int) :
    (ts.map fun t => (⟨t, 0⟩ : Dyadic)).foldl Dyadic.add ⟨x, 0⟩ = ⟨x + ts.sum, 0⟩ := by
  induction ts generalizing x with
  | nil => simp
  | cons t ts ih => rw [List.map_cons, List.foldl_cons, Dyadic.add_integer, ih, List.sum_cons, Int.add_assoc]

/-- No flag is raised where none of a list is. -/
theorem orFlags_eq_zero {fs : List Flags} (h : ∀ f ∈ fs, f = 0) : orFlags fs = 0 := by
  unfold orFlags
  induction fs with
  | nil => rfl
  | cons f fs ih =>
    rw [List.foldl_cons, h f List.mem_cons_self]
    exact ih fun g hg => h g (List.mem_cons_of_mem _ hg)

/-- The sum of a chunk of finite products is their exact sum (R123). -/
theorem chunkSum_integers (ps : List (Int × Int)) :
    chunkSum (ps.map fun p => Num.ofInt p.1) (ps.map fun p => Num.ofInt p.2) =
      (Num.ofInt (ps.map fun p => p.1 * p.2).sum, 0) := by
  have hfin : ∀ p : Int × Int, ((Num.ofInt p.1).mul (Num.ofInt p.2)).1.isFinite = true ∧
      ((Num.ofInt p.1).mul (Num.ofInt p.2)).2 = 0 ∧
      ((Num.ofInt p.1).mul (Num.ofInt p.2)).1.dyadic = ⟨p.1 * p.2, 0⟩ := fun p => by
    obtain ⟨n, m, h, hd⟩ := Num.mul_ofInt p.1 p.2
    rw [h]
    exact ⟨rfl, rfl, hd⟩
  have hnan : ∀ x : Num, x.isFinite = true → x.isNan = false := fun x h => by cases x <;> simp_all [Num.isFinite, Num.isNan]
  have hzip : (List.zip (ps.map fun p => Num.ofInt p.1) (ps.map fun p => Num.ofInt p.2)).map (fun p => p.1.mul p.2) =
      ps.map fun p => (Num.ofInt p.1).mul (Num.ofInt p.2) := by
    rw [List.zip_map', List.map_map]; rfl
  have hsum : ((ps.map fun p => ((Num.ofInt p.1).mul (Num.ofInt p.2)).1.dyadic)).foldl Dyadic.add Dyadic.zero =
      ⟨(ps.map fun p => p.1 * p.2).sum, 0⟩ := by
    rw [List.map_congr_left fun p _ => (hfin p).2.2]
    have h := foldl_add_integers (ps.map fun p => p.1 * p.2) 0
    rwa [List.map_map, Int.zero_add] at h
  unfold chunkSum
  simp only [hzip, List.map_map]
  rw [orFlags_eq_zero (by rintro f hf; obtain ⟨p, -, rfl⟩ := List.mem_map.1 hf; exact (hfin p).2.1), if_neg, if_pos]
  · have hd : (Num.dyadic ∘ (fun p : Num × Flags => p.1) ∘ fun p : Int × Int => (Num.ofInt p.1).mul (Num.ofInt p.2)) =
        fun p => ((Num.ofInt p.1).mul (Num.ofInt p.2)).1.dyadic := rfl
    simp only [hd, hsum]
    rfl
  · rw [List.isEmpty_iff, List.filter_eq_nil_iff]
    rintro v hv
    obtain ⟨p, -, rfl⟩ := List.mem_map.1 hv
    simpa using (hfin p).1
  · simpa [Function.comp] using fun a b _ => hnan _ (hfin (a, b)).1

theorem Num.isZero_ofInt (v : Int) : (Num.ofInt v).isZero = decide (v = 0) := by
  rw [Num.ofInt, Num.isZero, beq_eq_decide]
  exact decide_eq_decide.2 Int.natAbs_eq_zero

/-- A positive scale multiplies the exact sum (R123). -/
theorem Num.mul_ofInt_scale (v : Int) {g : Nat} (hg : 0 < g) : (Num.ofInt v).mul (Num.ofInt g) = (Num.ofInt (v * g), 0) := by
  have hpos : (0 : Int) < g := by exact_mod_cast hg
  have hneg : decide (v * g < 0) = decide (v < 0) := decide_eq_decide.2 ⟨fun h => neg_of_mul_neg_left h hpos.le, fun h => mul_neg_of_neg_of_pos h hpos⟩
  have hg0 : decide ((g : Int) < 0) = false := decide_eq_false (not_lt.2 hpos.le)
  simp only [Num.ofInt, Num.mul, hneg, hg0, Int.natAbs_mul, Bool.bne_false, add_zero]

/-- A chunk whose exact sum is zero adds +0 (R123). -/
theorem chunkAdd_zero {xs ys : List Num} {x : Num} (acc : W32) (h : chunkSum xs ys = (x, 0)) (hz : x.isZero = true) :
    chunkAdd acc xs ys none = ((addF32 acc 0).1, (addF32 acc 0).2) := by
  simp only [chunkAdd, h, hz, Bool.and_self, if_true, BitVec.ofNat_eq_ofNat, BitVec.or_zero]

/-- A chunk whose exact sum is not zero is rounded once and added once (R123). -/
theorem chunkAdd_rounds {xs ys : List Num} {x : Num} (acc : W32) (h : chunkSum xs ys = (x, 0)) (hz : x.isZero = false) :
    chunkAdd acc xs ys none = ((addF32 acc (fmtF32.ofNum false x).w32).1,
      (addF32 acc (fmtF32.ofNum false x).w32).2 ||| (fmtF32.ofNum false x).flags) := by
  simp only [chunkAdd, h, hz, Bool.and_self, Bool.false_eq_true, if_false, BitVec.ofNat_eq_ofNat, BitVec.or_zero]

/-- A scale multiplies the exact sum before the rounding (R123). -/
theorem chunkAdd_scales {xs ys : List Num} {x y g : Num} (acc : W32) (h : chunkSum xs ys = (x, 0)) (hz : x.isZero = false)
    (hm : x.mul g = (y, 0)) :
    chunkAdd acc xs ys (some g) = ((addF32 acc (fmtF32.ofNum false y).w32).1,
      (addF32 acc (fmtF32.ofNum false y).w32).2 ||| (fmtF32.ofNum false y).flags) := by
  simp only [chunkAdd, h, hz, hm, Bool.false_and, Bool.false_eq_true, if_false, BitVec.ofNat_eq_ofNat, BitVec.or_zero]

/-- Settles O27: a chunk of integers has an exact sum with no flag, which is rounded and added once each. -/
theorem matrixChunkArithmetic : Obligations.MatrixChunkArithmetic := by
  intro acc ps
  have hsum := chunkSum_integers ps
  have hzero := Num.isZero_ofInt (ps.map fun p => p.1 * p.2).sum
  refine ⟨fun hz => ?_, fun hn => ?_, fun g hn hg => ?_⟩
  · exact chunkAdd_zero acc hsum (hzero.trans (decide_eq_true hz))
  · exact chunkAdd_rounds acc hsum (hzero.trans (decide_eq_false hn))
  · exact chunkAdd_scales acc hsum (hzero.trans (decide_eq_false hn)) (Num.mul_ofInt_scale _ hg)

/-! ### The sum of a lane's block over prefixes and over planes (R119) -/

section
variable (data act : List Byte) (len kb h : Nat)

/-- The bit of plane j of weight i of a slice (R110, R111). -/
def planeBit (j i : Nat) : Bool := (data.getD (32 * ((len + 1023) / 1024) + j * len / 8 + i / 8) 0).getLsbD (i % 8)

/-- The code of element n of activation block h. -/
def blockCode (n : Nat) : Int := (act.getD (h * (kb + 1) + n) 0).toInt

/-- A code's first planes with one plane more. -/
theorem prefixCode_succ (i p : Nat) :
    prefixCode data len i (p + 1) = 2 * prefixCode data len i p + flagNat (planeBit data len p i) := by
  unfold prefixCode
  rw [List.range_succ, List.foldl_append]
  rfl

/-- Twice the number of the first planes of a code is the sum of those planes, each with its weight (R111). -/
theorem two_mul_prefixCode (i p : Nat) : 2 * (prefixCode data len i p : Int) =
    ((List.range p).map fun j => if planeBit data len j i then (2 : Int) ^ (p - j) else 0).sum := by
  induction p with
  | zero => rfl
  | succ p ih =>
    have hdouble : ((List.range p).map fun j => if planeBit data len j i then (2 : Int) ^ (p + 1 - j) else 0).sum =
        2 * ((List.range p).map fun j => if planeBit data len j i then (2 : Int) ^ (p - j) else 0).sum := by
      rw [← List.sum_map_mul_left]
      congr 1
      refine List.map_congr_left fun j hj => ?_
      rw [Nat.succ_sub (List.mem_range.1 hj).le, pow_succ]
      split <;> ring
    rw [prefixCode_succ, List.range_succ, List.map_append, List.sum_append, hdouble, ← ih]
    cases hb : planeBit data len p i <;> simp [hb, flagNat, mul_add]

theorem sextNat_toNat (b : Byte) : sextNat b.toNat 8 = b.toInt := by
  rw [sextNat_eq_bmod (by decide) b.isLt, BitVec.toInt_eq_toNat_bmod]

/-- A lane's term is its code times its planes, each with its weight, less the offset (R119). -/
theorem laneTerm_planes (p n : Nat) : laneTerm data act len kb h p n =
    ((List.range p).map fun j => (2 : Int) ^ (p - j) *
      if planeBit data len j (h * kb + n) then blockCode act kb h n else 0).sum - (2 ^ p - 1) * blockCode act kb h n := by
  have hsum : ((List.range p).map fun j => (2 : Int) ^ (p - j) *
      if planeBit data len j (h * kb + n) then blockCode act kb h n else 0).sum =
      2 * (prefixCode data len (h * kb + n) p : Int) * blockCode act kb h n := by
    rw [two_mul_prefixCode, ← List.sum_map_mul_right]
    congr 1
    refine List.map_congr_left fun j _ => ?_
    split <;> simp
  rw [hsum, laneTerm, sextNat_toNat]
  unfold blockCode
  ring

/-- A block sum as a sum over its elements. -/
theorem blockSum_eq_sum (p : Nat) (hk : kb ≤ 64) :
    blockSum data act len kb h p = ((List.range kb).map (laneTerm data act len kb h p)).sum := by
  unfold blockSum
  rw [min_eq_left hk, ← List.foldl_map (f := laneTerm data act len kb h p) (g := (· + ·)), ← List.sum_eq_foldl]

/-- Sums over a list of lists of terms are taken in either order. -/
theorem sum_map_comm {α β : Type} (xs : List α) (ys : List β) (f : α → β → Int) :
    (xs.map fun x => (ys.map (f x)).sum).sum = (ys.map fun y => (xs.map fun x => f x y).sum).sum := by
  induction xs with
  | nil => simp
  | cons x xs ih => simp [ih, List.sum_map_add]

end

/-- Settles O33: each term is a sum over planes, and the two sums are exchanged. -/
theorem laneBlockSums : Obligations.LaneBlockSums := by
  intro data act len kb h p hk
  show blockSum data act len kb h p = ((List.range p).map fun j => (2 : Int) ^ (p - j) * ((List.range kb).map fun n =>
    if planeBit data len j (h * kb + n) then blockCode act kb h n else 0).sum).sum -
    (2 ^ p - 1) * ((List.range kb).map (blockCode act kb h)).sum
  rw [blockSum_eq_sum _ _ _ _ _ _ (by omega), List.map_congr_left fun n _ => laneTerm_planes data act len kb h p n]
  simp only [sub_eq_add_neg, ← neg_mul]
  rw [List.sum_map_add, sum_map_comm, List.sum_map_mul_left]
  simp only [List.sum_map_mul_left]

/-! ### The reduction tree (R122) -/

theorem treePairs_length : ∀ xs : List W32, ∀ n, xs.length = 2 * n → (treePairs xs).1.length = n
  | [], n, h => by simpa [treePairs, eq_comm] using h
  | [_], n, h => by simp at h; omega
  | a :: b :: rest, n, h => by
    have := treePairs_length rest (n - 1) (by simp at h; omega)
    simp [treePairs] at h ⊢; omega

/-- A level of the tree over two halves of even length is that level over each. -/
theorem treePairs_append (ys : List W32) : ∀ xs : List W32, xs.length % 2 = 0 →
    treePairs (xs ++ ys) = ((treePairs xs).1 ++ (treePairs ys).1, (treePairs xs).2 ||| (treePairs ys).2)
  | [], _ => by simp [treePairs]
  | [_], h => by simp at h
  | a :: b :: rest, h => by
    have ih := treePairs_append ys rest (by simp only [List.length_cons] at h; omega)
    simp [treePairs, ih, BitVec.or_assoc]

/-- The tree over two halves is one addition of the trees over each (R122). -/
theorem reduceTree_append (n : Nat) (xs ys : List W32) (hx : xs.length = 2 ^ n) (hy : ys.length = 2 ^ n) :
    (reduceTree (n + 1) (xs ++ ys)).1 = (addF32 (reduceTree n xs).1 (reduceTree n ys).1).1 ∧
    (reduceTree (n + 1) (xs ++ ys)).2 = (reduceTree n xs).2 ||| (reduceTree n ys).2 |||
      (addF32 (reduceTree n xs).1 (reduceTree n ys).1).2 := by
  induction n generalizing xs ys with
  | zero =>
    obtain ⟨a, rfl⟩ := List.length_eq_one_iff.1 hx
    obtain ⟨b, rfl⟩ := List.length_eq_one_iff.1 hy
    simp [reduceTree, treePairs]
  | succ n ih =>
    have hpow : 2 ^ (n + 1) = 2 * 2 ^ n := by ring
    have hlevel := treePairs_append ys xs (by omega)
    obtain ⟨hv, hf⟩ := ih _ _ (treePairs_length xs _ (hx.trans hpow)) (treePairs_length ys _ (hy.trans hpow))
    rw [reduceTree]
    simp only [hlevel]
    refine ⟨hv, ?_⟩
    rw [hf]
    simp only [reduceTree]
    ac_rfl

/-- Settles O34, by induction on the levels of the tree. -/
theorem reductionTreeOrder : Obligations.ReductionTreeOrder :=
  ⟨fun _ => rfl, reduceTree_append⟩

end Sys2Proof.Machine
end

section
/-!
The vector queue: the statement `VectorQueueRuns` (R128, R142, R143, R153, R154, R158).  A command that starts reads its operands and
changes its entry; one that completes makes one change to its core, which the lemmas take apart, and merges its flags.
-/

namespace Sys2Proof.Machine

/-! ### Lists and vectors -/

theorem vget_vset {α : Type} {n : Nat} (v : Vector α n) (i j : Nat) (x d : α) :
    vget (vset v i x) j d = if j = i ∧ j < n then x else vget v j d := by
  unfold vget vset
  by_cases hi : i < n
  · rw [dif_pos hi, List.getD_eq_getElem?_getD, List.getD_eq_getElem?_getD]
    by_cases hj : j < n
    · by_cases h : j = i
      · subst h; simp [hj]
      · simp [hj, h, Ne.symm h]
    · simp [hj]
  · rw [dif_neg hi, if_neg (by omega)]

/-! ### Cores and clusters changed -/

theorem State.modCore_modCore (s : State) (k : CoreIx) (f g : Core → Core) :
    (s.modCore k f).modCore k g = s.modCore k fun x => g (f x) := by
  have h : (s.modCore k f).core k = f (s.core k) := s.core_modCore k f
  show (s.modCore k f).setCore k (g ((s.modCore k f).core k)) = _
  rw [h]
  simp [State.modCore, State.setCore]

theorem State.modCore_self (s : State) (k : CoreIx) : (s.modCore k fun x => x) = s := by
  simp [State.modCore, State.setCore, State.core, Vector.get_eq_getElem]

theorem State.peek_modCluster (s : State) (c : CluIx) (f : Cluster → Cluster) (l : Loc) (n : Nat) :
    (s.modCluster c f).peek l n = s.peek l n := State.peek_congr rfl rfl rfl rfl l n

/-! ### Stores to a scratchpad with no uncorrectable word (R323) -/

/-- The scratchpad of a core with bytes written. -/
def Core.putSpad (x : Core) (a : Nat) (bs : List Byte) : Core :=
  { x with spad := x.spad.writeN a bs, sdirty := insertAll (unitsOf 4096 a bs.length) x.sdirty }

/-- Such a store discards nothing and logs nothing. -/
theorem State.store_spad_sound {s : State} {k : CoreIx} (h : (s.core k).spadBad = []) (a : Nat) (bs : List Byte) (lid : Nat) :
    s.store (.spad k a) bs lid = s.modCore k fun x => x.putSpad a bs := by
  simp [State.store, State.mergeBeats, State.poke, Mem.put, h, Loc.homeDie, State.modCore, Core.putSpad]

/-- A list of writes made in order. -/
def Mem.writeAll (m : Mem) (ws : List (Nat × List Byte)) : Mem := ws.foldl (fun m w => m.writeN w.1 w.2) m

/-- A core with a list of writes made to its scratchpad, in order. -/
def Core.putAll (x : Core) (ws : List (Nat × List Byte)) : Core := ws.foldl (fun x w => x.putSpad w.1 w.2) x

theorem Core.putAll_frame (x : Core) (ws : List (Nat × List Byte)) : ∃ d, x.putAll ws = { x with spad := x.spad.writeAll ws, sdirty := d } := by
  induction ws generalizing x with
  | nil => exact ⟨_, rfl⟩
  | cons w ws ih =>
    obtain ⟨d, hd⟩ := ih (x.putSpad w.1 w.2)
    exact ⟨d, hd⟩

theorem State.storeAll_spad {s : State} {k : CoreIx} {ws : List (Nat × List Byte)} (h : (s.core k).spadBad = [] ∨ ws = []) (lid : Nat) :
    s.storeAll (ws.map fun w => (.spad k w.1, w.2)) lid = s.modCore k fun x => x.putAll ws := by
  induction ws generalizing s with
  | nil => exact (s.modCore_self k).symm
  | cons w ws ih =>
    have hb : (s.core k).spadBad = [] := h.resolve_right (List.cons_ne_nil w ws)
    have hrest := ih (s := s.modCore k fun x => x.putSpad w.1 w.2) (.inl (by simpa [Core.putSpad] using hb))
    rw [State.modCore_modCore] at hrest
    rw [State.storeAll, List.map_cons, List.foldl_cons, State.store_spad_sound hb]
    exact hrest

theorem Mem.writeAll_wf {m : Mem} (h : m.wf = true) (ws : List (Nat × List Byte)) : (m.writeAll ws).wf = true := by
  induction ws generalizing m with
  | nil => exact h
  | cons w ws ih => exact ih (m.wf_writeN w.2 w.1 h)

/-- A byte that no write covers reads as before. -/
theorem Mem.read_writeAll_outside {m : Mem} (h : m.wf = true) {ws : List (Nat × List Byte)} {j : Nat}
    (hj : ∀ w ∈ ws, j < w.1 ∨ w.1 + w.2.length ≤ j) : (m.writeAll ws).read j = m.read j := by
  induction ws generalizing m with
  | nil => rfl
  | cons w ws ih =>
    obtain ⟨hw, hws⟩ := List.forall_mem_cons.1 hj
    refine (ih (m.wf_writeN w.2 w.1 h) hws).trans ?_
    rw [Mem.read_writeN _ _ _ _ h, if_neg (by omega)]

/-- A write that no later one overlaps stands. -/
theorem Mem.readN_writeAll {m : Mem} (h : m.wf = true) {pre post : List (Nat × List Byte)} {w : Nat × List Byte}
    (hpost : ∀ v ∈ post, v.1 + v.2.length ≤ w.1 ∨ w.1 + w.2.length ≤ v.1) :
    (m.writeAll (pre ++ w :: post)).readN w.1 w.2.length = w.2 := by
  have hpre : (m.writeAll pre).wf = true := Mem.writeAll_wf h pre
  have hsplit : m.writeAll (pre ++ w :: post) = ((m.writeAll pre).writeN w.1 w.2).writeAll post := by
    simp [Mem.writeAll]
  rw [hsplit]
  refine Eq.trans ?_ (Mem.readN_writeN hpre w.1 w.2)
  rw [Mem.readN_eq, Mem.readN_eq]
  refine List.map_congr_left fun j hj => Mem.read_writeAll_outside (Mem.wf_writeN _ _ _ hpre) fun v hv => ?_
  obtain ⟨i, hi, rfl⟩ : ∃ i < w.2.length, w.1 + i = j := by simpa [iota] using hj
  have := hpost v hv
  omega

/-! ### A command starts (R141, R143, R158, R160) -/

theorem Core.seq_of_vcmd {x : Core} {n : Nat} {c : VCmd} (h : x.vcmd n = some c) : c.seq = n := by
  simpa using List.find?_some h

theorem execVectorCommandStart_ready {s : State} {k : CoreIx} {n : Nat} {c : VCmd} (h : (s.core k).vcmd n = some c)
    (hr : s.vecReady k c = true) : exec (.vectorCommandStart k n) s = .next (s.vecStart k c) := by
  change execVectorCommandStart k n s = _
  simp only [execVectorCommandStart, h, hr, if_true]

section
variable {s : State} {c : VCmd}

/-- A read of operands from a scratchpad with no uncorrectable word has no other effect (R320). -/
theorem State.readShape_sound {cl : CluIx} (h : (s.core (coreOf cl)).spadBad = []) (seq : Nat) (x : Shape) :
    s.readShape cl seq x = ((List.range x.n).map fun i => s.peek (.spad (coreOf cl) (x.at i).toNat) x.size, s) := by
  simp [State.readShape, h, State.peekPoisoned, State.badWords]

theorem State.readCodes_snd {cl : CluIx} (h : (s.core (coreOf cl)).spadBad = []) (seq : Nat) (x : Shape) :
    (s.readCodes cl seq x).2 = s := by
  rw [State.readCodes, State.readShape_sound h]

theorem State.vecActive_snd (h : (s.core (coreOf c.cl)).spadBad = []) : (s.vecActive c).2 = s := by
  unfold State.vecActive
  split
  · rw [State.readShape_sound h]
  · rfl

theorem State.runCvt_snd (h : (s.core (coreOf c.cl)).spadBad = []) (rtz : Bool) (t : ElemType) (active : List Bool) :
    (s.runCvt c rtz t active).2 = s := by
  unfold State.runCvt
  dsimp only
  split
  · rw [State.readShape_sound h]
  · split <;> exact State.readCodes_snd h _ _

theorem State.runElems_snd (h : (s.core (coreOf c.cl)).spadBad = []) (op : VecOp) (imm : Bool) (t : ElemType) (active : List Bool) :
    (s.runElems c op imm t active).2 = s := by
  have hread : ∀ (b : Bool) (x : Shape) (other : List Nat), (if b then s.readCodes c.cl c.seq x else (other, s)).2 = s := by
    intro b x other
    cases b
    · rfl
    · exact State.readCodes_snd h _ _
  unfold State.runElems
  dsimp only
  simp only [hread]

theorem State.runRed_snd (h : (s.core (coreOf c.cl)).spadBad = []) (op : VecOp) (t : ElemType) (active : List Bool) :
    (s.runRed c op t active).2 = s := by
  unfold State.runRed
  dsimp only
  rw [State.readCodes_snd h]
  split
  · exact State.readCodes_snd h _ _
  · rfl

/-- Reading the operands of a command has no other effect where no word is uncorrectable (R143, R320). -/
theorem State.runVec_snd (h : (s.core (coreOf c.cl)).spadBad = []) (op : VecOp) (imm : Bool) (t : ElemType) :
    (s.runVec c op imm t).2 = s := by
  unfold State.runVec
  dsimp only
  rw [State.vecActive_snd h]
  split
  · exact State.runRed_snd h _ _ _
  · split
    · exact State.runCvt_snd h _ _ _
    · exact State.runCvt_snd h _ _ _
    · exact State.readCodes_snd h _ _
    · exact State.runElems_snd h _ _ _ _

end

/-- A change of a queued command leaves memory alone. -/
theorem State.sameMemory_modVCmd (s : State) (k : CoreIx) (n : Nat) (f : VCmd → VCmd) : s.SameMemory (s.modVCmd k n f) :=
  fun l => s.peek_modCore k _ rfl l 1

/-! ### A command completes (R128, R142, R143) -/

/-- A core with a slot of a ring filled by a command, where it names one. -/
def Core.fillRing (x : Core) (q : Option RingRef) : Core :=
  match q with
  | some r => x.modRing r.k fun y => if y.canFill r.s then y.doFill r.s else y
  | none => x

/-- A core with a slot of a ring released by a command, where it names one. -/
def Core.releaseRing (x : Core) (q : Option RingRef) : Core :=
  match q with
  | some r => x.modRing r.k fun y => if y.canRelease r.s then y.doRelease r.s else y
  | none => x

/-- What the fill of a command does to ring j. -/
def Ring.filledBy (y : Ring) (q : Option RingRef) (j : Nat) : Ring :=
  match q with
  | some r => if r.k = j ∧ y.canFill r.s = true then y.doFill r.s else y
  | none => y

/-- What a release of a command does to ring j. -/
def Ring.releasedBy (y : Ring) (q : Option RingRef) (j : Nat) : Ring :=
  match q with
  | some r => if r.k = j ∧ y.canRelease r.s = true then y.doRelease r.s else y
  | none => y

theorem Core.ring_modRing (x : Core) (k : Nat) (f : Ring → Ring) {j : Nat} (hj : j < 64) :
    (x.modRing k f).ring j = if k = j then f (x.ring j) else x.ring j := by
  unfold Core.modRing
  show vget (vset x.rings k (f (x.ring k))) j Ring.reset = _
  rw [vget_vset]
  by_cases h : k = j
  · subst h; rw [if_pos ⟨rfl, hj⟩, if_pos rfl]
  · rw [if_neg (fun e => h e.1.symm), if_neg h]; rfl

theorem Core.ring_fillRing (x : Core) (q : Option RingRef) {j : Nat} (hj : j < 64) : (x.fillRing q).ring j = (x.ring j).filledBy q j := by
  cases q with
  | none => rfl
  | some r =>
    simp only [Core.fillRing, Ring.filledBy, Core.ring_modRing _ _ _ hj]
    by_cases h : r.k = j <;> simp [h]

theorem Core.ring_releaseRing (x : Core) (q : Option RingRef) {j : Nat} (hj : j < 64) :
    (x.releaseRing q).ring j = (x.ring j).releasedBy q j := by
  cases q with
  | none => rfl
  | some r =>
    simp only [Core.releaseRing, Ring.releasedBy, Core.ring_modRing _ _ _ hj]
    by_cases h : r.k = j <;> simp [h]

/-- The acts on rings change rings alone. -/
theorem Core.fillRing_frame (x : Core) (q : Option RingRef) : ∃ v, x.fillRing q = { x with rings := v } := by
  cases q <;> exact ⟨_, rfl⟩

theorem Core.releaseRing_frame (x : Core) (q : Option RingRef) : ∃ v, x.releaseRing q = { x with rings := v } := by
  cases q <;> exact ⟨_, rfl⟩

/-- A command with REL releases its source slots: an operand of the vector unit, with its flag. -/
def VCmd.releases (c : VCmd) : Bool := bit c.ga 4 && match c.kind with | .vec _ _ _ => true | _ => false

/-- A core with the acts of a command on its rings: the destination filled, the sources released. -/
def Core.ringActs (x : Core) (c : VCmd) : Core :=
  if c.releases then ((x.fillRing c.dring).releaseRing c.aring).releaseRing (if c.bring = c.aring then none else c.bring)
  else x.fillRing c.dring

/-- A core of which a command completes: it leaves the queue, its writes perform, and it acts on its rings. -/
def Core.completed (x : Core) (c : VCmd) : Core :=
  (({ x with vq := x.vq.filter fun e => e.seq != c.seq } : Core).putAll c.writes).ringActs c

theorem Core.ringActs_frame (x : Core) (c : VCmd) : ∃ v, x.ringActs c = { x with rings := v } := by
  unfold Core.ringActs
  split
  · obtain ⟨u, hu⟩ := x.fillRing_frame c.dring
    obtain ⟨v, hv⟩ := (x.fillRing c.dring).releaseRing_frame c.aring
    obtain ⟨w, hw⟩ := ((x.fillRing c.dring).releaseRing c.aring).releaseRing_frame (if c.bring = c.aring then none else c.bring)
    exact ⟨w, by rw [hw, hv, hu]⟩
  · exact x.fillRing_frame c.dring

theorem Core.completed_frame (x : Core) (c : VCmd) : ∃ d v, x.completed c =
    { x with vq := x.vq.filter fun e => e.seq != c.seq, spad := x.spad.writeAll c.writes, sdirty := d, rings := v } := by
  obtain ⟨d, hd⟩ := Core.putAll_frame { x with vq := x.vq.filter fun e => e.seq != c.seq } c.writes
  obtain ⟨v, hv⟩ := Core.ringActs_frame (({ x with vq := x.vq.filter fun e => e.seq != c.seq } : Core).putAll c.writes) c
  exact ⟨d, v, by rw [Core.completed, hv, hd]⟩

@[simp] theorem Core.completed_spad (x : Core) (c : VCmd) : (x.completed c).spad = x.spad.writeAll c.writes := by
  obtain ⟨d, v, h⟩ := x.completed_frame c
  rw [h]

@[simp] theorem Core.completed_vq (x : Core) (c : VCmd) : (x.completed c).vq = x.vq.filter fun e => e.seq != c.seq := by
  obtain ⟨d, v, h⟩ := x.completed_frame c
  rw [h]

@[simp] theorem Core.completed_hz (x : Core) (c : VCmd) : (x.completed c).hz = x.hz := by
  obtain ⟨d, v, h⟩ := x.completed_frame c
  rw [h]

theorem Core.completed_ring (x : Core) (c : VCmd) {j : Nat} (hj : j < 64) : (x.completed c).ring j =
    if c.releases then (((x.ring j).filledBy c.dring j).releasedBy c.aring j).releasedBy (if c.bring = c.aring then none else c.bring) j
    else (x.ring j).filledBy c.dring j := by
  obtain ⟨d, hd⟩ := Core.putAll_frame { x with vq := x.vq.filter fun e => e.seq != c.seq } c.writes
  have hring : (({ x with vq := x.vq.filter fun e => e.seq != c.seq } : Core).putAll c.writes).ring j = x.ring j := by
    rw [hd]; rfl
  unfold Core.completed Core.ringActs
  split
  · rw [Core.ring_releaseRing _ _ hj, Core.ring_releaseRing _ _ hj, Core.ring_fillRing _ _ hj, hring]
  · rw [Core.ring_fillRing _ _ hj, hring]

/-- A state with a slot of a ring filled by a command, where it names one (R142). -/
def State.fillFor (s : State) (k : CoreIx) (q : Option RingRef) : State :=
  match q with
  | some r => s.ringFill k r.k r.s
  | none => s

/-- A state with a slot of a ring released by a command, where it names one (R142). -/
def State.releaseFor (s : State) (k : CoreIx) (q : Option RingRef) : State :=
  match q with
  | some r => s.ringRelease k r.k r.s
  | none => s

theorem State.fillFor_eq (s : State) (k : CoreIx) (q : Option RingRef) : s.fillFor k q = s.modCore k fun x => x.fillRing q := by
  cases q
  · exact (s.modCore_self k).symm
  · rfl

theorem State.releaseFor_eq (s : State) (k : CoreIx) (q : Option RingRef) : s.releaseFor k q = s.modCore k fun x => x.releaseRing q := by
  cases q
  · exact (s.modCore_self k).symm
  · rfl

/-- The ring acts of a command are one change of its core (R142). -/
theorem State.ringActs_eq (s : State) (k : CoreIx) (c : VCmd) :
    (if c.releases then ((s.fillFor k c.dring).releaseFor k c.aring).releaseFor k (if c.bring = c.aring then none else c.bring)
      else s.fillFor k c.dring) = s.modCore k fun x => x.ringActs c := by
  unfold Core.ringActs
  split
  · rw [State.fillFor_eq, State.releaseFor_eq, State.releaseFor_eq, State.modCore_modCore, State.modCore_modCore]
  · exact s.fillFor_eq k c.dring

/-- A command's completion is one change of its core, and its flags (R142, R143, R128). -/
theorem State.vecComplete_eq {s : State} {k : CoreIx} {c : VCmd} (h : (s.core k).spadBad = [] ∨ c.writes = []) :
    s.vecComplete k c = (s.modCore k fun x => x.completed c).mergeFlags c.cl c.seq c.flags := by
  have hstore := State.storeAll_spad (s := s.modCore k fun x => { x with vq := x.vq.filter fun e => e.seq != c.seq }) (k := k)
    (ws := c.writes) (by simpa using h) ((s.cluster c.cl).lid)
  rw [State.modCore_modCore] at hstore
  have hacts := State.ringActs_eq (s.modCore k fun x => ({ x with vq := x.vq.filter fun e => e.seq != c.seq } : Core).putAll c.writes) k c
  rw [State.modCore_modCore, ← hstore] at hacts
  refine Eq.trans ?_ (congrArg (fun t : State => t.mergeFlags c.cl c.seq c.flags) hacts)
  unfold State.vecComplete VCmd.releases vFlag
  cases bit c.ga 4 <;> cases c.kind <;> rfl

theorem State.core_mergeFlags (s : State) (c : CluIx) (n : Nat) (f : Flags) (k : CoreIx) : (s.mergeFlags c n f).core k = s.core k := rfl

theorem State.cluster_mergeFlags (s : State) (c : CluIx) (n : Nat) (f : Flags) : (s.mergeFlags c n f).cluster c =
    if (s.cluster c).runs n then { s.cluster c with fpflg := (s.cluster c).fpflg ||| f } else s.cluster c :=
  s.cluster_modCluster c _

theorem State.cluster_mergeFlags_ne (s : State) {c e : CluIx} (n : Nat) (f : Flags) (h : e ≠ c) :
    (s.mergeFlags c n f).cluster e = s.cluster e := s.cluster_modCluster_ne _ h

theorem execVectorCommandComplete_done {s : State} {k : CoreIx} {n : Nat} {c : VCmd} (h : (s.core k).vcmd n = some c)
    (hd : s.vecDone k c = true) (hk : ∀ q r, c.kind ≠ .push q r) :
    exec (.vectorCommandComplete k n) s = .next (s.vecComplete k c) := by
  change execVectorCommandComplete k n s = _
  unfold execVectorCommandComplete
  rw [h]
  dsimp only
  split
  · exact absurd ‹_› (hk _ _)
  · rw [if_pos hd]

theorem execHorizonCheckpoint_done {s : State} {k : CoreIx} {n q : Nat} {r : Bool} {c : VCmd} (h : (s.core k).vcmd n = some c)
    (hd : s.vecDone k c = true) (hk : c.kind = .push q r) :
    exec (.horizonCheckpoint k n) s = .next ((s.modCore k fun x => x.modHz q fun h =>
      { h with ser := h.ser.checkpoint h.cfg c.value }).vecComplete k c) := by
  change execHorizonCheckpoint k n s = _
  simp only [execHorizonCheckpoint, h, hk, hd, if_true]

theorem Core.vcmd_completed (x : Core) (c : VCmd) (m : Nat) :
    (x.completed c).vcmd m = if m = c.seq then none else x.vcmd m := by
  unfold Core.vcmd
  rw [Core.completed_vq, List.find?_filter]
  split
  · next h => exact List.find?_eq_none.2 fun e _ => by simp [h]
  · next h => exact List.find?_congr fun e _ => by by_cases he : e.seq = m <;> simp [he, h]

/-- A byte of memory after a change of a core, where it is none of the bytes written to that core's scratchpad. -/
theorem State.peek_completed {s : State} {k : CoreIx} {c : VCmd} (hw : (s.core k).spad.wf = true) {l : Loc}
    (hl : ∀ w ∈ c.writes, ∀ i < w.2.length, l ≠ .spad k (w.1 + i)) :
    (s.modCore k fun x => x.completed c).peek l 1 = s.peek l 1 := by
  cases l with
  | spad j b =>
    by_cases hj : j = k
    · subst hj
      show ((s.modCore j _).core j).spad.readN b 1 = (s.core j).spad.readN b 1
      rw [State.core_modCore, Core.completed_spad, Mem.readN_one, Mem.readN_one, Mem.read_writeAll_outside hw fun w hm => ?_]
      by_contra hin
      exact hl w hm (b - w.1) (by omega) (by congr 1; omega)
    · show ((s.modCore k _).core j).spad.readN b 1 = (s.core j).spad.readN b 1
      rw [State.core_modCore_ne _ _ hj]
  | _ => rfl

theorem Core.hzSlot_modHz (x : Core) (q : Nat) (f : HzSlot → HzSlot) {j : Nat} (hj : j < 16) :
    (x.modHz q f).hzSlot j = if j = q then f (x.hzSlot q) else x.hzSlot j := by
  show vget (vset x.hz q (f (x.hzSlot q))) j HzSlot.reset = _
  rw [vget_vset]
  simp [hj, Core.hzSlot]

theorem Core.hzSlot_completed (x : Core) (c : VCmd) (j : Nat) : (x.completed c).hzSlot j = x.hzSlot j := by
  rw [Core.hzSlot, Core.completed_hz]; rfl

/-! ### Words put together from fields (R6) -/

theorem packNat_append (xs ys : List (Nat × Nat)) : packNat (xs ++ ys) = packNat xs + packNat ys := by
  have shift : ∀ (zs : List (Nat × Nat)) (a : Nat), zs.foldl (fun acc f => acc + f.2 <<< f.1) a = a + packNat zs := by
    intro zs
    induction zs with
    | nil => exact fun _ => rfl
    | cons z zs ih =>
      intro a
      rw [packNat, List.foldl_cons, List.foldl_cons, ih, ih, Nat.zero_add, Nat.add_assoc]
  rw [packNat, List.foldl_append, shift]
  rfl

/-- A number of single flags: it is below 2^n, and bit j is the flag of j. -/
theorem packNat_flags (p : Nat → Bool) (n : Nat) :
    packNat ((List.range n).map fun k => (k, flagNat (p k))) < 2 ^ n ∧
    ∀ j < n, (packNat ((List.range n).map fun k => (k, flagNat (p k)))).testBit j = p j := by
  induction n with
  | zero => exact ⟨Nat.one_pos, fun j hj => absurd hj (Nat.not_lt_zero j)⟩
  | succ n ih =>
    obtain ⟨hlt, hbit⟩ := ih
    have hsplit : packNat ((List.range (n + 1)).map fun k => (k, flagNat (p k))) =
        2 ^ n * flagNat (p n) + packNat ((List.range n).map fun k => (k, flagNat (p k))) := by
      rw [List.range_succ, List.map_append, packNat_append, Nat.add_comm]
      simp [packNat, Nat.shiftLeft_eq, Nat.mul_comm]
    rw [hsplit]
    refine ⟨?_, fun j hj => ?_⟩
    · have := Nat.mul_le_mul_left (2 ^ n) (Nat.le_of_lt_succ (flagNat_lt (p n)))
      omega
    · rw [Nat.testBit_two_pow_mul_add _ hlt]
      split
      · exact hbit j ‹_›
      · obtain rfl : j = n := by omega
        cases p j <;> simp [flagNat]

/-! ### VFENCE and VBUSY (R153, R154) -/

/-- A delivery point completes the word that issues (R129). -/
theorem State.advanceDeliver_delivered (s : State) : s.Delivered s.advanceDeliver 0 0 := by
  have hme : s.advanceDeliver.me = s.me.advance.deliver := by
    rw [State.advanceDeliver, State.me_modMe, State.me_advance]
  have hdeliver : ∀ c : Cluster, c.deliver = c ∨ ∃ v, c.deliver = c.addPend .fpx v := fun c => by
    unfold Cluster.deliver
    dsimp only
    split
    · exact .inl rfl
    · exact .inr ⟨_, rfl⟩
  have hsame : (∀ r, s.me.advance.deliver.g r = s.me.advance.g r) ∧ s.me.advance.deliver.fpflg = s.me.advance.fpflg ∧
      s.me.advance.deliver.mode = s.me.advance.mode ∧ s.me.advance.deliver.pc = s.me.advance.pc ∧
      s.me.advance.deliver.loops = s.me.advance.loops := by
    rcases hdeliver s.me.advance with h | ⟨v, h⟩ <;> rw [h] <;> exact ⟨fun _ => rfl, rfl, rfl, rfl, rfl⟩
  obtain ⟨hg, hf, hm, hpc, hl⟩ := hsame
  have hflags : s.me.advance.fpflg &&& s.me.advance.fpxen = s.me.fpflg &&& s.me.fpxen := by simp
  refine ⟨?_, ?_, ?_, ?_, fun hx => ?_, fun hx => ?_, ?_, ?_⟩
  · rw [hme]
    exact s.me.takes_none fun r => (hg r).trans (s.me.advance_g r)
  · rw [hme, hf, Cluster.advance_fpflg]
  · rw [hme, hm, Cluster.advance_mode]
  · rw [hme]
    intro h
    obtain ⟨h1, h2⟩ := s.me.advance_follows h
    exact ⟨hpc.trans h1, hl.trans h2⟩
  · have hd : s.me.advance.deliver = s.me.advance.addPend .fpx ((s.me.fpflg &&& s.me.fpxen).setWidth 64) := by
      unfold Cluster.deliver
      rw [hflags]
      exact if_neg hx
    rw [hme, hd]
    simp [Cluster.addPend, List.filter_append, List.filter_filter]
  · have hd : s.me.advance.deliver = s.me.advance := by
      unfold Cluster.deliver
      rw [hflags]
      exact if_pos hx
    rw [hme, hd]
    exact s.me.advance_keeps
  · unfold State.OnlyMe
    rw [hme]
    show (s.advance).setCluster s.focus (s.advance.me.deliver) = _
    rw [State.me_advance]
    exact congrArg (fun t : State => { t with note := .done }) (s.setCluster_setCluster s.focus _ _)
  · exact fun l => State.peek_congr rfl rfl rfl rfl l 1

/-- A word that cannot complete yet waits at its PC (R32). -/
theorem State.stall_waits (s : State) : s.stall.me.waiting = true ∧ s.stall.me.pc = s.me.pc ∧ s.stall.me.regs = s.me.regs := by
  have hme : s.stall.me = { s.me with waiting := true } := s.me_modMe fun c => { c with waiting := true }
  rw [hme]
  exact ⟨rfl, rfl, rfl⟩

theorem execVfence_passes {s : State} {a : Reg} (h : ∀ c ∈ s.myVcmds, a ≠ 0 ∧ bit (s.g a) c.cls.toNat = false) :
    exec (.vfence a) s = .next s.advanceDeliver := by
  change execVfence a s = _
  rw [execVfence, if_neg]
  rw [List.any_eq_true]
  rintro ⟨c, hc, hn⟩
  obtain ⟨ha, hb⟩ := h c hc
  rw [hb, Bool.or_false] at hn
  exact ha (of_decide_eq_true hn)

theorem execVfence_waits {s : State} {a : Reg} (h : ∃ c ∈ s.myVcmds, a = 0 ∨ bit (s.g a) c.cls.toNat = true) :
    exec (.vfence a) s = .next s.stall := by
  change execVfence a s = _
  obtain ⟨c, hc, hn⟩ := h
  rw [execVfence, if_pos]
  exact List.any_eq_true.2 ⟨c, hc, by simpa using hn⟩

/-- What VBUSY answers of a list of commands (R154). -/
def busyWord (cs : List VCmd) : Word :=
  packWord ((16, cs.length) :: (List.range 16).map fun k => (k, flagNat (cs.any fun c => c.cls.toNat == k)))

theorem busyWord_fields (cs : List VCmd) : (∀ j, j < 16 → bit (busyWord cs) j = cs.any fun c => c.cls.toNat == j) ∧
    (cs.length < 2 ^ 48 → bits (busyWord cs) 16 48 = cs.length) := by
  obtain ⟨hlt, hbit⟩ := packNat_flags (fun k => cs.any fun c => c.cls.toNat == k) 16
  have hword : packNat ((16, cs.length) :: (List.range 16).map fun k => (k, flagNat (cs.any fun c => c.cls.toNat == k))) =
      2 ^ 16 * cs.length + packNat ((List.range 16).map fun k => (k, flagNat (cs.any fun c => c.cls.toNat == k))) := by
    rw [← List.singleton_append, packNat_append]
    simp [packNat, Nat.shiftLeft_eq, Nat.mul_comm]
  unfold busyWord packWord
  rw [hword]
  refine ⟨fun j hj => ?_, fun hlen => ?_⟩
  · rw [bit, word, BitVec.getLsbD_ofNat, Nat.testBit_two_pow_mul_add _ hlt, if_pos hj, hbit j hj]
    simp [show j < 64 by omega]
  · simp only [bits, nbits, word, BitVec.toNat_ofNat, Nat.shiftRight_eq_div_pow]
    omega

/-! ### The statement -/

/-- A command that may start (R142). -/
theorem vectorCommandStart_runs {s : State} {k : CoreIx} {n : Nat} {c : VCmd} (h : (s.core k).vcmd n = some c)
    (hr : s.vecReady k c = true) :
    (∀ op imm ty, c.kind = .vec op imm ty →
      exec (.vectorCommandStart k n) s = .next ((s.runVec c op imm ty).2.modVCmd k n fun x => { x with
        started := true, writes := (s.runVec c op imm ty).1.writes, flags := (s.runVec c op imm ty).1.flags })) ∧
    (∀ q, c.kind = .push q true →
      exec (.vectorCommandStart k n) s = .next (s.modVCmd k n fun x => { x with started := true, value := c.gb.setWidth 32 })) ∧
    (∀ q, c.kind = .push q false → (s.core (coreOf c.cl)).spadBad = [] →
      exec (.vectorCommandStart k n) s = .next (s.modVCmd k n fun x => { x with
        started := true, value := BitVec.ofNat 32 (leNat (s.peek (.spad (coreOf c.cl) (bits c.ga 0 24)) 4)) })) ∧
    (∀ q, c.kind = .result q →
      exec (.vectorCommandStart k n) s = .next (s.modVCmd k n fun x => { x with
        started := true, writes := [(bits c.ga 0 24, leBytes 4 (((s.core k).hzSlot q).ser.result).toNat)] })) := by
  have hseq := Core.seq_of_vcmd h
  rw [execVectorCommandStart_ready h hr]
  unfold State.vecStart
  rw [hseq]
  refine ⟨fun op imm ty hk => ?_, fun q hk => ?_, fun q hk hb => ?_, fun q hk => ?_⟩
  · rw [hk]
  · rw [hk]; rfl
  · rw [hk]
    simp [State.readCodes, State.readShape_sound hb, Shape.at]
  · rw [hk]

/-- What a completed command has done to the clusters: its flags are merged while its record runs (R128). -/
theorem State.completed_flagged (s : State) (k : CoreIx) (f : Core → Core) (c : VCmd) :
    (∀ j, j ≠ c.cl → ((s.modCore k f).mergeFlags c.cl c.seq c.flags).cluster j = s.cluster j) ∧
    ((s.modCore k f).mergeFlags c.cl c.seq c.flags).cluster c.cl =
      if (s.cluster c.cl).runs c.seq then { s.cluster c.cl with fpflg := (s.cluster c.cl).fpflg ||| c.flags } else s.cluster c.cl :=
  ⟨fun _ hj => State.cluster_mergeFlags_ne _ _ _ hj, State.cluster_mergeFlags _ _ _ _⟩

/-- Settles O23: the start and the completion of a queued command, kind by kind, and the two words that ask for the queue. -/
theorem vectorQueueRuns : Obligations.VectorQueueRuns := by
  refine ⟨fun s k n c h hr => ?_, fun s k n c h hd => ?_, fun s d a => ⟨fun hn => ?_, fun hn => ?_, ?_⟩⟩
  · obtain ⟨hvec, hreg, hmem, hres⟩ := vectorCommandStart_runs h hr
    refine ⟨fun op imm ty hk => ⟨_, hvec op imm ty hk, rfl, fun hb => ?_⟩, fun q hk => ⟨_, hreg q hk, rfl⟩,
      fun q hk hb => ⟨_, hmem q hk hb, rfl⟩, fun q hk => ⟨_, hres q hk, rfl⟩⟩
    rw [State.runVec_snd hb]
    exact s.sameMemory_modVCmd k n _
  · have hseq := Core.seq_of_vcmd h
    refine ⟨fun hk hw hb => ?_, fun q r hq hk hnw hnr => ?_⟩
    · have hcore : ((s.modCore k fun x => x.completed c).mergeFlags c.cl c.seq c.flags).core k = (s.core k).completed c :=
        (State.core_mergeFlags _ _ _ _ k).trans (s.core_modCore k _)
      refine ⟨_, execVectorCommandComplete_done h hd hk, ?_⟩
      rw [State.vecComplete_eq (.inl hb), hcore]
      refine ⟨?_, fun m hm => ?_, s.completed_flagged k _ c, fun pre w post hws hpost => ?_, fun l hl => ?_, fun j hj => ?_⟩
      · rw [Core.vcmd_completed, if_pos hseq.symm]
      · rw [Core.vcmd_completed, if_neg (hseq.symm ▸ hm)]
      · show (((s.modCore k fun x => x.completed c).core k).spad).readN w.1 w.2.length = w.2
        rw [State.core_modCore, Core.completed_spad, hws]
        exact Mem.readN_writeAll hw hpost
      · exact (State.peek_modCluster _ _ _ l 1).trans (State.peek_completed hw hl)
      · exact Core.completed_ring (s.core k) c hj
    · let f : HzSlot → HzSlot := fun y => { y with ser := y.ser.checkpoint y.cfg c.value }
      have hcore : (((s.modCore k fun x => x.modHz q f).modCore k fun x => x.completed c).mergeFlags c.cl c.seq c.flags).core k =
          ((s.core k).modHz q f).completed c := by
        rw [State.core_mergeFlags, State.core_modCore, State.core_modCore]
      refine ⟨_, execHorizonCheckpoint_done h hd hk, ?_⟩
      rw [State.vecComplete_eq (.inr hnw), hcore]
      refine ⟨?_, ?_, fun l => ?_, ?_, fun j hj hne => ?_⟩
      · rw [Core.vcmd_completed, if_pos hseq.symm]
      · rw [State.modCore_modCore]
        exact s.completed_flagged k _ c
      · rw [State.modCore_modCore]
        refine (State.peek_modCluster _ _ _ l 1).trans (s.peek_modCore k _ ?_ l 1)
        rw [Core.completed_spad, hnw]
        rfl
      · rw [Core.hzSlot_completed, Core.hzSlot_modHz _ _ _ hq, if_pos rfl]
      · rw [Core.hzSlot_completed, Core.hzSlot_modHz _ _ _ hj, if_neg hne]
  · exact ⟨_, execVfence_passes hn, s.advanceDeliver_delivered⟩
  · exact ⟨_, execVfence_waits hn, s.stall_waits⟩
  · exact ⟨_, _, rfl, s.finish_wrote d _, busyWord_fields s.myVcmds⟩

end Sys2Proof.Machine
end

section
/-!
The Horizon words: the statement `HorizonWords` (R130, R156 to R161).
-/

namespace Sys2Proof.Machine

/-! ### Words that complete after a change of the core -/

/-- A word that changes the core that issues, its scratchpad apart, and completes. -/
theorem State.modMyCore_passed {s : State} {f : Core → Core} (h : ∀ x, (f x).spad = x.spad) :
    (s.modMyCore f).Passed (s.modMyCore f).advance ∧ s.SameMemory (s.modMyCore f).advance :=
  ⟨(s.modMyCore f).advance_passed, fun l => ((s.modMyCore f).advance_passed.memory l).trans (s.peek_modCore _ _ (h _) l 1)⟩

/-! ### HZCFG, HZCLR and HZEST (R157, R159, R161) -/

section
variable {s : State} {k : BitVec 4} (d a b : Reg)

theorem execHzcfg_sets (hr : outside (s.g a) (maskAt 12 20 + maskAt 8 2) = false)
    (ho : (⟨s.g a, s.g b, s.g d, Series.reset⟩ : HzSlot).cfg.ok = true) (hp : s.myCore.hzPending k.toNat s.serial = false) :
    exec (.hzcfg k d a b) s =
      .next (s.modMyCore fun x => x.modHz k.toNat fun _ => ⟨s.g a, s.g b, s.g d, Series.reset⟩).advance := by
  change execHzcfg k d a b s = _
  simp only [execHzcfg, hr, ho, State.hzWaits, hp, Bool.not_true, Bool.false_eq_true, if_false]

theorem execHzcfg_reserved (hr : outside (s.g a) (maskAt 12 20 + maskAt 8 2) = true) :
    exec (.hzcfg k d a b) s = .next (s.trap .lch 0x202) := by
  change execHzcfg k d a b s = _
  simp only [execHzcfg, hr, if_true]

theorem execHzcfg_illegal (hr : outside (s.g a) (maskAt 12 20 + maskAt 8 2) = false)
    (ho : (⟨s.g a, s.g b, s.g d, Series.reset⟩ : HzSlot).cfg.ok = false) :
    exec (.hzcfg k d a b) s = .next (s.trap .lch 0x201) := by
  change execHzcfg k d a b s = _
  simp only [execHzcfg, hr, ho, Bool.not_false, Bool.false_eq_true, if_false, if_true]

theorem execHzclr_clears (hp : s.myCore.hzPending k.toNat s.serial = false) :
    exec (.hzclr k) s = .next (s.modMyCore fun x => x.modHz k.toNat fun y => { y with ser := Series.reset }).advance := by
  change execHzclr k s = _
  simp only [execHzclr, State.hzWaits, hp, Bool.false_eq_true, if_false]

end

/-- What HZEST answers of a slot (R159). -/
def HzSlot.estWord (h : HzSlot) : Word :=
  packWord [(48, flagNat (h.ser.closed h.cfg)), (40, h.ser.n), (32, h.ser.flags), (0, h.ser.t.toNat)]

theorem execHzest_answers {s : State} {k : BitVec 4} (d : Reg) (hp : s.myCore.hzPending k.toNat s.serial = false) :
    exec (.hzest d k) s = .next (s.finish d (s.myCore.hzSlot k.toNat).estWord) := by
  change execHzest d k s = _
  simp only [execHzest, State.hzWaits, hp, Bool.false_eq_true, if_false]
  rfl

/-- The answer of HZEST as a sum of its fields (R131, R159). -/
theorem HzSlot.estWord_toNat {h : HzSlot} (hn : h.ser.n < 256) : h.estWord.toNat =
    h.ser.t.toNat + 2 ^ 32 * flagNat h.ser.conv + 2 ^ 33 * flagNat h.ser.nzd + 2 ^ 34 * flagNat h.ser.stag +
      2 ^ 35 * flagNat h.ser.lim + 2 ^ 40 * h.ser.n + 2 ^ 48 * flagNat (h.ser.closed h.cfg) := by
  have ht : h.ser.t.toNat < 2 ^ 32 := h.ser.t.isLt
  have h0 := flagNat_lt h.ser.conv
  have h1 := flagNat_lt h.ser.nzd
  have h2 := flagNat_lt h.ser.stag
  have h3 := flagNat_lt h.ser.lim
  have h4 := flagNat_lt (h.ser.closed h.cfg)
  simp only [HzSlot.estWord, packWord, packNat, Series.flags, List.foldl, Nat.shiftLeft_eq, word, BitVec.toNat_ofNat]
  omega

/-- Bit i of a word, by the number it stands for. -/
theorem bit_eq_flag {w : Word} {i : Nat} {p : Bool} (h : w.toNat / 2 ^ i % 2 = flagNat p) : bit w i = p := by
  rw [bit, BitVec.getLsbD, Nat.testBit_eq_decide_div_mod_eq, h]
  cases p <;> rfl

theorem HzSlot.estWord_fields {h : HzSlot} (hn : h.ser.n < 256) : bits h.estWord 0 32 = h.ser.t.toNat ∧
    bit h.estWord 32 = h.ser.conv ∧ bit h.estWord 33 = h.ser.nzd ∧ bit h.estWord 34 = h.ser.stag ∧ bit h.estWord 35 = h.ser.lim ∧
    bits h.estWord 40 8 = h.ser.n ∧ bit h.estWord 48 = h.ser.closed h.cfg := by
  have hword := HzSlot.estWord_toNat hn
  have ht : h.ser.t.toNat < 2 ^ 32 := h.ser.t.isLt
  have h0 := flagNat_lt h.ser.conv
  have h1 := flagNat_lt h.ser.nzd
  have h2 := flagNat_lt h.ser.stag
  have h3 := flagNat_lt h.ser.lim
  have h4 := flagNat_lt (h.ser.closed h.cfg)
  refine ⟨?_, bit_eq_flag ?_, bit_eq_flag ?_, bit_eq_flag ?_, bit_eq_flag ?_, ?_, bit_eq_flag ?_⟩ <;>
    simp only [bits, nbits, Nat.shiftRight_eq_div_pow, hword] <;> omega

/-! ### The parameters of a series (R130) -/

/-- A reserved bit is written where some bit is set that the mask lacks (R6). -/
theorem outside_iff (w : Word) (mask : Nat) : outside w mask = true ↔ ∃ i < 64, bit w i = true ∧ mask.testBit i = false := by
  constructor
  · intro h
    by_contra hn
    refine Bool.false_ne_true (Eq.trans (outside_eq_false fun i hi hb => ?_).symm h)
    by_contra hm
    exact hn ⟨i, hi, hb, Bool.eq_false_iff.2 hm⟩
  · rintro ⟨i, hi, hb, hm⟩
    rw [bit] at hb
    have hbit : (w &&& ~~~word mask).getLsbD i = true := by
      rw [BitVec.getLsbD_and, BitVec.getLsbD_not, word, BitVec.getLsbD_ofNat, hb, hm]
      simp [hi]
    rw [outside, bne_iff_ne]
    intro hz
    rw [hz] at hbit
    simp at hbit

theorem bits_ne_zero_iff (w : Word) (lo n : Nat) : (bits w lo n != 0) = true ↔ ∃ i < n, bit w (lo + i) = true := by
  have hbit : ∀ i, (bits w lo n).testBit i = (decide (i < n) && bit w (lo + i)) := fun i => by
    rw [bits, nbits, Nat.testBit_mod_two_pow, Nat.testBit_shiftRight]
    rfl
  rw [bne_iff_ne]
  constructor
  · intro h
    obtain ⟨i, hi⟩ := Nat.exists_testBit_of_ne_zero h
    rw [hbit, Bool.and_eq_true] at hi
    exact ⟨i, of_decide_eq_true hi.1, hi.2⟩
  · rintro ⟨i, hi, hb⟩ hz
    have := hbit i
    simp [hz, hi, hb] at this

/-- HZCFG's reserved bits are 7:0, 11:10 and 63:32 of gA (R131). -/
theorem outside_hzctl (v : Word) :
    outside v (maskAt 12 20 + maskAt 8 2) = (bits v 0 8 != 0 || bits v 10 2 != 0 || bits v 32 32 != 0) := by
  have hmask : ∀ i < 64, (maskAt 12 20 + maskAt 8 2).testBit i = false ↔ i < 8 ∨ (10 ≤ i ∧ i < 12) ∨ 32 ≤ i := by decide
  rw [Bool.eq_iff_iff, outside_iff, Bool.or_eq_true, Bool.or_eq_true, bits_ne_zero_iff, bits_ne_zero_iff, bits_ne_zero_iff]
  constructor
  · rintro ⟨i, hi, hb, hm⟩
    rcases (hmask i hi).1 hm with h | ⟨h, h'⟩ | h
    · exact .inl (.inl ⟨i, h, by rwa [Nat.zero_add]⟩)
    · exact .inl (.inr ⟨i - 10, by omega, by rwa [Nat.add_sub_cancel' h]⟩)
    · exact .inr ⟨i - 32, by omega, by rwa [Nat.add_sub_cancel' h]⟩
  · rintro ((⟨i, hi, hb⟩ | ⟨i, hi, hb⟩) | ⟨i, hi, hb⟩)
    · exact ⟨_, by omega, hb, (hmask _ (by omega)).2 (.inl (by omega))⟩
    · exact ⟨_, by omega, hb, (hmask _ (by omega)).2 (.inr (.inl (by omega)))⟩
    · exact ⟨_, by omega, hb, (hmask _ (by omega)).2 (.inr (.inr (by omega)))⟩

/-- An F32 code is finite unless its exponent is all ones, and then a NaN unless its fraction is zero (R102). -/
theorem numF32_class (c : W32) : (finiteF32 c = true ↔ c.toNat / 2 ^ 23 % 2 ^ 8 ≠ 255) ∧
    ((numF32 c).isNan = true ↔ c.toNat / 2 ^ 23 % 2 ^ 8 = 255 ∧ c.toNat % 2 ^ 23 ≠ 0) := by
  have he : nbits c.toNat 23 8 = c.toNat / 2 ^ 23 % 2 ^ 8 := by rw [nbits, Nat.shiftRight_eq_div_pow]
  have hx : nbits c.toNat 0 23 = c.toNat % 2 ^ 23 := rfl
  unfold finiteF32 numF32 Fmt.decode
  simp only [fmtF32, he, hx]
  generalize c.toNat / 2 ^ 23 % 2 ^ 8 = e
  generalize c.toNat % 2 ^ 23 = x
  by_cases h : e = 255
  · by_cases hz : x = 0 <;> simp [h, hz, Num.isFinite, Num.isNan]
  · by_cases hz : e = 0 <;> simp [h, hz, Num.isFinite, Num.isNan]

theorem sign_iff (c : W32) : c.getLsbD 31 = false ↔ c.toNat < 2 ^ 31 := by
  rw [BitVec.getLsbD, Nat.testBit_eq_decide_div_mod_eq, decide_eq_false_iff_not]
  have := c.isLt
  omega

/-- The code of a tolerance or floor lies below that of infinity (R130). -/
theorem hzFiniteOk_iff (c : W32) : hzFiniteOk c = true ↔ c.toNat < 0x7F80_0000 := by
  have := c.isLt
  rw [hzFiniteOk, Bool.and_eq_true, (numF32_class c).1, Bool.not_eq_true', sign_iff]
  omega

/-- That of STAGT may also be infinity (R130). -/
theorem stagtOk_iff (c : W32) : (c.getLsbD 31 = false ∧ (numF32 c).isNan = false) ↔ c.toNat ≤ 0x7F80_0000 := by
  have := c.isLt
  rw [sign_iff, Bool.eq_false_iff, Ne, (numF32_class c).2]
  omega

/-- The depths that a mode allows (R130). -/
def depthOk (mode depth : Nat) : Prop :=
  (mode = 0 ∧ depth = 0) ∨ (mode = 1 ∧ (depth = 2 ∨ depth = 4 ∨ depth = 6)) ∨ (mode = 2 ∧ 3 ≤ depth ∧ depth ≤ 8)

/-- The table of R130. -/
theorem SeriesCfg.ok_iff (c : SeriesCfg) : c.ok = true ↔ depthOk c.mode c.depth ∧ 1 ≤ c.minc ∧ c.minc ≤ c.maxc ∧ c.maxc ≤ 255 ∧
    c.atol.toNat < 0x7F80_0000 ∧ c.rtol.toNat < 0x7F80_0000 ∧ c.floor.toNat < 0x7F80_0000 ∧ c.stagt.toNat ≤ 0x7F80_0000 := by
  have hdepth : (c.mode ≤ 2 ∧ (match c.mode with
      | 0 => c.depth == 0
      | 1 => c.depth == 2 || c.depth == 4 || c.depth == 6
      | _ => decide (3 ≤ c.depth) && decide (c.depth ≤ 8)) = true) ↔ depthOk c.mode c.depth := by
    unfold depthOk
    split
    · next h => simp [h]
    · next h => simp [h, or_assoc]
    · next h0 h1 =>
      simp only [Bool.and_eq_true, decide_eq_true_eq]
      have : c.mode ≠ 0 := h0
      have : c.mode ≠ 1 := h1
      omega
  rw [← hdepth, ← stagtOk_iff, ← hzFiniteOk_iff, ← hzFiniteOk_iff, ← hzFiniteOk_iff]
  simp only [SeriesCfg.ok, Bool.and_eq_true, decide_eq_true_eq, Bool.not_eq_true']
  tauto

theorem HzSlot.cfg_ok_iff (ctl tol lim : Word) (ser : Series) : (⟨ctl, tol, lim, ser⟩ : HzSlot).cfg.ok = true ↔
    depthOk (bits ctl 8 2) (bits ctl 12 4) ∧ 1 ≤ bits ctl 16 8 ∧ bits ctl 16 8 ≤ bits ctl 24 8 ∧
    tol.toNat / 2 ^ 32 < 0x7F80_0000 ∧ tol.toNat % 2 ^ 32 < 0x7F80_0000 ∧ lim.toNat / 2 ^ 32 < 0x7F80_0000 ∧
    lim.toNat % 2 ^ 32 ≤ 0x7F80_0000 := by
  have hhi : ∀ w : Word, ((w >>> 32).setWidth 32 : W32).toNat = w.toNat / 2 ^ 32 := fun w => by
    have := w.isLt
    rw [BitVec.toNat_setWidth, BitVec.toNat_ushiftRight, Nat.shiftRight_eq_div_pow]
    omega
  have hmax : bits ctl 24 8 ≤ 255 := Nat.le_of_lt_succ (Nat.mod_lt _ (by decide))
  rw [SeriesCfg.ok_iff]
  simp only [HzSlot.cfg, hhi, BitVec.toNat_setWidth, hmax, true_and]

/-! ### HZPSH and HZRD (R158, R160, R312) -/

/-- The bytes of a checkpoint or a result in the scratchpad. -/
def hzRange (ga : Word) : List (Nat × Nat) := [(bits ga 0 24, bits ga 0 24 + 4)]

/-- There is room for a command of the cluster that issues, and no fence in its way (R143). -/
def State.vecRoom (s : State) (o : Cls) : Prop :=
  s.myCore.vq.length < 32 ∧ (s.myCore.vq.filter fun c => c.cl == s.focus).length < 8 ∧ s.me.gated .v o = false

theorem State.vecRoom_free {s : State} {o : Cls} (h : s.vecRoom o) : (s.vqFull || s.me.gated .v o) = false := by
  obtain ⟨hall, hmine, hgate⟩ := h
  simp [State.vqFull, hgate, hall, hmine]

/-- A queued command of the cluster that issues enters its core's queue, and the word completes (R143). -/
theorem State.vqEnter_passed (s : State) (c : VCmd) :
    ((s.modMyCore fun x => { x with vq := x.vq ++ [{ c with seq := s.serial, exempt := s.exemptNow s.myCoreIx }] }).tick).Passed
      (s.vqEnter c) ∧ s.SameMemory (s.vqEnter c) :=
  ⟨State.advance_passed _, fun l => (State.peek_congr rfl rfl rfl rfl l 1).trans (s.peek_modCore s.myCoreIx (fun x =>
    { x with vq := x.vq ++ [{ c with seq := s.serial, exempt := s.exemptNow s.myCoreIx }] }) rfl l 1)⟩

/-- A state whose cluster keeps the operands of a Horizon word that traps: gA, and g0 (R155, R156; log 55). -/
def State.keepVlc (s : State) (ga : Word) : State := s.modMe fun c => { c with vlca := ga, vlcb := 0 }

/-- The look-up in the world map leaves the clusters alone (R312). -/
theorem State.actors_of_barred {s u : State} {k : CoreIx} {rs : List (Nat × Nat)} {w : Option Nat} (hb : s.spadBarred k rs = (w, u)) :
    u.actors = s.actors := by
  have h := s.actors_spadBarred k rs
  rwa [hb] at h

section
variable {s u : State} {kind : VecKind} {a : Reg} {o : Cls} {w : Option Nat}
  (hb : s.spadBarred s.myCoreIx (hzRange (s.g a)) = (w, u))
include hb

theorem State.hzAccess_eq : s.hzAccess kind a o = .next (
    let fails (cause : Cause) (v : Word) (p : Nat) : State := (u.keepVlc (s.g a)).trap cause v p
    if bits (s.g a) 0 2 ≠ 0 then fails .aln (s.g a) 1
    else if spadBytes s.myCoreIx ≤ bits (s.g a) 0 24 then fails .xlt (word (bits (s.g a) 0 24)) 1
    else if w.isSome then fails .prm (word (w.getD 0)) 1
    else if bits (s.g a) 24 40 ≠ 0 then fails .lch 0x202 7
    else if u.vqFull || u.me.gated .v o then u.stall
    else u.vqEnter (u.newVCmd kind o (s.g a) 0)) := by
  have hix : u.myCoreIx = s.myCoreIx := State.myCoreIx_of_actors (State.actors_of_barred hb)
  unfold State.hzAccess
  simp only [hzRange] at hb
  simp only [hb, hix]
  rfl

/-- HZPSH or HZRD with a cause takes the trap, and keeps gA in VLCA (R156; log 55). -/
theorem State.hzAccess_traps (hm : s.me.mode = .user) {cause : Cause} {v : Word} {p : Nat} (hp : p < 8)
    (he : ∀ kind, s.hzAccess kind a o = .next ((u.keepVlc (s.g a)).trap cause v p)) (k : BitVec 4) :
    ∀ i ∈ [Instr.hzpsh k a o, .hzrd k a o], ∃ t, exec i s = .next t ∧
      (u.keepVlc (s.g a)).Trapped t cause v p := by
  have hme : u.me = s.me := State.me_of_actors (State.actors_of_barred hb)
  have htrap := State.trap_trapped (s := u.keepVlc (s.g a))
    (by rw [State.keepVlc, State.me_modMe, hme]; exact hm) cause v hp
  intro i hi
  rcases List.mem_pair.1 hi with rfl | rfl
  · exact ⟨_, he (.push k.toNat false), htrap⟩
  · exact ⟨_, he (.result k.toNat), htrap⟩

end

/-- Settles O24: each word by its checks in order, and the parameters of a series by the table of R130. -/
theorem horizonWords : Obligations.HorizonWords := by
  intro s k d a b o
  refine ⟨fun hp => ⟨fun h1 h2 h3 hok => ?_, ?_, fun hn => ?_⟩, fun u hal hcap hhi hb hroom => ?_, fun hroom => ?_, ?_,
    fun hm => ⟨fun hr => ?_, fun hr hok => ?_, fun w u hb => ⟨fun hal => ?_, fun hal hcap => ?_, fun hal hcap => ⟨fun z hz => ?_,
      fun hw hhi => ?_⟩⟩⟩⟩
  · have hres : outside (s.g a) (maskAt 12 20 + maskAt 8 2) = false := by rw [outside_hzctl, h1, h2, h3]; rfl
    obtain ⟨hpass, hmem⟩ := State.modMyCore_passed (s := s) (f := fun x => x.modHz k.toNat fun _ =>
      ⟨s.g a, s.g b, s.g d, Series.reset⟩) fun _ => rfl
    exact ⟨_, execHzcfg_sets d a b hres hok hp, hpass, hmem⟩
  · obtain ⟨hpass, hmem⟩ := State.modMyCore_passed (s := s) (f := fun x => x.modHz k.toNat fun y =>
      { y with ser := Series.reset }) fun _ => rfl
    exact ⟨_, execHzclr_clears hp, hpass, hmem⟩
  · exact ⟨_, _, execHzest_answers d hp, s.finish_wrote d _, HzSlot.estWord_fields hn⟩
  · have henter : ∀ kind, s.hzAccess kind a o = .next (u.vqEnter (u.newVCmd kind o (s.g a) 0)) := fun kind => by
      rw [State.hzAccess_eq hb]
      simp [hal, hhi, Nat.not_le.2 hcap, State.vecRoom_free (s := u) hroom]
    exact ⟨⟨_, henter (.push k.toNat false), u.vqEnter_passed (u.newVCmd (.push k.toNat false) o (s.g a) 0)⟩,
      ⟨_, henter (.result k.toNat), u.vqEnter_passed (u.newVCmd (.result k.toNat) o (s.g a) 0)⟩⟩
  · refine ⟨_, ?_, s.vqEnter_passed (s.newVCmd (.push k.toNat true) 0 0 (s.g b))⟩
    change execHzpshR k b s = _
    rw [execHzpshR, State.vecRoom_free hroom]
    rfl
  · exact HzSlot.cfg_ok_iff _ _ _ _
  · exact ⟨_, execHzcfg_reserved d a b ((outside_hzctl _).trans hr), State.trap_trapped hm _ _ (by decide)⟩
  · exact ⟨_, execHzcfg_illegal d a b ((outside_hzctl _).trans hr) hok, State.trap_trapped hm _ _ (by decide)⟩
  · refine State.hzAccess_traps hb hm (by decide) (fun kind => ?_) k
    rw [State.hzAccess_eq hb]
    simp only [ne_eq, hal, not_false_eq_true, if_true]
  · refine State.hzAccess_traps hb hm (by decide) (fun kind => ?_) k
    rw [State.hzAccess_eq hb]
    simp only [ne_eq, hal, hcap, not_true_eq_false, if_true, if_false]
  · refine State.hzAccess_traps hb hm (by decide) (fun kind => ?_) k
    rw [State.hzAccess_eq hb]
    simp only [ne_eq, hal, Nat.not_le.2 hcap, hz, Option.isSome_some, Option.getD_some, not_true_eq_false, if_true, if_false]
  · refine State.hzAccess_traps hb hm (by decide) (fun kind => ?_) k
    rw [State.hzAccess_eq hb]
    simp only [ne_eq, hal, Nat.not_le.2 hcap, hw, hhi, Option.isSome_none, Bool.false_eq_true, not_true_eq_false, not_false_eq_true,
      if_true, if_false]

end Sys2Proof.Machine
end

section
/-!
The lanes' own steps: the statement `LaneEvents` (R135, R269, R272 to R275, R286, R287, R289, R318, R322, R323).  Each event is a few
changes of single agents; the lemmas give them event by event, in the order of the statement.
-/

namespace Sys2Proof.Machine

/-! ### The lanes of a die changed -/

@[simp] theorem State.lanes_modLanes (s : State) (d : DieIx) (f : Lanes → Lanes) :
    ((s.modLanes d f).die d).lanes = f (s.die d).lanes := by
  rw [State.modLanes, State.die_modDie]

theorem State.peek_modLanes (s : State) (d : DieIx) (f : Lanes → Lanes) (l : Loc) (n : Nat) :
    (s.modLanes d f).peek l n = s.peek l n := State.peek_modDie s d _ rfl rfl l n

@[simp] theorem State.cluster_modLanes (s : State) (d : DieIx) (f : Lanes → Lanes) (c : CluIx) :
    (s.modLanes d f).cluster c = s.cluster c := rfl

@[simp] theorem State.core_modLanes (s : State) (d : DieIx) (f : Lanes → Lanes) (k : CoreIx) :
    (s.modLanes d f).core k = s.core k := rfl

/-! ### The error log leaves the lanes alone (R325) -/

/-- The lanes of every die. -/
def State.laneView (s : State) : DieIx → Lanes := fun d => (s.die d).lanes

theorem State.laneView_setDie (s : State) {d : DieIx} {x : Die} (h : x.lanes = (s.die d).lanes) :
    (s.setDie d x).laneView = s.laneView := by
  funext e
  by_cases he : e = d
  · subst he
    rw [State.laneView, State.die_setDie, h]
    rfl
  · rw [State.laneView, State.die_setDie_ne _ _ he]
    rfl

theorem State.laneView_modDie (s : State) {d : DieIx} {f : Die → Die} (h : (f (s.die d)).lanes = (s.die d).lanes) :
    (s.modDie d f).laneView = s.laneView := s.laneView_setDie h

theorem State.laneView_touchRows (s : State) (d : DieIx) (a n : Nat) : (s.touchRows d a n).laneView = s.laneView := by
  unfold State.touchRows
  refine foldl_keeps State.laneView _ (fun t r => ?_) _ s
  exact t.laneView_setDie rfl

theorem State.laneView_poke (s : State) (l : Loc) (bs : List Byte) : (s.poke l bs).1.laneView = s.laneView := by
  cases l with
  | dram d a => exact (State.laneView_touchRows _ d a bs.length).trans (s.laneView_setDie rfl)
  | hub d a => exact s.laneView_setDie rfl
  | _ => rfl

theorem State.laneView_pokePhys (s : State) (d : DieIx) (pa : Nat) (w : Word) : (s.pokePhys d pa w).laneView = s.laneView := by
  unfold State.pokePhys
  split
  · next l _ => exact (State.laneView_modDie (s.poke l (leBytes 8 w.toNat)).1 rfl).trans (s.laneView_poke l _)
  · rfl

theorem State.laneView_logNew (s : State) (d : DieIx) (kind detail : Nat) (at_ : Word) (lid synd : Nat) :
    (s.logNew d kind detail at_ lid synd).laneView = s.laneView := by
  unfold State.logNew
  dsimp only
  split
  · exact s.laneView_setDie rfl
  · rw [State.laneView_pokePhys, State.laneView_pokePhys, State.laneView_pokePhys, State.laneView_pokePhys]
    exact s.laneView_setDie rfl

theorem State.laneView_log (s : State) (d : DieIx) (kind detail : Nat) (at_ : Word) (lid synd : Nat) :
    (s.log d kind detail at_ lid synd).laneView = s.laneView := by
  unfold State.log
  dsimp only
  split
  · rfl
  · split
    · split
      · exact (State.laneView_pokePhys _ _ _ _).trans (s.laneView_setDie rfl)
      · exact s.laneView_logNew ..
    · exact s.laneView_logNew ..

theorem State.lanes_logColumns (s : State) (d : DieIx) (kind : Nat) (cols : List Nat) :
    ((s.logColumns d kind cols).die d).lanes = (s.die d).lanes := congrFun (s.laneView_log ..) d

/-! ### Broadcast (R272, R273, R318) -/

/-- The uncorrectable words of the format entry that an LDOT uses, counted and logged as it is broadcast (R318). -/
def State.noteEntry (s : State) (d : DieIx) (m : LMacro) : State :=
  ((s.die d).lanes.macroBad m).foldl
    (fun acc b => (acc.countUnc d 1).log d 4 0 (word (3 * m.fe + b.2)) (acc.cluster m.cl).lid) s

theorem State.lanes_noteEntry (s : State) (d : DieIx) (m : LMacro) : ((s.noteEntry d m).die d).lanes = (s.die d).lanes := by
  have hview : (s.noteEntry d m).laneView = s.laneView := by
    unfold State.noteEntry
    refine foldl_keeps State.laneView _ (fun t b => ?_) _ s
    rw [State.laneView_log]
    exact t.laneView_modDie rfl
  exact congrFun hview d

theorem execMacroBroadcast_eq {s : State} {d : DieIx} {m : LMacro} {rest : List LMacro} (hb : (s.die d).lanes.buf = m :: rest)
    (hm : (s.die d).lanes.mayBroadcast (s.die d).lanesN = true) :
    exec (.macroBroadcast d) s = .next ((s.noteEntry d m).modLanes d fun x =>
      { x.broadcast m with buf := rest, live := x.live ++ [{ m with feBad := !((s.die d).lanes.macroBad m).isEmpty }] }) := by
  change execMacroBroadcast d s = _
  simp only [execMacroBroadcast, hb, hm, if_true]
  rfl

/-- An LDOT uses a word of the table that cannot be corrected (R272, R318). -/
theorem Lanes.macroBad_isEmpty (x : Lanes) {m : LMacro} (hk : m.kind = .ldot) :
    (x.macroBad m).isEmpty = false ↔ ∃ b ∈ x.fmtBad, b.1 = m.fe + if x.apl then 64 else 0 := by
  have hplace : (if x.apl then m.fe + 64 else m.fe) = m.fe + if x.apl then 64 else 0 := by cases x.apl <;> rfl
  rw [Lanes.macroBad, hk, Lanes.entryBad, hplace]
  simp

theorem Lanes.macroBad_nil {x : Lanes} {m : LMacro}
    (h : m.kind = .ldot → ∀ b ∈ x.fmtBad, b.1 ≠ m.fe + if x.apl then 64 else 0) : x.macroBad m = [] := by
  by_cases hk : m.kind = .ldot
  · by_contra hn
    obtain ⟨b, hb, he⟩ := (x.macroBad_isEmpty hk).1 (by simpa using hn)
    exact h hk b hb he
  · simp [Lanes.macroBad, hk]

/-- A broadcast that meets no bad word (R273, R285, R288, R289). -/
theorem execMacroBroadcast_good {s : State} {d : DieIx} {m : LMacro} {rest : List LMacro} (hb : (s.die d).lanes.buf = m :: rest)
    (hm : (s.die d).lanes.mayBroadcast (s.die d).lanesN = true) (hbad : (s.die d).lanes.macroBad m = []) :
    exec (.macroBroadcast d) s = .next (s.modLanes d fun x =>
      { x.broadcast m with buf := rest, live := x.live ++ [{ m with feBad := false }] }) := by
  have hnote : s.noteEntry d m = s := by
    rw [State.noteEntry, hbad]
    rfl
  rw [execMacroBroadcast_eq hb hm, hnote, hbad]
  rfl

/-- An entry of the shadow plane reads as written (R270). -/
theorem Lanes.entry_setShadow (x : Lanes) {e : Nat} (he : e < 64) (v : FmtEntry) : (x.setShadow e v).entry (!x.apl) e = v := by
  unfold Lanes.setShadow
  cases hp : x.apl
  · show vget (vset x.plane1 e v) e FmtEntry.reset = v
    rw [vget_vset, if_pos ⟨rfl, he⟩]
  · show vget (vset x.plane0 e v) e FmtEntry.reset = v
    rw [vget_vset, if_pos ⟨rfl, he⟩]

/-! ### The head of a lane's queue (R273) -/

theorem Lanes.shift_done (n fuel : Nat) (x : Lanes) : (Lanes.shift n fuel x).done = x.done := by
  induction fuel generalizing x with
  | zero => rfl
  | succ fuel ih =>
    unfold Lanes.shift
    split
    · rfl
    · split
      · exact ih _
      · rfl

/-- A lane that completes the command at its head has completed one more, and no other lane has (R273). -/
theorem State.laneComplete_done (s : State) (d : DieIx) {lane : Nat} (h : lane < 1024) :
    ((s.laneComplete d lane).die d).lanes.doneOf lane = (s.die d).lanes.doneOf lane + 1 ∧
    ∀ j, j ≠ lane → ((s.laneComplete d lane).die d).lanes.doneOf j = (s.die d).lanes.doneOf j := by
  have hdone : ∀ j, ((s.laneComplete d lane).die d).lanes.doneOf j =
      vget (vset (s.die d).lanes.done lane ((s.die d).lanes.doneOf lane + 1)) j 0 := fun j => by
    rw [State.laneComplete, State.lanes_modLanes, Lanes.doneOf, Lanes.shift_done]
  refine ⟨?_, fun j hj => ?_⟩
  · rw [hdone, vget_vset, if_pos ⟨rfl, h⟩]
  · rw [hdone, vget_vset, if_neg (fun e => hj e.1)]
    rfl

section
variable {s : State} {d : DieIx} {lane : Nat} {m : LMacro} (hr : s.laneRuns d lane = true)
include hr

/-- A lane that may run meets the command at its head (R273, R282). -/
theorem execLaneMacroRun_meets (hn : ∀ r ∈ (s.die d).lanes.runs, r.lane ≠ lane)
    (hd : (s.die d).lanes.doneOf lane < (s.die d).lanes.least (s.die d).lanesN + 48) (hm : (s.die d).lanes.head lane = some m) :
    (m.kind = .lfmt ∨ m.kind = .lhzc ∨ m.kind = .lrtgt ∨ (m.kind = .lmcst ∧ m.landed = true) ∨ (m.kind = .ldot ∧ m.obj = none) →
      exec (.laneMacroRun d lane) s = .next (s.laneComplete d lane)) ∧
    (∀ o k i, m.kind = .ldot → m.obj = some o → o.sliceIn lane = some k → m.nextRow k 0 = some i →
      exec (.laneMacroRun d lane) s = .next (s.modLanes d fun x => x.setRun (m.freshRun lane i))) := by
  have hany : ((s.die d).lanes.runs.any fun r => r.lane == lane) = false := by
    rw [List.any_eq_false]
    exact fun r hm => by simpa using hn r hm
  have hgo : (!s.laneRuns d lane || ((s.die d).lanes.runs.any fun r => r.lane == lane) ||
      decide ((s.die d).lanes.least (s.die d).lanesN + 48 ≤ (s.die d).lanes.doneOf lane)) = false := by
    rw [hr, hany]
    simpa using hd
  change (_ → execLaneMacroRun d lane s = _) ∧ (∀ o k i, _ → _ → _ → _ → execLaneMacroRun d lane s = _)
  unfold execLaneMacroRun
  simp only [hgo, hm, Bool.false_eq_true, if_false]
  refine ⟨?_, fun o k i hk ho hs hi => ?_⟩
  · rintro (h | h | h | ⟨h, hl⟩ | ⟨h, ho⟩)
    · simp only [h]
    · simp only [h]
    · simp only [h]
    · simp only [h, hl, Bool.true_or, if_true]
    · simp only [h, ho]
  · simp only [hk, ho, hs, hi]

/-- A lane reads the next beat of its slice (R269). -/
theorem execLanePlaneRead_eq {o : Obj} {k : Nat} {r : LaneRun}
    (hf : (s.die d).lanes.runs.find? (fun r => r.lane == lane) = some r) (hm : (s.die d).lanes.head lane = some m)
    (ho : m.obj = some o) (hs : o.sliceIn lane = some k) : exec (.lanePlaneRead d lane) s = .next (s.planeRead d m o k r) := by
  change execLanePlaneRead d lane s = _
  simp only [execLanePlaneRead, hr, hf, hm, ho, hs, Bool.not_true, Bool.false_eq_true, if_false]

end

/-- A lane's run is the one put in for it. -/
theorem Lanes.find_setRun (x : Lanes) {r : LaneRun} {lane : Nat} (h : r.lane = lane) :
    (x.setRun r).runs.find? (fun q => q.lane == lane) = some r := by
  simp [Lanes.setRun, h]

/-- A beat that fails, or a slice whose format entry is bad, ends the slice poisoned (R269, R318). -/
theorem State.planeRead_poisoned {s : State} {d : DieIx} {m : LMacro} {o : Obj} {k : Nat} {r : LaneRun}
    (h : (s.shareRead o r.lane ((m.row0 + r.row) * o.rowBytes + r.data.length) (o.nextBeat r) (s.cluster m.cl).lid).2.1 = true ∨
      m.feBad = true) :
    s.planeRead d m o k r =
      (s.shareRead o r.lane ((m.row0 + r.row) * o.rowBytes + r.data.length) (o.nextBeat r) (s.cluster m.cl).lid).2.2.sliceEnd d m k r
        true := by
  unfold State.planeRead
  exact if_pos (by simpa using h)

/-- A beat within a plane joins the slice's data (R269). -/
theorem State.planeRead_within {s : State} {d : DieIx} {m : LMacro} {o : Obj} {k : Nat} {r : LaneRun} {bs : List Byte} {t : State}
    (hq : s.shareRead o r.lane ((m.row0 + r.row) * o.rowBytes + r.data.length) (o.nextBeat r) (s.cluster m.cl).lid = (bs, false, t))
    (hf : m.feBad = false) (hl : r.data.length + bs.length < o.prefixBytes r.p) :
    s.planeRead d m o k r = t.modLanes d fun x => x.setRun { r with data := r.data ++ bs } := by
  unfold State.planeRead
  simp [hq, hf, hl]

/-! ### Memory (R83, R323) -/

/-- Bytes written to a scratchpad stand there, and every other byte reads as before. -/
theorem State.stored_putSpad {s : State} {k : CoreIx} (hw : (s.core k).spad.wf = true) (a : Nat) (bs : List Byte) :
    s.Stored (s.modCore k fun x => x.putSpad a bs) (.spad k a) bs := by
  refine ⟨?_, fun l hl => ?_⟩
  · show ((s.modCore k _).core k).spad.readN a bs.length = bs
    rw [State.core_modCore]
    exact Mem.readN_writeN hw a bs
  · cases l with
    | spad j b =>
      show ((s.modCore k _).core j).spad.readN b 1 = (s.core j).spad.readN b 1
      by_cases hj : j = k
      · subst hj
        rw [State.core_modCore]
        refine Mem.readN_writeN_outside hw bs ?_
        by_contra hin
        exact hl (b - a) (by omega) (by rw [Loc.add]; congr 1; omega)
      · rw [State.core_modCore_ne _ _ hj]
    | _ => rfl

theorem State.Stored.congr {s t u : State} {l : Loc} {bs : List Byte} (h : s.Stored t l bs) (e : ∀ l n, u.peek l n = t.peek l n) :
    s.Stored u l bs :=
  ⟨(e _ _).trans h.1, fun m hm => (e _ _).trans (h.2 m hm)⟩

/-- A read of the lanes from a scratchpad with no uncorrectable word has no other effect (R320). -/
theorem State.readEngine_sound {s : State} {k : CoreIx} (h : (s.core k).spadBad = []) (c : CluIx) (seq a n tval : Nat) (p : Path) :
    s.readEngine c seq (.spad k a) n tval p = (s.peek (.spad k a) n, s) := by
  simp [State.readEngine, State.badWords, h, State.readDram]

/-- A piece of bytes read together. -/
theorem Mem.readN_piece (m : Mem) {a n i k : Nat} (h : i + k ≤ n) : ((m.readN a n).drop i).take k = m.readN (a + i) k := by
  rw [Mem.readN_eq, Mem.readN_eq]
  refine List.ext_getElem (by simp [iota]; omega) fun j h1 h2 => ?_
  simp [iota, Nat.add_assoc]

/-! ### Delivery of a row (R128, R135, R269, R287, R289) -/

/-- The lane command of a number among those that have been broadcast: the search of the model's own accessor. -/
def Lanes.sent (x : Lanes) (n : Nat) : Option LMacro := (x.tail ++ x.live).find? fun m => m.seq == n

theorem execRowResultDelivery_eq {s : State} {d : DieIx} {m j : Nat} {q : LMacro} {o : Obj} {k : CoreIx}
    (hq : (s.die d).lanes.sent m = some q) (hk : q.kind = .ldot) (ho : q.obj = some o) (ht : s.tableCore d = some k)
    (hl : (q.slices (j / 4) (j % 4) (2 ^ o.spl)).length = 2 ^ o.spl) (hd : q.isDelivered (j / 4) (j % 4) = false)
    (hb : s.bankWait (.spad k (q.resultAddr (j / 4) (j % 4))) q.esz = false) :
    exec (.rowResultDelivery d m j) s =
      .next (s.deliverRow d k q (j / 4) (j % 4) (q.slices (j / 4) (j % 4) (2 ^ o.spl))) := by
  change execRowResultDelivery d m j s = _
  unfold execRowResultDelivery
  split
  · next hnone => exact absurd (hnone.symm.trans hq) (Option.some_ne_none q).symm
  · next y hy =>
    obtain rfl : y = q := Option.some.inj (hy.symm.trans hq)
    simp [ho, ht, hk, hl, hd, hb]

/-- Some slice of a row met an error (R269). -/
def rowPoisoned (rs : List SliceRes) : Bool := rs.any (·.poison)

section
variable (s : State) (k : CoreIx) (m : LMacro) (a : Nat) (rs : List SliceRes)

/-- The result that is there, with the row's value added: mode 1 of R289. -/
def State.rowSum : W32 × Flags := addF32 (BitVec.ofNat 32 (leNat (s.peek (.spad k a) 4))) (rowValue rs).1

/-- The row's value as BF16: mode 2 of R289. -/
def rowHalf : Rounded := fmtBF16.ofNum false (numF32 (rowValue rs).1)

/-- The bytes of a delivered row in the three modes of R289. -/
def State.rowBytes : List Byte :=
  if rowPoisoned rs then (if m.rmode = 2 then leBytes 2 0x7FE0 else leBytes 4 0x7FE0_0000)
  else if m.rmode = 1 then leBytes 4 (s.rowSum k a rs).1.toNat
  else if m.rmode = 2 then leBytes 2 (rowHalf rs).code
  else leBytes 4 (if (numF32 (rowValue rs).1).isNan then 0x7FC0_0000 else (rowValue rs).1.toNat)

/-- The flags that its delivery adds to the LDOT's (R128, R289). -/
def State.rowFlags : Flags :=
  if rowPoisoned rs then rs.foldl (fun acc z => acc ||| z.flags) 0
  else (rowValue rs).2 ||| (if m.rmode = 1 then (s.rowSum k a rs).2 else if m.rmode = 2 then (rowHalf rs).flags else 0)

/-- The value and the flags that go into a delivery (R128, R269). -/
def rowInput : W32 × Flags := if rowPoisoned rs then (0, rs.foldl (fun acc z => acc ||| z.flags) 0) else rowValue rs

/-- A delivery's bytes and flags, where no word of the scratchpad is uncorrectable. -/
theorem State.deliverBytes_sound {s : State} {k : CoreIx} (h : (s.core k).spadBad = []) :
    (s.deliverBytes k m a (rowPoisoned rs) (rowInput rs).1).1 = s.rowBytes k m a rs ∧
    (rowInput rs).2 ||| (s.deliverBytes k m a (rowPoisoned rs) (rowInput rs).1).2.1 = s.rowFlags k m a rs ∧
    (s.deliverBytes k m a (rowPoisoned rs) (rowInput rs).1).2.2 = s := by
  unfold State.deliverBytes State.rowBytes State.rowFlags rowInput
  cases hp : rowPoisoned rs
  · simp only [Bool.false_eq_true, if_false, State.readEngine_sound h]
    match hm : m.rmode with
    | 0 => exact ⟨rfl, rfl, rfl⟩
    | 1 => exact ⟨rfl, rfl, rfl⟩
    | 2 => exact ⟨rfl, rfl, rfl⟩
    | n + 3 => exact ⟨rfl, rfl, rfl⟩
  · exact ⟨rfl, BitVec.or_zero, rfl⟩

end

/-- An LDOT with the result of a row and vector delivered. -/
def LMacro.withRow (m : LMacro) (row v : Nat) (fl : Flags) : LMacro :=
  { m with
    delivered := (4 * row + v) :: m.delivered, flags := m.flags ||| fl
    results := m.results.filter fun r => !(r.row == row && r.v == v) }

/-- The reports of a delivered row (R135, R269, R283). -/
def Lanes.reported (x : Lanes) (m : LMacro) (row : Nat) (rs : List SliceRes) : Lanes :=
  if rowPoisoned rs then x.countPoisoned m.handle (m.row0 + row) else x.countResult rs

/-- The cluster of an LDOT with what a poisoned row makes pending under LCTL.PTE (R269). -/
def Cluster.rowPend (c : Cluster) (x : Lanes) (m : LMacro) (row : Nat) (rs : List SliceRes) : Cluster :=
  if rowPoisoned rs && bit x.lctl 0 then c.addPend .ecu (x.countPoisoned m.handle (m.row0 + row)).lpfirst 4 else c

theorem State.modLanes_modLanes (s : State) (d : DieIx) (f g : Lanes → Lanes) :
    (s.modLanes d f).modLanes d g = s.modLanes d fun x => g (f x) := by
  have h : (s.modLanes d f).die d = { s.die d with lanes := f (s.die d).lanes } := s.die_modDie d _
  show (s.modLanes d f).setDie d { (s.modLanes d f).die d with lanes := g ((s.modLanes d f).die d).lanes } = _
  rw [h]
  simp [State.modLanes, State.modDie, State.setDie]

/-- A poisoned row makes ECU pending under LCTL.PTE (R269). -/
def State.pendRow (s : State) (d : DieIx) (m : LMacro) (rs : List SliceRes) : State :=
  if rowPoisoned rs && bit (s.die d).lanes.lctl 0 then
    s.modCluster m.cl fun c => c.addPend .ecu (s.die d).lanes.lpfirst 4
  else s

/-- What being the last result of its LDOT brings, where no more is left (R128, R241). -/
def State.finishRow (s : State) (d : DieIx) (k : CoreIx) (m : LMacro) : State :=
  if m.accessing then s else s.macroDelivered d k m

/-- The lanes with a row's reports, and its LDOT's record of it. -/
def Lanes.withRow (x : Lanes) (m : LMacro) (row v : Nat) (rs : List SliceRes) (fl : Flags) : Lanes :=
  (x.reported m row rs).modMacro m.seq fun _ => m.withRow row v fl

/-- A state with a row delivered, but for what its being the last brings. -/
def State.withRow (s : State) (d : DieIx) (k : CoreIx) (m : LMacro) (row v : Nat) (rs : List SliceRes) : State :=
  let a := m.resultAddr row v
  ((s.modCore k fun x => x.putSpad a (s.rowBytes k m a rs)).modCluster m.cl fun c => c.rowPend (s.die d).lanes m row rs).modLanes d
    fun x => x.withRow m row v rs (s.rowFlags k m a rs)

/-- The steps of a delivery. -/
theorem State.deliverRow_steps (s : State) (d : DieIx) (k : CoreIx) (m : LMacro) (row v : Nat) (rs : List SliceRes) :
    let w := s.deliverBytes k m (m.resultAddr row v) (rowPoisoned rs) (rowInput rs).1
    let q : LMacro := { m with
      delivered := (4 * row + v) :: m.delivered, flags := m.flags ||| (rowInput rs).2 ||| w.2.1
      results := m.results.filter fun r => !(r.row == row && r.v == v) }
    s.deliverRow d k m row v rs =
      ((((w.2.2.store (.spad k (m.resultAddr row v)) w.1 (s.cluster m.cl).lid).modLanes d fun x => x.reported m row rs).pendRow d m
        rs).modLanes d fun x => x.modMacro m.seq fun _ => q).finishRow d k q := rfl

theorem State.pendRow_reported (s : State) (d : DieIx) (m : LMacro) (row : Nat) (rs : List SliceRes) :
    (s.modLanes d fun x => x.reported m row rs).pendRow d m rs =
      (s.modCluster m.cl fun c => c.rowPend (s.die d).lanes m row rs).modLanes d fun x => x.reported m row rs := by
  have hself : (s.modCluster m.cl fun c => c) = s := by
    simp [State.modCluster, State.setCluster, State.cluster, Vector.get_eq_getElem]
  unfold State.pendRow Cluster.rowPend
  rw [State.lanes_modLanes]
  cases hp : rowPoisoned rs
  · simp only [Bool.false_and, Bool.false_eq_true, if_false, hself]
  · simp only [Lanes.reported, hp, Lanes.countPoisoned, Bool.true_and, if_true]
    cases bit (s.die d).lanes.lctl 0
    · simp only [Bool.false_eq_true, if_false, hself]
    · rfl

/-- A delivery where no word of the scratchpad is uncorrectable. -/
theorem State.deliverRow_eq {s : State} {d : DieIx} {k : CoreIx} (h : (s.core k).spadBad = []) (m : LMacro) (row v : Nat)
    (rs : List SliceRes) : s.deliverRow d k m row v rs =
      (s.withRow d k m row v rs).finishRow d k (m.withRow row v (s.rowFlags k m (m.resultAddr row v) rs)) := by
  obtain ⟨hbytes, hflags, hstate⟩ := State.deliverBytes_sound m (m.resultAddr row v) rs h
  rw [State.deliverRow_steps, hbytes, BitVec.or_assoc, hflags, hstate, State.store_spad_sound h, State.pendRow_reported,
    State.modLanes_modLanes]
  rfl

section
variable {s : State} {d : DieIx} {k : CoreIx} (m : LMacro) (row v : Nat) (rs : List SliceRes)

theorem State.lanes_withRow : ((s.withRow d k m row v rs).die d).lanes =
    (s.die d).lanes.withRow m row v rs (s.rowFlags k m (m.resultAddr row v) rs) := State.lanes_modLanes _ _ _

theorem State.peek_withRow (l : Loc) (n : Nat) : (s.withRow d k m row v rs).peek l n =
    (s.modCore k fun x => x.putSpad (m.resultAddr row v) (s.rowBytes k m (m.resultAddr row v) rs)).peek l n :=
  (State.peek_modLanes _ _ _ l n).trans (State.peek_modCluster _ _ _ l n)

theorem State.cluster_withRow : (s.withRow d k m row v rs).cluster m.cl = (s.cluster m.cl).rowPend (s.die d).lanes m row rs :=
  State.cluster_modCluster _ _ _

theorem State.macroDelivered_eq (q : LMacro) : s.macroDelivered d k q =
    ((s.mergeFlags q.cl q.seq q.flags).modLanes d fun x => { x with tail := x.tail.filter fun y => y.seq != q.seq }).modCore k
      fun x => x.fillRing q.dring := State.fillFor_eq _ k q.dring

/-- What the last delivery of an LDOT brings changes no memory. -/
theorem State.peek_finishRow (q : LMacro) (l : Loc) (n : Nat) : (s.finishRow d k q).peek l n = s.peek l n := by
  unfold State.finishRow
  split
  · rfl
  · rw [State.macroDelivered_eq]
    refine (State.peek_modCore _ k _ ?_ l n).trans ((State.peek_modLanes _ _ _ l n).trans (State.peek_modCluster _ _ _ l n))
    cases q.dring <;> rfl

theorem State.lpois_finishRow (q : LMacro) : ((s.finishRow d k q).die d).lanes.lpois = (s.die d).lanes.lpois := by
  unfold State.finishRow
  split
  · rfl
  · rw [State.macroDelivered_eq, State.die_modCore, State.lanes_modLanes]
    rfl

/-- The last delivery of an LDOT merges its flags while its record runs (R128). -/
theorem State.cluster_finishRow {q : LMacro} (hq : q.accessing = false) (hr : (s.cluster q.cl).runs q.seq = true) :
    ((s.finishRow d k q).cluster q.cl).fpflg = (s.cluster q.cl).fpflg ||| q.flags := by
  have hmerge : ((s.finishRow d k q).cluster q.cl) = (s.mergeFlags q.cl q.seq q.flags).cluster q.cl := by
    rw [State.finishRow, hq, if_neg Bool.false_ne_true, State.macroDelivered_eq]
    rfl
  rw [hmerge, State.cluster_mergeFlags, hr]
  rfl

end

/-- The first element that passes a test, after it has been changed. -/
theorem find?_updFirst {α : Type} {p : α → Bool} {f : α → α} (hf : ∀ y, p (f y) = true) (xs : List α) :
    (updFirst p f xs).find? p = (xs.find? p).map f := by
  induction xs with
  | nil => rfl
  | cons x xs ih =>
    unfold updFirst
    cases hp : p x
    · simp [hp, ih]
    · simp [hp, hf]

theorem Lanes.sent_modMacro (x : Lanes) {n : Nat} {f : LMacro → LMacro} (hf : ∀ y, (f y).seq = n) :
    (x.modMacro n f).sent n = (x.sent n).map f := by
  have hp : ∀ y, ((f y).seq == n) = true := fun y => beq_iff_eq.2 (hf y)
  unfold Lanes.sent Lanes.modMacro
  rw [List.find?_append, List.find?_append, find?_updFirst hp, find?_updFirst hp, Option.map_or]

theorem Lanes.seq_of_sent {x : Lanes} {n : Nat} {q : LMacro} (h : x.sent n = some q) : q.seq = n := by
  simpa using List.find?_some h

/-- The LDOT of a delivered row, with its record of it. -/
theorem Lanes.sent_withRow {x : Lanes} {m : Nat} {q : LMacro} (h : x.sent m = some q) (row v : Nat) (rs : List SliceRes)
    (fl : Flags) : (x.withRow q row v rs fl).sent m = some (q.withRow row v fl) := by
  have hseq := Lanes.seq_of_sent h
  have hsame : (x.reported q row rs).sent m = x.sent m := by
    unfold Lanes.reported
    split <;> rfl
  rw [Lanes.withRow, hseq, Lanes.sent_modMacro (f := fun _ => q.withRow row v fl) _ fun _ => hseq, hsame, h]
  rfl

theorem Lanes.lpois_withRow (x : Lanes) (m : LMacro) (row v : Nat) (rs : List SliceRes) (fl : Flags) :
    (x.withRow m row v rs fl).lpois = if rowPoisoned rs then min (2 ^ 32 - 1) (x.lpois + 1) else x.lpois := by
  show (x.reported m row rs).lpois = _
  unfold Lanes.reported
  split
  · exact Nat.min_comm _ _
  · rfl

theorem LMacro.accessing_withRow {m : LMacro} (h : m.kind = .ldot) (row v : Nat) (fl : Flags) :
    (m.withRow row v fl).accessing = decide (1 < m.rows * m.vectors.length - m.delivered.length) := by
  have hr : (m.withRow row v fl).accessing = decide (m.delivered.length + 1 < m.rows * m.vectors.length) := by
    unfold LMacro.accessing
    rw [show (m.withRow row v fl).kind = .ldot from h]
    rfl
  rw [hr, decide_eq_decide]
  omega

theorem Cluster.runs_rowPend (c : Cluster) (x : Lanes) (m : LMacro) (row : Nat) (rs : List SliceRes) (n : Nat) :
    (c.rowPend x m row rs).runs n = c.runs n ∧ (c.rowPend x m row rs).fpflg = c.fpflg := by
  unfold Cluster.rowPend
  split <;> exact ⟨rfl, rfl⟩

/-- A row delivered (R289): its store, its LDOT's record, and the reports of its cluster and of the lanes. -/
theorem State.deliverRow_effect {s : State} {d : DieIx} {k : CoreIx} {m : Nat} {q : LMacro} (hw : (s.core k).spad.wf = true)
    (hb : (s.core k).spadBad = []) (hq : (s.die d).lanes.sent m = some q) (hk : q.kind = .ldot) (row v : Nat) (rs : List SliceRes) :
    let a := q.resultAddr row v
    let t := s.deliverRow d k q row v rs
    let left := q.rows * q.vectors.length - q.delivered.length
    s.Stored t (.spad k a) (s.rowBytes k q a rs) ∧
    (1 < left → (t.die d).lanes.sent m = some (q.withRow row v (s.rowFlags k q a rs))) ∧
    (left = 1 → (s.cluster q.cl).runs q.seq = true →
      (t.cluster q.cl).fpflg = (s.cluster q.cl).fpflg ||| q.flags ||| s.rowFlags k q a rs) ∧
    (1 < left → t.cluster q.cl = (s.cluster q.cl).rowPend (s.die d).lanes q row rs) ∧
    (t.die d).lanes.lpois = if rowPoisoned rs then min (2 ^ 32 - 1) ((s.die d).lanes.lpois + 1) else (s.die d).lanes.lpois := by
  intro a t left
  have ht : t = (s.withRow d k q row v rs).finishRow d k (q.withRow row v (s.rowFlags k q a rs)) := State.deliverRow_eq hb q row v rs
  have hacc : (q.withRow row v (s.rowFlags k q a rs)).accessing = decide (1 < left) := LMacro.accessing_withRow hk row v _
  have hmore : 1 < left → t = s.withRow d k q row v rs := fun h => by
    rw [ht, State.finishRow, hacc, if_pos (by simpa using h)]
  refine ⟨?_, fun h => ?_, fun h hr => ?_, fun h => ?_, ?_⟩
  · refine (State.stored_putSpad hw a _).congr fun l n => ?_
    rw [ht, State.peek_finishRow, State.peek_withRow]
  · rw [hmore h, State.lanes_withRow]
    exact Lanes.sent_withRow hq row v rs _
  · obtain ⟨hruns, hfl⟩ := Cluster.runs_rowPend (s.cluster q.cl) (s.die d).lanes q row rs q.seq
    have hc : (s.withRow d k q row v rs).cluster q.cl = (s.cluster q.cl).rowPend (s.die d).lanes q row rs := State.cluster_withRow ..
    rw [ht]
    refine (State.cluster_finishRow (q := q.withRow row v (s.rowFlags k q a rs)) (hacc.trans (by simp [h])) ?_).trans ?_
    · exact (congrArg (Cluster.runs · q.seq) hc).trans (hruns.trans hr)
    · show ((s.withRow d k q row v rs).cluster q.cl).fpflg ||| (q.flags ||| s.rowFlags k q a rs) = _
      rw [hc, hfl, BitVec.or_assoc]
  · rw [hmore h]
    exact State.cluster_withRow ..
  · rw [ht, State.lpois_finishRow, State.lanes_withRow, Lanes.lpois_withRow]

/-! ### Multicast (R286) -/

/-- The write of lane j in a multicast. -/
def LMacro.laneWrite (m : LMacro) (bs : List Byte) (j : Nat) : Nat × List Byte :=
  (8192 * (m.mcstLanes.1 + j) + 2048 * m.mcstSlot, (bs.drop (j * m.mcstBytes)).take m.mcstBytes)

theorem LMacro.spread_eq (m : LMacro) (bs : List Byte) (abuf : Mem) :
    m.spread bs abuf = abuf.writeAll ((List.range m.mcstLanes.2).map (m.laneWrite bs)) := by
  rw [Mem.writeAll, List.foldl_map]
  rfl

/-- The buffer of a lane holds what a multicast wrote there: the writes of two lanes do not overlap. -/
theorem LMacro.readN_spread {m : LMacro} {mem abuf : Mem} {a : Nat} (hw : abuf.wf = true)
    (hfit : 2048 * m.mcstSlot + m.mcstBytes ≤ 8192) {j : Nat} (hj : j < m.mcstLanes.2) :
    (m.spread (mem.readN a (m.mcstBytes * m.mcstLanes.2)) abuf).readN (8192 * (m.mcstLanes.1 + j) + 2048 * m.mcstSlot) m.mcstBytes =
      mem.readN (a + j * m.mcstBytes) m.mcstBytes := by
  generalize hbs : mem.readN a (m.mcstBytes * m.mcstLanes.2) = bs
  have hpiece : ∀ i < m.mcstLanes.2, (m.laneWrite bs i).2 = mem.readN (a + i * m.mcstBytes) m.mcstBytes := fun i hi => by
    have hin : i * m.mcstBytes + m.mcstBytes ≤ m.mcstBytes * m.mcstLanes.2 := by
      rw [← Nat.succ_mul, Nat.mul_comm]
      exact Nat.mul_le_mul_left _ hi
    rw [LMacro.laneWrite, ← hbs, Mem.readN_piece _ hin]
  have hlen : ∀ i < m.mcstLanes.2, (m.laneWrite bs i).2.length = m.mcstBytes := fun i hi => by
    rw [hpiece i hi, Mem.readN_eq]
    simp [iota]
  obtain ⟨pre, post, hsplit⟩ := List.append_of_mem (List.mem_range.2 hj)
  have hnodup : (pre ++ j :: post).Nodup := hsplit ▸ List.nodup_range
  have hstands := Mem.readN_writeAll (w := m.laneWrite bs j) (pre := pre.map (m.laneWrite bs)) (post := post.map (m.laneWrite bs)) hw
    (List.forall_mem_map.2 fun i hi => by
      have hne : i ≠ j := fun e => (List.nodup_cons.1 (List.nodup_append.1 hnodup).2.1).1 (e ▸ hi)
      have hir : i < m.mcstLanes.2 := List.mem_range.1 (hsplit ▸ List.mem_append_right pre (List.mem_cons_of_mem j hi))
      rw [hlen i hir, hlen j hj]
      show 8192 * (m.mcstLanes.1 + i) + 2048 * m.mcstSlot + _ ≤ 8192 * (m.mcstLanes.1 + j) + 2048 * m.mcstSlot ∨
        8192 * (m.mcstLanes.1 + j) + 2048 * m.mcstSlot + _ ≤ 8192 * (m.mcstLanes.1 + i) + 2048 * m.mcstSlot
      omega)
  rw [hlen j hj, hpiece j hj] at hstands
  rw [LMacro.spread_eq, hsplit, List.map_append, List.map_cons]
  exact hstands

theorem execMulticastLand_eq {s : State} {d : DieIx} {m i : Nat} {q : LMacro} {k : CoreIx}
    (hq : findIdx (fun q => q.seq == m) (s.die d).lanes.live = some (i, q)) (hk : q.kind = .lmcst) (hl : q.landed = false)
    (hx : (s.die d).lanes.stopped = false) (ht : s.tableCore d = some k)
    (hd : ∀ j < q.mcstLanes.2, (s.die d).lanes.doneOf (q.mcstLanes.1 + j) = (s.die d).lanes.base + i)
    (hb : s.bankWait (.spad k q.mcstSrc) (q.mcstBytes * q.mcstLanes.2) = false) (hs : (s.core k).spadBad = []) :
    exec (.multicastLand d m) s = .next (s.modLanes d fun x =>
      { x.modMacro m fun y => { y with landed := true } with
        abuf := q.spread (s.peek (.spad k q.mcstSrc) (q.mcstBytes * q.mcstLanes.2)) x.abuf }) := by
  have hall : ((iota q.mcstLanes.1 q.mcstLanes.2).any fun l => (s.die d).lanes.doneOf l != (s.die d).lanes.base + i) = false := by
    simpa [iota] using hd
  change execMulticastLand d m s = _
  simp only [execMulticastLand, hq, ht, hk, hl, hx, hall, hb, State.readEngine_sound hs, ne_eq, not_true_eq_false,
    Bool.false_eq_true, or_self, if_false]

/-! ### Drain points and safe points (R272, R274, R275) -/

section
variable {s : State} {d : DieIx} {m : LMacro} {rest : List LMacro} (hv : (s.die d).lanes.live = m :: rest)
  (hg : (s.die d).lanes.gathered (s.die d).lanesN = true) (hs : (s.die d).lanes.stopped = false)
include hv hg hs

theorem execLrsyncDrain_eq (hk : m.kind = .lrsync) : exec (.lrsyncDrain d) s = .next (s.modLanes d fun x =>
    { x.pass (s.die d).lanesN with apl := x.apl != bit m.ga 0, syncn := (x.syncn + 1) % 256 }) := by
  change execLrsyncDrain d s = _
  simp [execLrsyncDrain, hv, hk, hg, hs]

theorem execLsafeComplete_eq (hk : m.kind = .lsafe) (ht : (s.die d).lanes.tail = []) :
    exec (.lsafeComplete d) s = .next (s.modLanes d fun x =>
      { x.pass (s.die d).lanesN with safen := (x.safen + 1) % 256, stopped := x.prep, prep := false }) := by
  change execLsafeComplete d s = _
  simp [execLsafeComplete, hv, hk, hg, hs, ht]

end

theorem Lanes.pass_live {x : Lanes} {m : LMacro} {rest : List LMacro} (h : x.live = m :: rest) (n : Nat) : (x.pass n).live = rest := by
  rw [Lanes.pass, h]
  rfl

/-! ### The watchdog and replay (R275, R322) -/

/-- Where the error log is off, columns that are reset are not logged (R325). -/
theorem State.logColumns_off {s : State} {d : DieIx} (h : bit (s.die d).elbase 0 = false) (kind : Nat) (cols : List Nat) :
    s.logColumns d kind cols = s := State.log_off h ..

theorem execLaneWatchdogReset_eq {s : State} {d : DieIx} (hp : (s.die d).lanes.prep = true)
    (ha : 3_200_000 ≤ (s.die d).lanes.prepAge) :
    exec (.laneWatchdogReset d) s = .next ((s.logColumns d 7 ((s.die d).lanes.lagging (s.die d).lanesN)).modLanes d fun x =>
      { x.requeue with wdr := true, prep := false, stopped := true }) := by
  change execLaneWatchdogReset d s = _
  simp [execLaneWatchdogReset, hp, ha]

section
variable {s : State} {d : DieIx} {lane : Nat} {m : LMacro} {r : LaneRun} (hm : (s.die d).lanes.head lane = some m)
  (hr : (s.die d).lanes.runs.find? (fun r => r.lane == lane) = some r) (hs : (s.die d).lanes.stopped = false)
include hm hr hs

theorem execLaneParityReplay_again (h : m.replaysIn lane < 2) : exec (.laneParityReplay d lane) s = .next (s.modLanes d fun x =>
    (x.modMacro m.seq fun y => { y with replays := setKey lane (y.replaysIn lane + 1) y.replays }).setRun (m.freshRun lane r.row)) := by
  change execLaneParityReplay d lane s = _
  simp [execLaneParityReplay, hm, hr, hs, h]

theorem execLaneParityReplay_reset (h : 2 ≤ m.replaysIn lane) :
    exec (.laneParityReplay d lane) s = .next ((s.logColumns d 5 [lane / 8]).modLanes d Lanes.requeue) := by
  change execLaneParityReplay d lane s = _
  simp [execLaneParityReplay, hm, hr, hs, h]

end

/-! ### The statement -/

/-- Settles O35, event by event: what each step does to the lanes of its die, and that no other memory changes. -/
theorem laneEvents : Obligations.LaneEvents := by
  unfold Obligations.LaneEvents
  intro s d lane hlane x n same again
  refine ⟨?_, ?_, ?_, ?_, ?_, ?_, ?_, ?_, ?_⟩
  · -- a broadcast whose format entry is bad
    intro m rest hb hm hk hbad
    have hne : (x.macroBad m).isEmpty = false := (x.macroBad_isEmpty hk).2 hbad
    refine ⟨_, execMacroBroadcast_eq hb hm, ?_, ?_⟩
    · rw [State.lanes_modLanes]
    · rw [State.lanes_modLanes, State.lanes_noteEntry, hne]
      rfl
  · -- a broadcast
    intro m rest hb hm hgood
    refine ⟨_, execMacroBroadcast_good hb hm (Lanes.macroBad_nil hgood), fun l => State.peek_modLanes _ _ _ l 1, ?_, ?_, ?_, ?_, ?_⟩
    all_goals rw [State.lanes_modLanes]
    · intro hk
      rw [Lanes.broadcast, hk]
      exact x.entry_setShadow (e := bits m.gd 58 6) (Nat.mod_lt _ (by decide)) m.entry
    · intro hk
      rw [Lanes.broadcast, hk]
    · intro hk
      rw [Lanes.broadcast, hk]
  · -- a lane meets its next command
    intro m hr hn hd hm
    obtain ⟨hdone, hstart⟩ := execLaneMacroRun_meets hr hn hd hm
    obtain ⟨hinc, hothers⟩ := s.laneComplete_done d hlane
    exact ⟨fun hk => ⟨_, hdone hk, fun l => State.peek_modLanes _ _ _ l 1, hinc, hothers⟩, fun o k i hk ho hs hi =>
      ⟨_, hstart o k i hk ho hs hi, fun l => State.peek_modLanes _ _ _ l 1, rfl⟩⟩
  · -- a beat
    intro m o k r hr hf hm ho hs beat
    refine ⟨_, execLanePlaneRead_eq hr hf hm ho hs, rfl, State.planeRead_poisoned, fun hb hbad hl => ?_⟩
    have hrl : r.lane = lane := by simpa using List.find?_some hf
    rw [State.planeRead_within (bs := beat.1) (t := beat.2.2) (by rw [← hb]) hbad hl]
    refine ⟨?_, fun l => State.peek_modLanes _ _ _ l 1⟩
    rw [State.lanes_modLanes]
    exact Lanes.find_setRun _ hrl
  · -- a row delivered
    intro m j q o k hq hk ho ht rs adr poison value sum half bytes flags left report hrs hdel hbank hwf hbad _ _
    obtain ⟨hstored, hmacro, hlast, hclu, hpois⟩ := State.deliverRow_effect hwf hbad hq hk (j / 4) (j % 4) rs
    refine ⟨_, execRowResultDelivery_eq hq hk ho ht hrs hdel hbank, hstored, fun h => ⟨_, hmacro h, rfl, rfl⟩, hlast,
      fun hp hl h => ?_, hpois⟩
    have hcond : (rowPoisoned rs && bit (s.die d).lanes.lctl 0) = true := by
      rw [show rowPoisoned rs = true from hp, show bit (s.die d).lanes.lctl 0 = true from hl]
      rfl
    rw [hclu h, Cluster.rowPend, if_pos hcond]
    rfl
  · -- a multicast lands
    intro m i q k hq hk hl hx ht hd hb hs hw hfit
    refine ⟨_, execMulticastLand_eq hq hk hl hx ht hd hb hs, fun l => State.peek_modLanes _ _ _ l 1, fun j hj => ?_⟩
    rw [State.lanes_modLanes]
    exact LMacro.readN_spread hw hfit hj
  · -- a drain point, a safe point
    intro m rest hv hg hs
    refine ⟨fun hk => ⟨_, execLrsyncDrain_eq hv hg hs hk, fun l => State.peek_modLanes _ _ _ l 1, ?_⟩, fun hk ht =>
      ⟨_, execLsafeComplete_eq hv hg hs hk ht, fun l => State.peek_modLanes _ _ _ l 1, ?_⟩⟩
    all_goals
      rw [State.lanes_modLanes]
      exact ⟨Lanes.pass_live hv n, rfl, rfl⟩
  · -- the watchdog
    intro hp ha
    refine ⟨_, execLaneWatchdogReset_eq hp ha, fun hoff l => ?_, ?_⟩
    · rw [State.peek_modLanes, State.logColumns_off hoff]
    · rw [State.lanes_modLanes, State.lanes_logColumns]
      exact ⟨rfl, rfl, rfl, rfl, rfl⟩
  · -- a parity error
    intro m r hm hr hs
    refine ⟨fun h => ⟨_, execLaneParityReplay_again hm hr hs h, fun l => State.peek_modLanes _ _ _ l 1, ?_⟩, fun h =>
      ⟨_, execLaneParityReplay_reset hm hr hs h, fun hoff l => ?_, ?_⟩⟩
    · rw [State.lanes_modLanes]
      exact Lanes.find_setRun _ rfl
    · rw [State.peek_modLanes, State.logColumns_off hoff]
    · rw [State.lanes_modLanes, State.lanes_logColumns]
      exact ⟨rfl, rfl⟩

end Sys2Proof.Machine
end
